-- ==== Sys2Proof/Word.lean ====
section
/-! DEFINITION. The smallest units the spec counts in (00_scope.md, "Numbers, units and bit fields"): the byte, and
the byte string of R6 (byte 0 first). -/

namespace Sys2Proof

/-- One byte. -/
abbrev Byte := BitVec 8

/-- A run of bytes, byte 0 first (R6). -/
abbrev Bytes := List Byte

end Sys2Proof
end

