-- ==== Sys2Proof/Syntax.lean ====
section
/-! DEFINITION. The commands of the block: one constructor per row of spec/opcode_table.json, with the operands the
row's rule gives it. Small types the operands use come first. -/

namespace Sys2Proof

/-- The two wings (R12). -/
inductive Wing
  | north
  | south
  deriving DecidableEq, Repr

/-- By which way a dictionary write or an order reaches the control engine (R451, R482). -/
inductive Path
  /-- A write in the dictionary window (R454). -/
  | window
  /-- A Tursioc message over MCTP (R459). -/
  | mctp
  /-- An order of the package management itself (R478, R482). -/
  | management
  deriving DecidableEq, Repr

/-- The signed configuration record, as far as a rule uses it (R2, R3, R470, R474, R477). -/
structure ConfigRecord where
  /-- First 16 bytes of the SHA-256 of the record, OD 0x1000.0B. -/
  digest : Nat
  /-- OD 0x1000.06: 0 K4-S, 1 K4-M, 2 K4-X. -/
  configuration : Nat
  /-- OD 0x1000.03. -/
  iana : Nat
  /-- OD 0x1000.09: bit 0 North, bit 1 South. -/
  wings : Nat
  /-- Channel agents present, bit a for agent a (OD 0x1000.10 to .14). -/
  agents : Nat
  /-- Default of OD 0x2700.01. -/
  package : Nat
  /-- Default overrides: entry key (index * 256 + subindex) and value (R470). -/
  overrides : List (Nat × Nat)
  deriving DecidableEq, Repr

/-- What the security block supplies at step 3 of R477, with its verdict (R478). -/
inductive Verdict
  | noRecord
  | invalid
  | valid (r : ConfigRecord)
  deriving DecidableEq, Repr

/-- The shared islands of R502 at whose receiving end a link may stall, and the wing islands. -/
inductive Island
  | wingIsland (w : Wing)
  | queue (copy : Nat)
  | control (copy : Nat)
  | telemetry
  | faultCollector (copy : Nat)
  | seryoCore (copy : Nat)
  | seryoPort (p : Nat)
  | agent (a : Nat)
  | bridge
  deriving DecidableEq, Repr

/-- One 256-byte flit as one number, byte 0 lowest (R6, R420). -/
abbrev Flit := BitVec 2048

/-- The commands. `flow` operands name a flow in flight (R352), `ring` and `cq` a submission and a completion ring,
`su` a stream unit (0 to 15 North, 16 to 31 South), `stream` a stream of R353, `queue` a satchel queue, `port` a
Seryo port or, for agent requests, a channel agent (280: the host link), `pool` a credit pool of R423. -/
inductive Instr
  -- ring commands, run by their stream unit
  | gatherPool (flow : Nat)
  | gatherRaw (flow : Nat)
  | recall (flow : Nat)
  | scatterAdd (flow : Nat)
  | rowUpdateOpt (flow : Nat)
  | rowCommit (flow : Nat)
  | project (flow : Nat)
  | vecChain (flow : Nat)
  | quantise (flow : Nat)
  | calibrate (flow : Nat)
  | blackboardLoad (flow : Nat)
  | copy (flow : Nat)
  | fence (flow : Nat)
  | flush (flow : Nat)
  | acquire (flow : Nat)
  | bell (flow : Nat)
  | signal (flow : Nat)
  | wait (flow : Nat)
  | write (flow : Nat)
  | arm (flow : Nat)
  | cancel (flow : Nat)
  | stop (flow : Nat)
  | nop (flow : Nat)
  -- queue front end
  | doorbellWrite (offset size value : Nat)
  | dispatch
  | headerRecheck (ring : Nat)
  | completionRecord (flow : Nat)
  | swHeadReread (cq : Nat)
  | coalTimeout (cq : Nat)
  | sqEnable (number : Nat)
  | sqDisable (number : Nat)
  | sqResume (number : Nat)
  | sqAbort (number : Nat)
  | cqEnable (number : Nat)
  | cqDisable (number : Nat)
  -- channel agents and row cache
  | rowRead (addr len : Nat)
  | blockRead (addr len : Nat)
  | blockWrite (port : Nat)
  | crcWrite (port : Nat)
  | writeBack (port : Nat)
  | agentAdd (port : Nat)
  | update (port : Nat)
  | agentCommit (port : Nat)
  | append (port : Nat)
  | record (port : Nat)
  | rowFill (addr hint : Nat)
  | shareWindow
  -- arrays and vector engines
  | arrayPass (w : Wing)
  | tileDrain (w : Wing)
  | vectorTake (w : Wing)
  | contextSwitch (su : Nat)
  -- streams, satchels, synchronisation
  | streamRun (stream : Nat)
  | generationComplete (stream : Nat)
  | satchelGrant (queue : Nat)
  | satchelArrival (queue : Nat)
  | satchelTake (queue : Nat)
  | stallCycle (flow queue : Nat)
  | bellTimeout (flow : Nat)
  | waitTimeout (flow : Nat)
  | fenceTimeout (flow : Nat)
  | signalWordWrite (n value : Nat)
  -- memory tiers
  | stackTemperatureRead (temps : List Nat)
  | stackRetrain (stack : Nat)
  | stackHoldExpiry (stack : Nat)
  | tierTrainingDone (repaired unusable : List Nat) (unusableBulk : Nat)
  -- Seryo links
  | laneLock (port : Nat)
  | lockLost (port : Nat)
  | codewordPair (port : Nat) (frame : Nat) (symbols : Nat) (corrected : Bool) (flits : List Flit)
  | idle (port : Nat) (flit : Flit)
  | data (port : Nat) (flit : Flit)
  | hello (port : Nat) (flit : Flit)
  | nak (port : Nat) (flit : Flit)
  | echo (port : Nat) (flit : Flit)
  | echoReply (port : Nat) (flit : Flit)
  | goodbye (port : Nat) (flit : Flit)
  | portSilence (port : Nat)
  | ackProgressTimeout (port : Nat)
  | helloTimeout (port : Nat)
  -- Seryo messages: the oldest whole message of a pool of a port
  | rgather (port pool : Nat)
  | rowdata (port pool : Nat)
  | radd (port pool : Nat)
  | rack (port pool : Nat)
  | grantReq (port pool : Nat)
  | grant (port pool : Nat)
  | tile (port pool : Nat)
  | tileAck (port pool : Nat)
  | beacon (port pool : Nat)
  | route (port pool : Nat)
  | forward (port pool : Nat)
  | beaconInterval
  -- dictionary and management
  | dictWrite (offset size value : Nat)
  -- the I3C frames of management messages, as they arrive; of a control message the first frame and those that follow
  | mctpRead (frames : List Bytes)
  | mctpWrite (frames : List Bytes)
  | readBlock (frames : List Bytes)
  | mctpControl (first : Bytes) (rest : List Bytes)
  | setOpen (set owner : Nat)
  | setCommit (set owner : Nat)
  | commitPoint (set : Nat)
  | setAbort (set owner : Nat)
  | reattachCqResume (number : Nat)
  | reattachCqReset (number : Nat)
  | reattachSqResume (number : Nat)
  | reattachSqReset (number : Nat)
  | drop (number : Nat)
  | unitFence (unit : Nat)
  | unitRestore (unit : Nat)
  | wingReturn (w : Wing)
  | faultAcknowledge (number : Nat)
  | injectionArm (word : Nat)
  | orderedReset (path : Path)
  | forcedReset (path : Path)
  | configurationHold (path : Path) (value : Nat)
  | portEnable (path : Path) (mask : Nat)
  | overlapMode (path : Path) (w : Wing) (mode : Nat)
  -- faults and the prefect token
  | fault (cls unit addr detail : Nat)
  | islandStall (island : Island)
  | bridgeDown
  | autoAck (slot : Nat)
  | leaseRenewal
  | leaseLapse
  | tokenClaim
  -- power and heat
  | powerGrant (w : Wing) (watts seq : Nat)
  | revoke (w : Wing) (watts seq : Nat)
  | hallReturn (w : Wing)
  | passSilent (w : Wing)
  | hallPassWindow
  | voltageChange (mv : Nat)
  | stepRateMeasure (north south : Nat)
  | junctionRead (temps : List Nat)
  | sensorFail (island : Nat)
  | railLow
  -- start-up, reset, host link
  | coreRailGood
  | configurationRecord (identity siliconStep : Nat) (v : Verdict)
  | rowCacheInitialised
  | timebaseWaitExpiry
  | linkUp (epoch : Nat)
  | retrainBegin
  | retrainEnd (epoch : Nat)
  | holdExpired
  | epochChange (epoch : Nat)
  | coreRailGoodWithdrawn
  | forwardingInTransit (path : Path) (value : Nat)
  deriving DecidableEq, Repr

end Sys2Proof
end

