-- ==== Sys2Proof/Config.lean ====
section
/-! DEFINITION. What the spec leaves open, as constants without a body: nothing in Lean can evaluate one or prove a
value of it (assumption log 5). Each is applied to the model's own counter `Block.freeCount`, which the step advances,
so that a fresh value arises at each use, or to the operands that the value belongs to. The last section holds fixed figures of R25 that several files use. -/

namespace Sys2Proof.Config

/-- The random 32-bit incarnation that the security block supplies (R438), less one: the drawn number is this value
plus one, so that it is non-zero. -/
opaque freeIncarnation : Nat → Fin 4294967295

/-- The byte that a read of an absent unit carries beside its poison mark (R319 gives no data). -/
opaque freeAbsentByte : Nat → Nat → BitVec 8

/-- A byte that a STORE takes from a satchel row shorter than its own rows (R361 states none). -/
opaque freeSatchelByte : Nat → Nat → BitVec 8

/-- The hash by which a sender chooses among equal routes or ports (R435, R441 name what is hashed, not the hash). -/
opaque freeRouteHash : Nat → Nat

/-- DETAIL of a FAULT event that the engine itself raises (R521: "syndrome, set and way, or checker state, by class",
without a layout). -/
opaque freeFaultDetail : Nat → BitVec 32

/-- INTERRUPT_NS of a TOKEN event (R522), bounded by R518. -/
opaque freeInterruptNs : Nat → Fin 20001

/-- OD 0x2901.04, the present draw in watts (R527 bounds it, no rule computes it). -/
opaque freeDraw : Nat → Fin 461

/-- What a chain stage gives when the spec states no result for its operand (R274 states every other one):
arithmetic on special values that no table of R273 or R274 lists. -/
opaque freeLane : Nat → Nat → BitVec 32

/-- Value of a numeric result for which the spec states none (see the assumption log), as raw bits. -/
opaque freeBits : Nat → BitVec 64

/-- Whether a unit that the memory once reported uncorrectable, and that was never stored as poisoned, is so reported
again (R547: "depends on the memory"). -/
opaque freeReported : Nat → Nat → Bool

/-- Errors that the memory controllers have corrected since the counter was last read (R337 counts them; no rule says when
they come). -/
opaque freeCorrected : Nat → Nat

/-- First fast-tier address (R318). -/
def fastStart : Nat := 0x01000000_0000

/-- First bulk-tier address (R318). -/
def bulkStart : Nat := 0x02000000_0000

/-- Bytes of one stack's range (R318). -/
def stackBytes : Nat := 0x10_0000_0000

/-- Bytes of one bulk channel's range (R318). -/
def bulkBytes : Nat := 0x20_0000_0000

/-- Dedupe and combining window (R163, R290). -/
def window : Nat := 4096

/-- Tiles a tile queue holds (R265). -/
def tileQueueDepth : Nat := 8

/-- Waiting requests a channel agent holds (R327). -/
def agentQueueDepth : Nat := 256

/-- Bytes of writes that the host link holds during a retrain (R488). -/
def holdBytes : Nat := 4194304

/-- Entries of a channel agent's row-commit lock table (R311). -/
def lockEntries : Nat := 64

/-- Program slots of a wing (R267). -/
def programSlots : Nat := 16

/-- The pseudo port through which host memory is reached: beyond agents 0 to 279 of R321. -/
def hostPort : Nat := 280

end Sys2Proof.Config
end

