-- ==== Sys2Proof/Machine/Bits.lean ====
section
/-! DEFINITION. Bit fields, little-endian bytes, canonical maps, CRC-32C (R338) and SHA-256 (R472): the plain helpers
that every unit of the block uses. -/

namespace Sys2Proof.Machine

/-- Field name[hi:lo] of a structure read as one number (00_scope.md, "A bit field is written name[hi:lo]"). -/
def bits (w hi lo : Nat) : Nat := (w >>> lo) % 2 ^ (hi + 1 - lo)

/-- Bit i of a structure. -/
def bit (w i : Nat) : Bool := w.testBit i

/-- A Bool as the bit it is written as. -/
def b2n (b : Bool) : Nat := if b then 1 else 0

/-- Bit fields put side by side: each entry is (lowest bit, value). -/
def pack (fs : List (Nat × Nat)) : Nat := fs.foldl (fun acc f => acc + f.2 <<< f.1) 0

/-- Addition of a counter that wraps at 2^64 (R452). -/
def add64 (a b : Nat) : Nat := (a + b) % 2 ^ 64

/-- Addition that stops at `top`. -/
def addStop (top a b : Nat) : Nat := min top (a + b)

/-- ceil(a / b). -/
def ceilDiv (a b : Nat) : Nat := (a + b - 1) / b

/-- a rounded up to a multiple of b. -/
def roundUp (a b : Nat) : Nat := ceilDiv a b * b

/-- a is a multiple of b. -/
def aligned (a b : Nat) : Bool := a % b == 0

/-- The least k with a ≤ 2^k, looked for below `fuel`. -/
def ceilLog2 (fuel a : Nat) : Nat := ((List.range fuel).find? (fun k => a ≤ 2 ^ k)).getD fuel

/-- Two's complement reading of a w-bit number. -/
def sext (w n : Nat) : Int := if n < 2 ^ (w - 1) then n else (n : Int) - 2 ^ w

/-- The w-bit number that two's complement writes for i. -/
def wrapInt (w : Nat) (i : Int) : Nat := (i % (2 ^ w : Int)).toNat

/-! ### Bytes -/

/-- The number a byte string holds, byte 0 lowest (R6). -/
def leNat : Bytes → Nat
  | [] => 0
  | b :: bs => b.toNat + 256 * leNat bs

/-- The low `len` bytes of n, byte 0 first (R6). -/
def natLE (len n : Nat) : Bytes :=
  match len with
  | 0 => []
  | k + 1 => BitVec.ofNat 8 n :: natLE k (n / 256)

/-- `len` zero bytes. -/
def zeros (len : Nat) : Bytes := List.replicate len 0

/-- `len` bytes of bs from offset `off`, zeros past its end. -/
def slice (bs : Bytes) (off len : Nat) : Bytes :=
  let got := (bs.drop off).take len
  got ++ zeros (len - got.length)

/-- `new` laid over bs from offset `off`; bs keeps its length. -/
def patch (bs : Bytes) (off : Nat) (new : Bytes) : Bytes :=
  (bs.take off ++ new ++ bs.drop (off + new.length)).take bs.length

/-- A byte string cut or zero-filled to `len` bytes. -/
def fit (len : Nat) (bs : Bytes) : Bytes := slice bs 0 len

/-- XOR of the bytes of a run (R139, R140, R418). -/
def xorBytes (bs : Bytes) : Nat := bs.foldl (fun acc b => acc ^^^ b.toNat) 0

/-- Codes of `b` bits in the order R68 gives: element e lies in bits [e*b + b - 1 : e*b]. -/
def codeAt (b : Nat) (area : Nat) (e : Nat) : Nat := (area >>> (e * b)) % 2 ^ b

/-- Codes of `b` bits written as R68 stores them, in `len` bytes. -/
def packCodes (b len : Nat) (cs : List Nat) : Bytes :=
  natLE len (cs.foldr (fun c acc => c % 2 ^ b + 2 ^ b * acc) 0)

/-! ### Canonical maps: keys strictly rising, no entry at its default -/

/-- A canonical map from numbers to numbers. -/
abbrev NatMap := List (Nat × Nat)

/-- The value a map lists for a key. -/
def mapFind (m : NatMap) (k : Nat) : Option Nat := (m.find? (fun e => e.1 == k)).map (·.2)

/-- The value of a key, `d` where the map lists none. -/
def mapGet (m : NatMap) (d k : Nat) : Nat := (mapFind m k).getD d

/-- m without key k. -/
def mapErase (m : NatMap) (k : Nat) : NatMap := m.filter (fun e => e.1 != k)

/-- Key k at value v; an entry at its default d is not listed. -/
def mapSet (m : NatMap) (d k v : Nat) : NatMap :=
  if v == d then mapErase m k
  else m.filter (fun e => e.1 < k) ++ (k, v) :: m.filter (fun e => k < e.1)

/-! ### Lists of records found by a key -/

/-- The first element that p names changed by f. -/
def updFirst {α : Type} (p : α → Bool) (f : α → α) : List α → List α
  | [] => []
  | x :: xs => if p x then f x :: xs else x :: updFirst p f xs

/-- Element i of a list changed by f. -/
def updAt {α : Type} (l : List α) (i : Nat) (f : α → α) : List α := l.modify i f

/-- Numbers a to b - 1. -/
def span (a b : Nat) : List Nat := (List.range (b - a)).map (· + a)

/-- A list cut into runs of n (n at least 1); `fuel` bounds the number of runs. -/
def chunksAux {α : Type} (n : Nat) : Nat → List α → List (List α)
  | 0, _ => []
  | _, [] => []
  | fuel + 1, l => l.take n :: chunksAux n fuel (l.drop n)

/-- A list cut into runs of n. -/
def chunks {α : Type} (n : Nat) (l : List α) : List (List α) := chunksAux (max n 1) l.length l

/-! ### CRC-32C (R338) -/

/-- One bit of the reflected CRC-32C with polynomial 0x1EDC_6F41 (reflected 0x82F6_3B78). -/
def crcBit (c : Nat) : Nat := if c % 2 == 1 then (c / 2) ^^^ 0x82F63B78 else c / 2

/-- One byte of the CRC. -/
def crcByte (c : Nat) (b : Byte) : Nat :=
  crcBit (crcBit (crcBit (crcBit (crcBit (crcBit (crcBit (crcBit (c ^^^ b.toNat))))))))

/-- CRC-32C of a byte string (R338). -/
def crc32c (bs : Bytes) : Nat := bs.foldl crcByte 0xFFFF_FFFF ^^^ 0xFFFF_FFFF

/-! ### SHA-256 (FIPS 180-4, named by R472) -/

/-- The greatest number of at most 36 bits whose k-th power is at most n. -/
def rootDown (k n : Nat) : Nat := (List.range 36).foldr (fun i r => if (r + 2 ^ i) ^ k ≤ n then r + 2 ^ i else r) 0

/-- The primes below 312, which are the first 64. -/
def smallPrimes : List Nat := (span 2 312).filter (fun p => (span 2 18).all (fun d => p ≤ d || p % d != 0))

/-- The first 32 bits behind the point of the k-th root of a prime. -/
def rootWord (k p : Nat) : Nat := rootDown k (p * 2 ^ (32 * k)) % 2 ^ 32

/-- A 32-bit word turned right by k places. -/
def turnRight (x k : Nat) : Nat := x / 2 ^ k + x % 2 ^ k * 2 ^ (32 - k)

/-- The exclusive or of a word's turns. -/
def turns (x : Nat) (ks : List Nat) : Nat := (ks.map (turnRight x)).foldr (· ^^^ ·) 0

/-- The words of a block, newest first, with `n` more behind the sixteen that it holds. -/
def hashWords (n : Nat) (first : List Nat) : List Nat :=
  (List.range n).foldl (fun ws _ =>
    let early := ws.getD 14 0
    let late := ws.getD 1 0
    ((turns early [7, 18] ^^^ early / 8) + (turns late [17, 19] ^^^ late / 1024) + ws.getD 15 0 + ws.getD 6 0) % 2 ^ 32 :: ws)
    first

/-- One round on the two chains of words, each newest first: `kw` is the round's constant and word added. -/
def hashRound (r : List Nat × List Nat) (kw : Nat) : List Nat × List Nat :=
  let x := r.1.getD 0 0
  let y := r.2.getD 0 0
  let choice := (y &&& r.2.getD 1 0) + ((2 ^ 32 - 1 - y) &&& r.2.getD 2 0)
  let most := (x &&& (r.1.getD 1 0 ||| r.1.getD 2 0)) ||| (r.1.getD 1 0 &&& r.1.getD 2 0)
  let t := r.2.getD 3 0 + turns y [6, 11, 25] + choice + kw
  ((t + turns x [2, 13, 22] + most) % 2 ^ 32 :: r.1.take 3, (t + r.1.getD 3 0) % 2 ^ 32 :: r.2.take 3)

/-- A number read from bytes, the highest first. -/
def beNat (bs : Bytes) : Nat := leNat bs.reverse

/-- The eight words after one more block of 64 bytes. -/
def hashBlock (h : List Nat) (blk : Bytes) : List Nat :=
  let ws := (hashWords 48 ((chunks 4 blk).map beNat).reverse).reverse
  let r := (List.zipWith (fun p w => rootWord 3 p + w) smallPrimes ws).foldl hashRound (h.take 4, h.drop 4)
  List.zipWith (fun u v => (u + v) % 2 ^ 32) h (r.1 ++ r.2)

/-- SHA-256 of a byte string: the 32 output bytes, first byte first. -/
def sha256 (bs : Bytes) : Bytes :=
  let filled := bs ++ 0x80 :: zeros ((119 - bs.length % 64) % 64) ++ (natLE 8 (8 * bs.length)).reverse
  ((chunks 64 filled).foldl hashBlock ((smallPrimes.take 8).map (rootWord 2))).flatMap (fun w => (natLE 4 w).reverse)

end Sys2Proof.Machine
end

