-- ==== Sys2Proof/Machine/Num.lean ====
section
/-! DEFINITION. Exact numbers and their one rounding: the arithmetic that R69 to R72, R82, R83, R177 and R274 share.
A number is a dyadic value held exactly, an infinity or NaN; every float operation is formed exactly and rounded once
to nearest, ties to even. -/

namespace Sys2Proof.Machine

/-- An exact value (R69): NaN, a signed infinity, or (-1)^neg * m * 2^e. A zero keeps its sign (R72). -/
inductive Num
  | nan
  | inf (neg : Bool)
  | fin (neg : Bool) (m : Nat) (e : Int)
  deriving DecidableEq, Repr

namespace Num

/-- +0. -/
def zero : Num := .fin false 0 0

/-- 1. -/
def one : Num := .fin false 1 0

/-- The integer i. -/
def ofInt (i : Int) : Num := .fin (i < 0) i.natAbs 0

/-- The natural number n. -/
def ofNat (n : Nat) : Num := .fin false n 0

/-- A zero of either sign. -/
def isZero : Num → Bool
  | .fin _ m _ => m == 0
  | _ => false

/-- NaN. -/
def isNan : Num → Bool
  | .nan => true
  | _ => false

/-- Neither NaN nor an infinity. -/
def isFinite : Num → Bool
  | .fin _ _ _ => true
  | _ => false

/-- The sign, clear for NaN. -/
def sign : Num → Bool
  | .nan => false
  | .inf s => s
  | .fin s _ _ => s

/-- -x; NaN stays NaN (R70). -/
def neg : Num → Num
  | .nan => .nan
  | .inf s => .inf (!s)
  | .fin s m e => .fin (!s) m e

/-- |x|. -/
def abs : Num → Num
  | .nan => .nan
  | .inf _ => .inf false
  | .fin _ m e => .fin false m e

/-- x * 2^k, exactly. -/
def scale2 (k : Int) : Num → Num
  | .fin s m e => .fin s m (e + k)
  | x => x

/-- The signed integer m * 2^(e - f) of a finite value, for f at most e. -/
def scaled (f : Int) (neg : Bool) (m : Nat) (e : Int) : Int :=
  let v : Int := (m : Int) * 2 ^ (e - f).toNat
  if neg then -v else v

/-- Order of two finite values: the sign of a - b. -/
def cmpFin (a b : Num) : Int :=
  match a, b with
  | .fin s m e, .fin t n f =>
    let g := min e f
    scaled g s m e - scaled g t n f
  | _, _ => 0

/-- a < b, for values that are not NaN; -∞ is the lowest and +∞ the highest. -/
def lt (a b : Num) : Bool :=
  match a, b with
  | .nan, _ => false
  | _, .nan => false
  | .inf s, .inf t => s && !t
  | .inf s, .fin _ _ _ => s
  | .fin _ _ _, .inf t => !t
  | a, b => cmpFin a b < 0

/-- a = b as values: zeros of both signs are equal. -/
def eqv (a b : Num) : Bool := !a.isNan && !b.isNan && !lt a b && !lt b a

/-- The exact sum of two finite values; an exact zero is +0 unless both are -0. -/
def addFin (s : Bool) (m : Nat) (e : Int) (t : Bool) (n : Nat) (f : Int) : Num :=
  let g := min e f
  let v := scaled g s m e + scaled g t n f
  if v == 0 then .fin (s && t) 0 0 else .fin (v < 0) v.natAbs g

/-- The exact sum. NaN where an operand is NaN, and for +∞ and -∞ together (R177). -/
def add (a b : Num) : Num :=
  match a, b with
  | .nan, _ => .nan
  | _, .nan => .nan
  | .inf s, .inf t => if s == t then .inf s else .nan
  | .inf s, _ => .inf s
  | _, .inf t => .inf t
  | .fin s m e, .fin t n f => addFin s m e t n f

end Num

/-! ### Rounding -/

/-- floor(log2(n / d)) for positive n and d. -/
def log2Ratio (n d : Nat) : Int :=
  let l : Int := (Nat.log2 n : Int) - Nat.log2 d
  let ge := if 0 ≤ l then d * 2 ^ l.toNat ≤ n else d ≤ n * 2 ^ (-l).toNat
  if ge then l else l - 1

/-- n / d rounded to the nearest integer, a tie to the even one (R83). -/
def roundDiv (n d : Nat) : Nat :=
  let q := n / d
  let r := n % d
  if 2 * r < d then q else if d < 2 * r then q + 1 else if q % 2 == 0 then q else q + 1

/-- (n / d) * 2^e rounded to F fraction bits with a smallest unit 2^qmin and an unbounded top: the result is
M * 2^q (R83). -/
def roundMag (F : Nat) (qmin : Int) (n d : Nat) (e : Int) : Nat × Int :=
  if n == 0 then (0, qmin)
  else
    let q := max (log2Ratio n d + e - F) qmin
    let s := e - q
    let m := if 0 ≤ s then roundDiv (n * 2 ^ s.toNat) d else roundDiv n (d * 2 ^ (-s).toNat)
    (m, q)

/-- A float layout of R71. -/
structure FloatFmt where
  expBits : Nat
  fracBits : Nat
  bias : Nat
  /-- Code of the largest finite magnitude. -/
  maxCode : Nat
  /-- Code of +∞, where the format has one. -/
  infCode : Option Nat
  /-- Canonical NaN, where the format has one. -/
  nanCode : Option Nat
  deriving DecidableEq, Repr

namespace FloatFmt

/-- Exponent of the smallest unit: 1 - B - F (R72). -/
def qmin (f : FloatFmt) : Int := 1 - (f.bias : Int) - f.fracBits

/-- Bits of the exponent and fraction. -/
def width (f : FloatFmt) : Nat := f.expBits + f.fracBits

/-- The value of a magnitude code, special codes excepted (R72). -/
def magnitude (f : FloatFmt) (neg : Bool) (c : Nat) : Num :=
  let E := c >>> f.fracBits
  let fr := c % 2 ^ f.fracBits
  if E == 0 then .fin neg fr f.qmin
  else .fin neg (2 ^ f.fracBits + fr) ((E : Int) - f.bias - f.fracBits)

/-- Decoding of a code, its sign bit at the top (R71, R72). -/
def decode (f : FloatFmt) (c : Nat) : Num :=
  let neg := c.testBit f.width
  let mag := c % 2 ^ f.width
  if f.infCode == some mag then .inf neg
  else if f.maxCode < mag then .nan
  else f.magnitude neg mag

/-- The magnitude code of M * 2^q as roundMag answers it; it may lie beyond `maxCode`. -/
def codeOf (f : FloatFmt) (r : Nat × Int) : Nat :=
  let r' := if r.1 == 2 ^ (f.fracBits + 1) then (2 ^ f.fracBits, r.2 + 1) else r
  if r'.1 < 2 ^ f.fracBits then r'.1
  else ((r'.2 - f.qmin).toNat + 1) <<< f.fracBits + (r'.1 - 2 ^ f.fracBits)

/-- A magnitude with its sign bit. -/
def signed (f : FloatFmt) (neg : Bool) (mag : Nat) : Nat := (b2n neg) <<< f.width + mag

end FloatFmt

/-- FP32 (R71). -/
def fp32Fmt : FloatFmt := ⟨8, 23, 127, 0x7F7F_FFFF, some 0x7F80_0000, some 0x7FC0_0000⟩
/-- BF16 (R71). -/
def bf16Fmt : FloatFmt := ⟨8, 7, 127, 0x7F7F, some 0x7F80, some 0x7FC0⟩
/-- FP16 (R71). -/
def fp16Fmt : FloatFmt := ⟨5, 10, 15, 0x7BFF, some 0x7C00, some 0x7E00⟩
/-- FP8E5 (R71). -/
def fp8e5Fmt : FloatFmt := ⟨5, 2, 15, 0x7B, some 0x7C, some 0x7E⟩
/-- FP8E4: no infinity, one NaN (R71). -/
def fp8e4Fmt : FloatFmt := ⟨4, 3, 7, 0x7E, none, some 0x7F⟩
/-- FP6E3 (R71). -/
def fp6e3Fmt : FloatFmt := ⟨3, 2, 3, 0x1F, none, none⟩
/-- FP6E2 (R71). -/
def fp6e2Fmt : FloatFmt := ⟨2, 3, 1, 0x1F, none, none⟩
/-- FP4 (R71). -/
def fp4Fmt : FloatFmt := ⟨2, 1, 1, 0x7, none, none⟩

namespace Num

/-- The product of a zero and an infinity, of which no rule states the value: a free value of the operands (log 12). -/
def freeProduct (a b : Num) : Num :=
  fp32Fmt.decode (Config.freeLane 3 (2 * b2n a.sign + b2n b.sign)).toNat

/-- The exact product. -/
def mul (a b : Num) : Num :=
  match a, b with
  | .nan, _ => .nan
  | _, .nan => .nan
  | .inf s, .inf t => .inf (s != t)
  | .inf s, .fin t n f => if n == 0 then freeProduct (.inf s) (.fin t n f) else .inf (s != t)
  | .fin s m e, .inf t => if m == 0 then freeProduct (.fin s m e) (.inf t) else .inf (s != t)
  | .fin s m e, .fin t n f => .fin (s != t) (m * n) (e + f)

end Num

/-- A rational magnitude rounded to FP32; beyond the largest finite value it becomes an infinity (R177). -/
def roundRatio32 (neg : Bool) (n d : Nat) (e : Int) : Num :=
  let c := fp32Fmt.codeOf (roundMag 23 fp32Fmt.qmin n d e)
  if fp32Fmt.maxCode < c then .inf neg else fp32Fmt.magnitude neg c

/-- Rounding to FP32, to nearest with ties to even (R177, R273). -/
def rnd32 : Num → Num
  | .fin s m e => if m == 0 then .fin s 0 0 else roundRatio32 s m 1 e
  | x => x

/-- The FP32 bits of a value that is already FP32. -/
def toF32 : Num → Nat
  | .nan => 0x7FC0_0000
  | .inf s => fp32Fmt.signed s 0x7F80_0000
  | .fin s m e =>
    let c := fp32Fmt.codeOf (roundMag 23 fp32Fmt.qmin m 1 e)
    fp32Fmt.signed s (if fp32Fmt.maxCode < c then 0x7F80_0000 else c)

/-- The value of FP32 bits. -/
def ofF32 (w : Nat) : Num := fp32Fmt.decode (w % 2 ^ 32)

/-- The value of BF16 bits. -/
def ofBf16 (w : Nat) : Num := bf16Fmt.decode (w % 2 ^ 16)

/-! ### Float operations of R273 and R302, each rounded once -/

/-- The value the model takes where an addition meets +∞ and -∞ outside R177: no rule states it (log 12). -/
def freeSum (op : Nat) : Num := ofF32 (Config.freeLane op 0).toNat

/-- Opposite infinities. -/
def oppositeInf (a b : Num) : Bool :=
  match a, b with
  | .inf s, .inf t => s != t
  | _, _ => false

/-- A + B (R273). -/
def fadd (a b : Num) : Num := if oppositeInf a b then freeSum 1 else rnd32 (a.add b)

/-- A - B (R273). -/
def fsub (a b : Num) : Num := fadd a b.neg

/-- A * B (R273). -/
def fmul (a b : Num) : Num := rnd32 (a.mul b)

/-- A * B + C, formed exactly and rounded once (R273). -/
def ffma (a b c : Num) : Num :=
  let p := a.mul b
  if oppositeInf p c then freeSum 4 else rnd32 (p.add c)

/-- The quotient of two finite values, b non-zero, rounded to FP32. -/
def quot (s : Bool) (m : Nat) (e : Int) (t : Bool) (n : Nat) (f : Int) : Num :=
  if m == 0 then .fin (s != t) 0 0 else roundRatio32 (s != t) m n (e - f)

/-- A / B (R273, R274). -/
def fdiv (a b : Num) : Num :=
  match a, b with
  | .nan, _ => .nan
  | _, .nan => .nan
  | .inf _, .inf _ => .nan
  | .inf s, .fin t _ _ => .inf (s != t)
  | .fin s _ _, .inf t => .fin (s != t) 0 0
  | .fin s m e, .fin t n f =>
    if n == 0 then (if m == 0 then .nan else .inf (s != t)) else quot s m e t n f

/-- The smaller of two values; +0 ranks above -0, NaN gives NaN (R274). -/
def fmin (a b : Num) : Num :=
  if a.isNan || b.isNan then .nan
  else if a.lt b then a else if b.lt a then b else if a.sign then a else b

/-- The larger of two values; +0 ranks above -0, NaN gives NaN (R274). -/
def fmax (a b : Num) : Num :=
  if a.isNan || b.isNan then .nan
  else if a.lt b then b else if b.lt a then a else if a.sign then b else a

/-- floor(sqrt(n)) by binary digits, i digits left to try above the root r so far. -/
def isqrtAux (n : Nat) : Nat → Nat → Nat
  | 0, r => r
  | i + 1, r =>
    let c := r + 2 ^ i
    isqrtAux n i (if c * c ≤ n then c else r)

/-- floor(sqrt(n)). -/
def isqrt (n : Nat) : Nat := isqrtAux n (Nat.log2 n / 2 + 1) 0

/-- Square root of a positive m * 2^e, rounded once: the root is found to more bits than FP32 holds, with one sticky
bit below. -/
def sqrtPos (m : Nat) (e : Int) : Num :=
  let odd := e % 2 != 0
  let m' := (if odd then 2 * m else m) * 2 ^ 128
  let e' := (if odd then e - 1 else e) / 2 - 64
  let r := isqrt m'
  let sticky := if r * r == m' then 0 else 1
  roundRatio32 false (2 * r + sticky) 2 e'

/-- √A (R273, R274). -/
def fsqrt : Num → Num
  | .nan => .nan
  | .inf s => if s then .nan else .inf false
  | .fin s m e => if m == 0 then .fin s 0 0 else if s then .nan else sqrtPos m e

/-- 1 / √(m * 2^e), rounded once. -/
def rsqrtPos (m : Nat) (e : Int) : Num :=
  let odd := e % 2 != 0
  let m' := if odd then 2 * m else m
  let h := (if odd then e - 1 else e) / 2
  let t := 2 ^ (2 * (Nat.log2 m' + 100))
  let r := isqrt (t / m')
  let sticky := if r * r * m' == t then 0 else 1
  roundRatio32 false (2 * r + sticky) 2 (-(Nat.log2 m' + 100 : Int) - h)

/-- 1 / √A (R273, R274). -/
def frsqrt : Num → Num
  | .nan => .nan
  | .inf s => if s then .nan else Num.zero
  | .fin s m e => if m == 0 then .inf s else if s then .nan else rsqrtPos m e

/-! ### Exponential, logarithm and what is built on them

Each is bracketed between two rational bounds some hundreds of bits apart from each other's last place; the bounds are
rounded, and where they agree (log 13: always, for FP32 operands) that is the correctly rounded result of R274. -/

/-- Fixed-point bits of the bounds. -/
def fxBits : Nat := 512

/-- Bounds of sum t^k / k! for 0 ≤ t = n / 2^fxBits small, the term of order k being a, `fuel` terms on. -/
def expTerms (n : Nat) : Nat → Nat → Nat × Nat → Nat × Nat → Nat × Nat
  | 0, _, _, acc => (acc.1, acc.2 + 2)
  | fuel + 1, k, a, acc =>
    let lo := a.1 * n / (k * 2 ^ fxBits)
    let hi := a.2 * n / (k * 2 ^ fxBits) + 1
    expTerms n fuel (k + 1) (lo, hi) (acc.1 + lo, acc.2 + hi)

/-- `r` squarings of fixed-point bounds. -/
def squareUp : Nat → Nat × Nat → Nat × Nat
  | 0, b => b
  | r + 1, b => squareUp r (b.1 * b.1 / 2 ^ fxBits, b.2 * b.2 / 2 ^ fxBits + 1)

/-- Bounds of e^(m * 2^e) in fixed point, for 0 ≤ m * 2^e at most 256. -/
def expBounds (m : Nat) (e : Int) : Nat × Nat :=
  let sh := e + fxBits - 16
  let lo := if 0 ≤ sh then m * 2 ^ sh.toNat else m / 2 ^ (-sh).toNat
  let hi := if 0 ≤ sh then lo else lo + 1
  let one := 2 ^ fxBits
  let bl := expTerms lo 48 1 (one, one) (one, one)
  let bh := expTerms hi 48 1 (one, one) (one, one)
  squareUp 16 (bl.1, bh.2)

/-- Bounds of e^x in fixed point for |x| at most 256. -/
def expBoundsS (neg : Bool) (m : Nat) (e : Int) : Nat × Nat :=
  let b := expBounds m e
  if neg then (2 ^ (2 * fxBits) / b.2, 2 ^ (2 * fxBits) / b.1 + 1) else b

/-- The value that both bounds (over 2^fxBits * d) round to. -/
def roundBounds (neg : Bool) (lo hi : Nat × Nat) : Num :=
  let a := roundRatio32 neg lo.1 lo.2 0
  let b := roundRatio32 neg hi.1 hi.2 0
  if a == b then a else ofF32 (Config.freeLane 5 (toF32 a)).toNat

/-- m * 2^e exceeds 2^k. -/
def above (m : Nat) (e : Int) (k : Int) : Bool := m != 0 && k ≤ (Nat.log2 m : Int) + e

/-- e^A (R273, R274). -/
def fexp : Num → Num
  | .nan => .nan
  | .inf s => if s then Num.zero else .inf false
  | .fin s m e =>
    if m == 0 then Num.one
    else if above m e 8 then (if s then Num.zero else .inf false)
    else
      let b := expBoundsS s m e
      roundBounds false (b.1, 2 ^ fxBits) (b.2, 2 ^ fxBits)

/-- Bounds of atanh(n / d) in fixed point by its series, `fuel` terms: the power so far p = z^(2k+1). -/
def atanhTerms (n2 d2 : Nat) : Nat → Nat → Nat × Nat → Nat × Nat → Nat × Nat
  | 0, _, _, acc => (acc.1, acc.2 + 2)
  | fuel + 1, k, p, acc =>
    let acc' := (acc.1 + p.1 / k, acc.2 + p.2 / k + 1)
    atanhTerms n2 d2 fuel (k + 2) (p.1 * n2 / d2, p.2 * n2 / d2 + 1) acc'

/-- Bounds of 2 * atanh(n / d) in fixed point, for n / d at most 1/3. -/
def twoAtanh (n d : Nat) : Nat × Nat :=
  let z := (n * 2 ^ fxBits / d, n * 2 ^ fxBits / d + 1)
  let r := atanhTerms (n * n) (d * d) 170 1 z (0, 0)
  (2 * r.1, 2 * r.2)

/-- ln of m * 2^e, correctly rounded: the exponent's share and the mantissa's share bracketed together. -/
def logPos (m : Nat) (e : Int) : Num :=
  let l := Nat.log2 m
  let k := (l : Int) + e
  let ln2 := twoAtanh 1 3
  let lm := twoAtanh (m - 2 ^ l) (m + 2 ^ l)
  let lo : Int := (if 0 ≤ k then k * ln2.1 else k * ln2.2) + lm.1
  let hi : Int := (if 0 ≤ k then k * ln2.2 else k * ln2.1) + lm.2
  if m == 2 ^ l && k == 0 then Num.zero
  else if 0 ≤ lo then roundBounds false (lo.toNat, 2 ^ fxBits) (hi.toNat, 2 ^ fxBits)
  else roundBounds true (lo.natAbs, 2 ^ fxBits) (hi.natAbs, 2 ^ fxBits)

/-- ln A (R273, R274). -/
def flog : Num → Num
  | .nan => .nan
  | .inf s => if s then .nan else .inf false
  | .fin s m e => if m == 0 then .inf true else if s then .nan else logPos m e

/-- 1 / (1 + e^-A) (R273, R274). -/
def fsigmoid : Num → Num
  | .nan => .nan
  | .inf s => if s then Num.zero else Num.one
  | .fin s m e =>
    if above m e 8 then (if s then Num.zero else Num.one)
    else
      let b := expBoundsS s m e
      let one := 2 ^ fxBits
      roundBounds false (b.1, one + b.1) (b.2, one + b.2)

/-- tanh A (R273, R274): (e^2A - 1) / (e^2A + 1), and A itself below 2^-60, where tanh A and A round alike. -/
def ftanh : Num → Num
  | .nan => .nan
  | .inf s => .fin s 1 0
  | .fin s m e =>
    if !above m e (-60) then rnd32 (.fin s m e)
    else if above m e 7 then .fin s 1 0
    else
      let b := expBounds m (e + 1)
      let one := 2 ^ fxBits
      roundBounds s (b.1 - one, b.1 + one) (b.2 - one, b.2 + one)

/-- 1.702 * A, formed exactly and rounded once (R273). -/
def mul1702 : Num → Num
  | .fin s m e => if m == 0 then .fin s 0 0 else roundRatio32 s (1702 * m) 1000 e
  | a => a

/-- A * SIGMOID(1.702 * A), three roundings (R273). -/
def fgelu (a : Num) : Num := fmul a (fsigmoid (mul1702 a))

/-! ### Sums in an accumulator -/

/-- The exact sum of a list. -/
def sumExact (xs : List Num) : Num := xs.foldl Num.add (.fin true 0 0)

/-- One step of an FP32 accumulator: the terms and the accumulator summed exactly, then rounded once (R177). -/
def accStep (acc : Num) (terms : List Num) : Num := rnd32 (terms.foldl Num.add acc)

/-- An FP32 accumulator over terms taken `p` at a time, from +0 (R177, R178). -/
def accumulate (p : Nat) (terms : List Num) : Num := (chunks p terms).foldl accStep Num.zero

/-- The integer a finite value holds, toward zero. -/
def toIntExact : Num → Int
  | .fin s m e =>
    let v : Int := if 0 ≤ e then (m : Int) * 2 ^ e.toNat else ((m / 2 ^ (-e).toNat : Nat) : Int)
    if s then -v else v
  | _ => 0

/-- Saturation to the INT32 range (R235), with a mark where it acted. -/
def sat32 (i : Int) : Int × Bool :=
  if 2 ^ 31 - 1 < i then (2 ^ 31 - 1, true) else if i < -2 ^ 31 then (-2 ^ 31, true) else (i, false)

/-- An INT32 accumulator over integer terms taken `p` at a time: exact sum of a step, then saturation (R235). -/
def accumulateInt (p : Nat) (terms : List Int) : Int × Bool :=
  (chunks p terms).foldl (fun acc ts =>
    let r := sat32 (ts.foldl (· + ·) acc.1)
    (r.1, acc.2 || r.2)) (0, false)

end Sys2Proof.Machine
end

