-- ==== Sys2Proof/Machine/Od.lean ====
section
/-! DEFINITION. The table of the object dictionary: type, access code, default and range of every entry that a chapter
names (R451, R452, R470, R474 and the tables of R63, R113, R156, R202, R229, R259, R284, R315, R350, R392, R413, R449,
R498, R525, R542). A key is index * 256 + subindex. -/

namespace Sys2Proof.Machine

/-- Types of R452. -/
inductive OdType
  | u8
  | u16
  | u32
  | u64
  | i32
  | f32
  | bool
  | enum8
  | addr52
  | digest
  | string
  deriving DecidableEq, Repr

/-- Access codes of R8. -/
inductive OdAccess
  | ro
  | rw
  | rwc
  | wo
  | rwl
  deriving DecidableEq, Repr

/-- Type code of R452. -/
def OdType.code : OdType → Nat
  | .u8 => 1
  | .u16 => 2
  | .u32 => 3
  | .u64 => 4
  | .i32 => 5
  | .f32 => 6
  | .bool => 7
  | .enum8 => 8
  | .addr52 => 9
  | .digest => 10
  | .string => 11

/-- Value bytes (R452); a string takes up to 56. -/
def OdType.bytes : OdType → Nat
  | .u8 | .bool | .enum8 => 1
  | .u16 => 2
  | .u32 | .i32 | .f32 => 4
  | .u64 | .addr52 => 8
  | .digest => 16
  | .string => 56

/-- A run of entries of one index that share type, access, default and range. -/
structure OdRow where
  index : Nat
  first : Nat
  last : Nat
  ty : OdType
  acc : OdAccess
  dflt : Nat
  /-- Lowest value in range. -/
  lo : Nat
  /-- Highest value in range; the type bounds it too. -/
  hi : Nat
  deriving DecidableEq, Repr

/-- Largest value of 64 bits. -/
def top64 : Nat := 2 ^ 64 - 1

/-- A read-only run whose default is zero. -/
def roRow (i a b : Nat) (t : OdType) : OdRow := ⟨i, a, b, t, .ro, 0, 0, top64⟩

/-- Key of an entry. -/
def odKey (index sub : Nat) : Nat := index * 256 + sub

/-- The text "Bazhary" of OD 0x1000.02, byte 0 lowest. -/
def blockName : Nat := 0x79_72_61_68_7A_61_42

/-- Indices 0x1000 to 0x2101. -/
def odRowsA : List OdRow :=
  [⟨0x1000, 1, 1, .u32, .ro, 0x425A, 0, top64⟩, ⟨0x1000, 2, 2, .string, .ro, blockName, 0, top64⟩,
   roRow 0x1000 3 3 .u32, roRow 0x1000 4 4 .u16, ⟨0x1000, 5, 5, .u16, .ro, 1, 0, top64⟩,
   ⟨0x1000, 6, 6, .enum8, .ro, 2, 0, 2⟩, roRow 0x1000 7 7 .u64, roRow 0x1000 8 8 .digest, roRow 0x1000 9 9 .u32,
   roRow 0x1000 0x0B 0x0B .digest, roRow 0x1000 0x0C 0x0C .u32, roRow 0x1000 0x0D 0x0D .enum8,
   roRow 0x1000 0x10 0x14 .u64, roRow 0x1100 1 2 .u8, ⟨0x1100, 3, 3, .bool, .rw, 1, 0, 1⟩, roRow 0x1100 4 5 .u64,
   ⟨0x1F00, 1, 1, .u32, .wo, 0, 0, top64⟩, roRow 0x1F00 2 4 .u64, roRow 0x1F00 0x21 0x3F .u32,
   roRow 0x2000 1 3 .u64, ⟨0x2000, 4, 4, .enum8, .ro, 1, 1, 5⟩, ⟨0x2000, 5, 5, .u32, .wo, 0, 1, 2⟩,
   roRow 0x2000 6 6 .u32, roRow 0x2000 7 7 .u64, roRow 0x2000 8 8 .enum8, ⟨0x2000, 9, 9, .bool, .rwl, 0, 0, 1⟩,
   roRow 0x2000 0x0B 0x0B .u64, ⟨0x2100, 1, 1, .bool, .rw, 1, 0, 1⟩, ⟨0x2101, 1, 1, .enum8, .rw, 0, 0, 1⟩]

/-- Indices 0x2110 to 0x2401. -/
def odRowsB : List OdRow :=
  [roRow 0x2110 1 5 .u64, roRow 0x2111 1 7 .u64, ⟨0x2181, 1, 1, .enum8, .rw, 0, 0, 1⟩, roRow 0x2190 1 5 .u64,
   roRow 0x2191 1 7 .u64, ⟨0x2200, 1, 1, .addr52, .rwc, 0, 0, top64⟩, ⟨0x2200, 2, 2, .u32, .rwc, 1, 1, 262144⟩,
   ⟨0x2200, 3, 3, .addr52, .rwc, 0, 0, top64⟩, ⟨0x2200, 4, 4, .u32, .rwc, 1, 1, 65536⟩,
   ⟨0x2200, 5, 5, .addr52, .rwc, 0x0100_1000_0000, 0, top64⟩, ⟨0x2200, 6, 6, .u8, .rwc, 10, 6, 16⟩,
   ⟨0x2200, 7, 7, .addr52, .rwc, 0x0100_1001_0000, 0, top64⟩, ⟨0x2200, 8, 8, .u8, .rwc, 12, 6, 16⟩,
   ⟨0x2200, 9, 9, .u16, .rw, 0, 0, top64⟩, ⟨0x2201, 1, 1, .u32, .wo, 0, 0, top64⟩, roRow 0x2201 2 2 .u32,
   roRow 0x2201 3 7 .u64, roRow 0x2202 1 1 .u32, roRow 0x2202 2 2 .enum8,
   ⟨0x2202, 3, 3, .addr52, .rwc, 0x0100_1042_0000, 0, top64⟩, ⟨0x2202, 4, 4, .u8, .rwc, 12, 6, 16⟩,
   roRow 0x2202 5 5 .u32, ⟨0x2202, 6, 6, .u32, .rw, 0, 0, top64⟩, roRow 0x2202 7 7 .u64,
   ⟨0x2202, 8, 8, .u32, .wo, 0, 0, top64⟩, roRow 0x2202 9 9 .u32, roRow 0x2202 0x0A 0x0C .u64,
   roRow 0x2202 0x0D 0x0D .u32, ⟨0x2300, 1, 1, .addr52, .rwc, 0, 0, top64⟩, ⟨0x2300, 2, 2, .u32, .rwc, 1, 1, 65536⟩,
   ⟨0x2300, 3, 3, .addr52, .rwc, 0, 0, top64⟩, ⟨0x2300, 4, 4, .u32, .rwc, 0, 0, 16777216⟩] ++
  [⟨0x2300, 5, 5, .addr52, .rwc, 0, 0, top64⟩, ⟨0x2300, 6, 6, .u16, .rwc, 0, 0, 256⟩,
   ⟨0x2300, 8, 8, .addr52, .rwc, 0x0100_0000_0000, 0, top64⟩, ⟨0x2300, 9, 9, .u64, .rwc, 1048576, 1, 2 ^ 40 - 1⟩,
   ⟨0x2301, 1, 1, .u8, .rwc, 0, 0, 12⟩, roRow 0x2301 2 4 .u32, roRow 0x2302 1 4 .u64, roRow 0x2303 1 7 .u64,
   ⟨0x2303, 8, 8, .u32, .rw, 0, 0, top64⟩, roRow 0x2400 1 5 .u64, ⟨0x2401, 1, 1, .bool, .rw, 1, 0, 1⟩,
   ⟨0x2401, 2, 2, .f32, .rw, 0x4000_0000, 0, top64⟩, ⟨0x2401, 3, 3, .f32, .rw, 0x38D1_B717, 0, top64⟩,
   ⟨0x2401, 4, 4, .u32, .rw, 65536, 0, top64⟩, roRow 0x2401 5 5 .u32]

/-- Indices 0x2500 to 0x261F. -/
def odRowsC : List OdRow :=
  [⟨0x2500, 1, 1, .addr52, .ro, 0x0100_0000_0000, 0, top64⟩, ⟨0x2500, 2, 2, .u8, .ro, 8, 0, top64⟩,
   ⟨0x2500, 3, 3, .addr52, .ro, 0x0200_0000_0000, 0, top64⟩, ⟨0x2500, 4, 4, .u8, .ro, 24, 0, top64⟩,
   ⟨0x2500, 5, 5, .u32, .rw, 14000, 1000, 14000⟩, ⟨0x2500, 6, 6, .u32, .rw, 3280, 100, 3280⟩,
   ⟨0x2501, 1, 1, .u8, .rwc, 85, 0, top64⟩, ⟨0x2501, 2, 2, .u8, .rwc, 95, 0, top64⟩,
   ⟨0x2501, 3, 3, .u8, .rwc, 105, 0, top64⟩, ⟨0x2501, 4, 4, .u8, .rwc, 3, 0, top64⟩, roRow 0x2502 1 8 .u8,
   roRow 0x2502 0x11 0x18 .enum8, ⟨0x2503, 1, 1, .addr52, .rwc, 0x0100_0000_0000, 0, top64⟩,
   ⟨0x2503, 2, 2, .u32, .rwc, 1048576, 0, top64⟩, ⟨0x2503, 3, 3, .addr52, .rwc, 0x0100_1002_0000, 0, top64⟩] ++
  ((List.range 15).flatMap (fun w =>
    [(⟨0x2503, 3 * w + 4, 3 * w + 4, .addr52, .rwc, 0, 0, top64⟩ : OdRow),
     ⟨0x2503, 3 * w + 5, 3 * w + 5, .u32, .rwc, 0, 0, top64⟩,
     ⟨0x2503, 3 * w + 6, 3 * w + 6, .addr52, .rwc, 0, 0, top64⟩])) ++
  [roRow 0x2504 1 0x0F .u64, roRow 0x2505 1 8 .u8, roRow 0x2505 0x11 0x18 .u32, roRow 0x2505 0x21 0x21 .u32,
   roRow 0x2506 1 6 .u64, ⟨0x2600, 1, 1, .addr52, .rwc, 0, 0, top64⟩, ⟨0x2600, 2, 2, .u32, .rwc, 0, 0, 65536⟩,
   ⟨0x2600, 3, 4, .u32, .ro, 6144, 0, top64⟩, roRow 0x2600 5 6 .u32, ⟨0x2602, 1, 1, .u32, .rw, 512, 64, 768⟩,
   roRow 0x2602 2 6 .u64, roRow 0x2603 1 7 .u64, roRow 0x2604 1 0x80 .u64] ++
  ((List.range 16).map (fun k => (⟨0x2610 + k, 0, 255, .u64, .rw, 0, 0, top64⟩ : OdRow)))

/-- Indices 0x2700 to 0x2903. -/
def odRowsD : List OdRow :=
  [⟨0x2700, 1, 1, .u8, .rwl, 0, 0, 63⟩, ⟨0x2700, 2, 2, .u32, .rw, 0xFFFF_FFFF, 0, top64⟩,
   ⟨0x2700, 3, 3, .bool, .rw, 1, 0, 1⟩, roRow 0x2700 4 4 .u32, ⟨0x2700, 5, 5, .u32, .rw, 1000000, 0, top64⟩,
   ⟨0x2701, 1, 0x20, .enum8, .ro, 1, 0, top64⟩, ⟨0x2701, 0x21, 0x40, .u8, .ro, 0xFF, 0, top64⟩,
   ⟨0x2702, 1, 1, .bool, .rw, 0, 0, 1⟩, roRow 0x2702 2 2 .digest, roRow 0x2702 3 4 .u64,
   ⟨0x2702, 0x10, 0x1F, .u64, .rwc, 0, 0, top64⟩, roRow 0x2703 1 2 .u64, roRow 0x2703 3 3 .u8, roRow 0x2703 4 4 .i32,
   roRow 0x2704 1 0x0B .u64, ⟨0x2800, 1, 1, .addr52, .rwc, 0x0100_1044_0000, 0, top64⟩,
   ⟨0x2800, 2, 2, .u8, .rwc, 12, 6, 16⟩, roRow 0x2800 3 3 .u32, ⟨0x2800, 4, 4, .u32, .rw, 0, 0, top64⟩,
   roRow 0x2800 5 5 .u64, ⟨0x2800, 6, 6, .addr52, .rw, 0, 0, top64⟩, ⟨0x2800, 7, 7, .u32, .rw, 0, 0, top64⟩,
   roRow 0x2801 1 1 .u32, ⟨0x2801, 2, 2, .u32, .rw, 1000, 0, top64⟩, ⟨0x2801, 3, 3, .u32, .wo, 0, 0, top64⟩] ++
  [roRow 0x2801 4 4 .u32, roRow 0x2801 5 7 .u64, ⟨0x2802, 1, 1, .u32, .wo, 0, 0, top64⟩, roRow 0x2802 2 3 .u32,
   roRow 0x2802 4 4 .u8, roRow 0x2802 6 7 .u32, roRow 0x2802 8 8 .u8, roRow 0x2802 9 9 .bool,
   roRow 0x2802 0x10 0x14 .u64, roRow 0x2803 1 1 .enum8, ⟨0x2803, 2, 2, .u64, .ro, 1, 0, top64⟩,
   roRow 0x2803 3 4 .u64, ⟨0x2804, 1, 1, .bool, .rw, 0, 0, 1⟩, ⟨0x2804, 2, 2, .u32, .wo, 0, 0, top64⟩,
   roRow 0x2804 3 3 .u64, roRow 0x2810 0 0x3F .u64, roRow 0x2900 1 2 .u32, ⟨0x2900, 3, 3, .u32, .ro, 256, 0, top64⟩,
   ⟨0x2900, 4, 4, .u32, .rw, 20, 1, 10000⟩, roRow 0x2900 5 7 .u64, ⟨0x2901, 1, 1, .u32, .ro, 750, 0, top64⟩,
   ⟨0x2901, 2, 3, .u32, .ro, 1600, 0, top64⟩, roRow 0x2901 4 4 .u32, roRow 0x2902 1 0x12 .u8,
   roRow 0x2902 0x21 0x22 .enum8, ⟨0x2903, 1, 1, .u8, .rwc, 95, 0, top64⟩, ⟨0x2903, 2, 2, .u8, .rwc, 100, 0, top64⟩,
   ⟨0x2903, 3, 3, .u8, .rwc, 105, 0, top64⟩, ⟨0x2903, 4, 4, .u8, .rwc, 3, 0, top64⟩]

/-- Every entry of the dictionary. -/
def odRows : List OdRow := odRowsA ++ odRowsB ++ odRowsC ++ odRowsD

/-- The row of an entry; none for an address that no chapter names (R451). -/
def odFind (key : Nat) : Option OdRow :=
  odRows.find? (fun r => r.index == key / 256 && r.first ≤ key % 256 && key % 256 ≤ r.last)

/-- A BitVec-free reading of F32: neither NaN nor infinity (R452). -/
def f32Finite (w : Nat) : Bool := bits w 30 23 != 255

/-- R453, type part: upper bytes zero and the rules of R452. -/
def odTypeOk (t : OdType) (v : Nat) : Bool :=
  match t with
  | .bool => v ≤ 1
  | .addr52 => v < 2 ^ 52
  | .f32 => v < 2 ^ 32 && f32Finite v
  | .digest | .string => false
  | t => v < 2 ^ (8 * t.bytes)

/-- Alignment that an entry's meaning gives: T0's shard base (R63), the event interrupt address (R525). -/
def odAlignOk (key v : Nat) : Bool :=
  if key == odKey 0x2300 8 then aligned v 4096
  else if key == odKey 0x2800 6 then aligned v 4
  else true

/-- Default of the fast-tier share and of what else differs with the configuration (R350, R470): 0 K4-S, 1 K4-M,
2 K4-X. -/
def odDefaultIn (config key : Nat) (r : OdRow) : Nat :=
  if key == odKey 0x2500 2 then (if config == 0 then 4 else 8)
  else if key == odKey 0x2500 4 then (if config == 2 then 24 else 0)
  else if key == odKey 0x2500 5 then (if config == 0 then 8000 else 14000)
  else if key == odKey 0x2500 6 then (if config == 2 then 3280 else 0)
  else r.dflt

/-- R453: v is in range for entry `key` in a configuration. -/
def odInRange (config key : Nat) (r : OdRow) (v : Nat) : Bool :=
  odTypeOk r.ty v && r.lo ≤ v && v ≤ r.hi && odAlignOk key v &&
    (if key == odKey 0x2500 5 then v ≤ odDefaultIn config key r
     else if key == odKey 0x2500 6 then config == 2 else true)

/-- The commit set of an RWC member; 0 for an entry of no set (R463, R498, R525, R542). -/
def odSet (key : Nat) : Nat :=
  match key / 256 with
  | 0x2300 => 1
  | 0x2301 => 2
  | 0x2200 => 3
  | 0x2501 => 4
  | 0x2503 => 5
  | 0x2600 => 6
  | 0x2702 => 7
  | 0x2202 => 8
  | 0x2800 => 9
  | 0x2903 => 10
  | _ => 0

/-- The wide entry of a wide slot (R455). -/
def wideKey (w : Nat) : Option Nat :=
  match w with
  | 0 => some (odKey 0x1000 2)
  | 1 => some (odKey 0x1000 8)
  | 2 => some (odKey 0x1000 0x0B)
  | 3 => some (odKey 0x2702 2)
  | _ => none

/-- The entries that a start-up from step 2 keeps (R545). -/
def odKept : List Nat :=
  [odKey 0x1000 0x0D, odKey 0x2000 6, odKey 0x2000 7, odKey 0x2000 8, odKey 0x2000 0x0B, odKey 0x2202 1,
   odKey 0x2202 2, odKey 0x2202 0x0A, odKey 0x2202 0x0B, odKey 0x2202 0x0C]

/-- Entries without a default that show what is outside the engine, which a reset does not change: the core rail and the
step rates last measured (R542; log 4). -/
def odOutside : List Nat := [odKey 0x2901 1, odKey 0x2901 2, odKey 0x2901 3]

/-- Federation-scoped entries in the order of R472. -/
def federationKeys : List Nat :=
  [odKey 0x1000 5, odKey 0x2300 2, odKey 0x2700 3] ++ (List.range 16).map (fun k => odKey 0x2702 (0x10 + k))

end Sys2Proof.Machine
end

