-- ==== Sys2Proof/Machine/State.lean ====
section
/-! DEFINITION. The state of the block as plain data: every register, ring, queue, buffer, counter and mode the spec
gives it (INVENTORY.md, "State", names the rule of each), and the queue of the commands that wait. Counters and
registers of the object dictionary are held in `Block.od`. -/

namespace Sys2Proof.Machine

/-- Memory of the fast tier, the bulk tier and the host (R318): addresses strictly rising, no entry that equals what an
unlisted address reads as, which is 0 (log 3). -/
abbrev Memory := List Host.Cell

/-- One write that a step performs in memory when it ends. -/
structure Store where
  addr : Nat
  data : Bytes
  deriving DecidableEq, Repr

/-! ### Queues (05_queues_commands.md, 16_startup_reset_reattach.md) -/

/-- States of a submission ring (R129). -/
inductive SqState
  | disabled
  | active
  | paused
  | draining
  | orphaned
  deriving DecidableEq, Repr

/-- A submission ring that has left DISABLED (R119 to R138, R486). -/
structure SubRing where
  number : Nat
  state : SqState
  /-- The engine's copy of the 512-bit descriptor (R120, R124). -/
  desc : Nat
  head : Nat
  tail : Nat
  /-- Expected phase of the next header (R137). -/
  phase : Bool
  /-- The host epoch the ring is bound to (R128, R486). -/
  epoch : Option Nat
  /-- Failed reads of the header at HEAD, and when the first of them was made (R152). -/
  tries : Nat
  readAt : Nat
  /-- TAIL values accepted and when, oldest first: the doorbell of each command not yet dispatched (R141). -/
  bells : List (Nat × Nat)
  deriving DecidableEq, Repr

/-- An enabled completion ring (R122 to R124, R127, R148 to R151, R486). -/
structure CompRing where
  number : Nat
  /-- The engine's copy of the 256-bit descriptor. -/
  desc : Nat
  wr : Nat
  phase : Bool
  /-- SW_HEAD as last read, and when a record last had it read (R150). -/
  swHead : Nat
  readAt : Nat
  /-- Records written since the last signal (R151). -/
  since : Nat
  /-- When the first record not yet signalled was written. -/
  firstAt : Option Nat
  epoch : Option Nat
  /-- Stale under R490 or R491. -/
  stale : Bool
  deriving DecidableEq, Repr

/-- A completion record that waits for room in its ring (R150). -/
structure WaitingRecord where
  cq : Nat
  sq : Nat
  status : Nat
  poison : Bool
  late : Bool
  detail : Nat
  tag : Nat
  /-- Epoch of the flow, for an orphan log entry (R492). -/
  epoch : Nat
  /-- It goes to the orphan log. -/
  logged : Bool
  deriving DecidableEq, Repr

/-! ### Flows (R352) -/

/-- A row of a remote shard that a flow asked a peer for, or a remote operation (R42, R432, R433). -/
structure RemoteRow where
  /-- MTYPE of the message sent (R427). -/
  kind : Nat
  peer : Nat
  table : Nat
  row : Nat
  txn : Nat
  answered : Bool
  /-- STATUS of the answer, once answered. -/
  status : Nat
  /-- The row, once answered, and before that the two bytes of the stride it must have; of a grant, its satchel. -/
  data : Bytes
  deriving DecidableEq, Repr

/-- A row copy that a flow fetched and may still hold as provisional (R163, R170, R172). -/
structure RowCopy where
  /-- Window of the position it serves first. -/
  window : Nat
  /-- Row index, or entry number for a desk. -/
  row : Nat
  /-- Its address; none for a remote row. -/
  addr : Option Nat
  /-- Peer and TXN of the request that fetches it (R168). -/
  asked : Option (Nat × Nat)
  data : Bytes
  poison : Bool
  /-- A position of it has been consumed: no longer provisional. -/
  used : Bool
  /-- Bytes of the run-ahead space it takes while provisional (R171); 0 for a row that was never fetched. -/
  room : Nat
  deriving DecidableEq, Repr

/-- Part of an output row as the vector engine gives it: the row, its first column, its values. -/
structure OutPiece where
  row : Nat
  col : Nat
  vals : List Num
  poison : Bool
  deriving DecidableEq, Repr

/-- One position of an index stream as taken in (R158, R159, R188). -/
structure Position where
  /-- The row it names; none for padding. -/
  row : Option Nat
  /-- Raw weight. -/
  weight : Nat
  /-- Its index lies in a poisoned block. -/
  badIndex : Bool
  /-- Its weight, or its gradient, is poisoned. -/
  badWeight : Bool
  deriving DecidableEq, Repr

/-- One bag of a GATHER_POOL: positions first to stop - 1 (R161, R162). -/
structure Bag where
  first : Nat
  stop : Nat
  ill : Bool
  deriving DecidableEq, Repr

/-- What a RECALL has found so far (R208, R214 to R219). -/
structure RecallWork where
  /-- Slots searched, in slot order, and how many of them have been given to passes. -/
  slots : List Nat
  given : Nat
  /-- NEXT and FULL as read at the start. -/
  next : Nat
  full : Bool
  /-- Entry read for an append, when it is sound. -/
  newKey : Bytes
  newValue : Bytes
  appendBad : Bool
  /-- Queries and their poison. -/
  queries : List (Bytes × Bool)
  /-- Kept entries by query, best first: score and slot. -/
  kept : List (List (Num × Nat))
  poisonedKeys : Nat
  nanScores : Nat
  admitted : Nat
  /-- 0 scan, 1 values, 2 results written, 3 append under way, 4 done. -/
  phase : Nat
  appended : Bool
  appendSlot : Nat
  deriving DecidableEq, Repr

/-- Sums and counts of a run of elements (R100, R101). -/
structure Tally where
  count : Nat
  sse : Num
  signal : Num
  amax : Num
  maxErr : Num
  nonfinite : Nat
  deriving DecidableEq, Repr

/-- The running result of a QUANTISE or CALIBRATE (R89, R100 to R102). -/
structure Measured where
  tally : Tally
  sat : Nat
  esc : Nat
  nanGroups : Nat
  fullRows : Nat
  poisonedRows : Nat
  deriving DecidableEq, Repr

/-- What a QUANTISE has read and measured so far: its calibration record as read at its start (R107), and its running
result. -/
structure QuantWork where
  cal : Bytes
  measured : Measured
  deriving DecidableEq, Repr

/-- How far a flow has come. -/
inductive Stage
  /-- Dispatched, and not begun by its stream unit (R130). -/
  | waiting
  /-- Begun. -/
  | running
  /-- Its tiles are built; the wing's engine works on them. -/
  | built
  /-- Its own work is issued; it completes once that work is performed (R398). -/
  | closing
  deriving DecidableEq, Repr

/-- A flow in flight: a command from its dispatch, or a generation of a stream from its start. -/
structure Flow where
  id : Nat
  /-- The stream of a generation. -/
  stream : Option Nat
  ring : Nat
  cq : Nat
  su : Nat
  /-- The 512-bit command entry, or the stream descriptor of a generation. -/
  entry : Nat
  /-- The inline entries (R136). -/
  inline : Bytes
  /-- Descriptor and shard-map lines as they stood at dispatch: address and bytes (R44, R46). -/
  copies : List Store
  /-- The CRC windows in force at its dispatch or its generation's start: DATA_BASE, BLOCKS, CRC_BASE (R339, R352, R467). -/
  windows : List (Nat × Nat × Nat)
  /-- Host epoch at dispatch (R485). -/
  epoch : Nat
  start : Nat
  deadline : Option Nat
  band : Nat
  stage : Stage
  /-- Statuses that apply so far; the record reports the one that R154 ranks highest. -/
  statuses : List Nat
  poisonSeen : Bool
  /-- Poisoned outputs, or operations not performed (R155). -/
  poisonCount : Nat
  /-- Rows that ran out of side-list room (R86). -/
  fullCount : Nat
  /-- Tallies of its conversions: saturations, escapes, NaN groups (R89, R103). -/
  sat : Nat
  esc : Nat
  nanGroups : Nat
  /-- DETAIL by status, where a rule gives one. -/
  details : NatMap
  /-- Generation number of an ARM, its DETAIL (R357). -/
  genNo : Option Nat
  /-- 4 KiB blocks of host memory whose writes were dropped (R487). -/
  blocksDropped : Nat
  /-- Cut off under R487. -/
  cut : Bool
  /-- Has a held access to host memory (R488). -/
  held : Bool
  /-- Its record goes to the orphan log: its ring has been orphaned, or its completion ring stale, since its dispatch
  (R492, R496). -/
  logged : Bool
  /-- Flows a FENCE waits for (R408), or earlier flows of the queue at dispatch (R139, R399). -/
  snapshot : List Nat
  /-- Arrived at its bell (R386). -/
  arrived : Bool
  /-- When it began, arrived or started to wait, for its timeout. -/
  since : Nat
  /-- Local satchel queue it produces into, and the one it consumes (R370, R379). -/
  intoQ : Option Nat
  fromQ : Option Nat
  /-- Row copies fetched (R170). -/
  rows : List RowCopy
  /-- Rows asked of peers. -/
  remote : List RemoteRow
  /-- Passes and blocks given to the wing's engine, tiles that the vector engine has finished, and tiles delivered. -/
  formed : Nat
  tilesFormed : Nat
  tilesDone : Nat
  /-- Positions taken in, how many of them have their rows, and the bags. -/
  positions : List Position
  taken : Nat
  bags : List Bag
  /-- Parts of output rows finished. -/
  out : List OutPiece
  /-- Operand lines of its chain program that it reads once: address, bytes, poison (R270). -/
  scalars : List (Nat × Bytes × Bool)
  /-- Activation rows of the row group that a PROJECT in row-outer order is giving (R246). -/
  acts : List (Bytes × Bool)
  /-- The read at which its last step waits: address and length (R383). -/
  waitsOn : Option (Nat × Nat)
  search : Option RecallWork
  quant : Option QuantWork
  deriving DecidableEq, Repr

/-! ### Channel agents and memory (11_memory_tiers_cache.md, 10_training_updates.md) -/

/-- A row operation's target: the row's address and shape fields as the descriptor copy gives them. -/
structure RowTarget where
  addr : Nat
  stride : Nat
  /-- The 512-bit table descriptor. -/
  desc : Nat
  deriving DecidableEq, Repr

/-- A wire row, or one segment of it: elements elem0 to elem0 + n - 1 as a PACKED run of a format (R291, R434). -/
structure Wire where
  fmt : Nat
  elem0 : Nat
  n : Nat
  data : Bytes
  deriving DecidableEq, Repr

/-- The parameters of an optimiser step, as F32 bits (R300, R433). -/
structure OptParams where
  opt : Nat
  lr : Nat
  beta1 : Nat
  beta2 : Nat
  eps : Nat
  wd : Nat
  c2 : Nat
  deriving DecidableEq, Repr

/-- The operations of a channel agent that change memory (R325). -/
inductive AgentOp
  /-- A block write; a CRC word follows at `crc` once the data is performed (R340). -/
  | blockWrite (addr : Nat) (data : Bytes) (crc : Option (Nat × Nat))
  /-- A run of CRC words (R340). -/
  | crcWrite (addr : Nat) (data : Bytes)
  /-- A line sent back by its home half, with its poison mark (R332, R337). -/
  | writeBack (addr : Nat) (data : Bytes) (poison : Bool)
  /-- ADD of one wire row or segment (R292, R293). -/
  | add (row : RowTarget) (wire : Wire)
  /-- UPDATE: optimiser step (R302). -/
  | update (row : RowTarget) (opt : OptParams) (wire : Wire)
  /-- COMMIT of one row: the command entry, the source row and its poison (R310, R311). -/
  | commit (row : RowTarget) (entry : Nat) (data : Bytes) (poison : Bool)
  /-- APPEND of a key and a value to the desk whose descriptor lies at an address (R52, R225). Key and value go through
  their own agents first: `sent` says that they are on their way (R325, R326). -/
  | append (desc : Nat) (key : Bytes) (value : Bytes) (sent : Bool)
  /-- RECORD: a calibration record (R107) or a drift mark on it (R109). -/
  | record (addr : Nat) (data : Bytes) (mark : Bool)
  deriving DecidableEq, Repr

/-- The remote message that a row operation performs, for its RACK (R433, R434). -/
structure RemoteOp where
  /-- Port it came by, its sender and TXN. -/
  port : Nat
  peer : Nat
  txn : Nat
  table : Nat
  row : Nat
  elem0 : Nat
  deriving DecidableEq, Repr

/-- What the engine does once a write of its own has been performed (R398, R493, R523). -/
inductive After
  /-- An interrupt, for records that lie in `len` bytes from `ring`. -/
  | interrupt (ring : Nat) (len : Nat) (addr : Nat) (data : Bytes)
  /-- The write index of the event ring follows its records. -/
  | eventIndex
  /-- The write index of the orphan log follows its entries. -/
  | orphanIndex
  deriving DecidableEq, Repr

/-- A request that waits at a channel agent, or at the host link (R325 to R327, R488). The first 256 of an agent are in its
queue; what stands behind them waits at its senders (R327). -/
structure AgentReq where
  port : Nat
  /-- The flow it belongs to; none for write-backs, events and remote requests. -/
  flow : Option Nat
  op : AgentOp
  remote : Option RemoteOp
  after : List After := []
  deriving DecidableEq, Repr

/-- Channel agents and what they keep beyond memory itself. -/
structure Agents where
  queue : List AgentReq
  /-- Bytes moved in the present share window: keys 0 to 7 stacks, 8 to 31 bulk channels (R324). An access longer than a
  window leaves the rest to the windows that follow (log 8). -/
  moved : NatMap
  /-- The same as the present step began: its accesses are held by what earlier steps moved. -/
  began : NatMap
  /-- Flows that wait with an access at the limit of a share key, the longest wait first: share key and flow (R324,
  R378). -/
  shareWaits : List (Nat × Nat)
  /-- The share key at which the present step's access is held. Clear between steps. -/
  heldAt : Option Nat
  /-- The range of the read at which the present step is held. Clear between steps. -/
  heldRange : Option (Nat × Nat)
  /-- The row-commit lock table: agent and row address of each entry held (R15, R311). -/
  locks : List (Nat × Nat)
  /-- Stacks under an ordered retrain: since when requests are held, or none once the hold has run out (R349). -/
  retrains : List (Nat × Option Nat)
  /-- 256-byte or 512-byte units stored as poisoned (R337, R547), by first address. -/
  poisoned : List Nat
  /-- Units that the memory has reported uncorrectable and that were never stored as poisoned: whether a read meets the
  error again is the memory's (R547). -/
  failing : List Nat
  /-- Bytes and poison of the last read that an agent answered (R325). -/
  answer : Bytes
  answerPoison : Bool
  deriving DecidableEq, Repr

/-- A row-cache line (R328 to R336). `way` runs from 0 to 15, `set` from 0 to 16,383. -/
structure Line where
  south : Bool
  set : Nat
  way : Nat
  addr : Nat
  data : Bytes
  dirty : Bool
  /-- Blackboard line (R56, R328). -/
  bb : Bool
  /-- Belongs to the loading epoch (R59). -/
  loading : Bool
  /-- Belongs to the current epoch (R59). -/
  current : Bool
  /-- Age: larger is newer (R331). -/
  age : Int
  /-- Error injected into its check bits: 0 none, 1 single bit, 2 double bit, 3 tag parity (R335, R336, R524). -/
  err : Nat
  /-- Table the line was loaded for, for a blackboard refetch (R58, R334): table and row. -/
  source : Option (Nat × Nat)
  /-- The flow that filled it under DISCARD_AFTER_LAST, and whether another flow has hit it since (R167). -/
  filler : Option Nat
  shared : Bool
  deriving DecidableEq, Repr

/-- The row cache. -/
structure Cache where
  lines : List Line
  /-- Model's own clock of the age order. -/
  clock : Int
  /-- The half dropped under R514: false North, true South. -/
  gone : Option Bool
  /-- A loading epoch is open (R59). -/
  loading : Bool
  /-- Lines whose fill waits for a write-back to be accepted (R332). -/
  waits : List Nat
  deriving DecidableEq, Repr

/-! ### Streams, satchels, bells (12_streams_timetable.md) -/

/-- A stream slot (R353, R358). -/
structure StreamSlot where
  number : Nat
  /-- Active, shadow and pending copies of the descriptor. -/
  active : Nat
  shadow : Nat
  pendingGen : Option Nat
  /-- The ARM that queued the pending copy. -/
  pendingArm : Nat
  counter : Nat
  /-- The flow of the current generation, and its ARM. -/
  gen : Option Nat
  arm : Nat
  /-- Bytes of the sequence issued so far (R360). -/
  pos : Nat
  /-- Waiting at its bell (R358, state RINGING). -/
  ringing : Bool
  /-- The generation has been stopped, or ends early: it ends once its issued transfers are performed (R355, R357). -/
  stopped : Bool
  /-- Rows of the satchel being filled or emptied, and their poison marks (R361, R363). -/
  part : Bytes
  partPoison : List Bool
  poisonRows : Nat
  deriving DecidableEq, Repr

/-- States of a satchel (R368). -/
inductive SatState
  | free
  | granted
  | arrived
  | held
  deriving DecidableEq, Repr

/-- A satchel with its tile (R367). -/
structure Satchel where
  state : SatState
  /-- The flow that produces or holds it; none for a producer on another package. -/
  holder : Option Nat
  /-- A remote producer: peer and its flow number (R256). -/
  remote : Option (Nat × Nat)
  /-- The flow that fills or filled it: its package, for one on another package, and its flow number (R367). -/
  producer : Option (Option Nat × Nat)
  /-- Order in which it was granted, and in which it arrived. -/
  order : Nat
  rows : Nat
  cols : Nat
  fmt : Nat
  pitch : Nat
  data : Bytes
  poison : List Bool
  /-- Rows in whose tile-store words an injected double-bit error waits (R501, R524). -/
  err : List Nat
  deriving DecidableEq, Repr

/-- A satchel queue (R364 to R374, R379). -/
structure SatQueue where
  number : Nat
  /-- The engine's copy of the 256-bit descriptor (R364). -/
  desc : Nat
  sats : List Satchel
  consumer : Option Nat
  /-- Flows that wait for their consumer turn (R370). -/
  turns : List Nat
  /-- Smoothed take interval, ns, and the last take (R379). -/
  interval : Nat
  lastTake : Option Nat
  /-- Grants or arrivals so far (model's own numbering). -/
  count : Nat
  deriving DecidableEq, Repr

/-- A tile on its way into a satchel queue (R369). -/
structure Tile where
  flow : Nat
  /-- Tile number within its flow, in production order. -/
  index : Nat
  rows : Nat
  cols : Nat
  fmt : Nat
  pitch : Nat
  data : Bytes
  poison : List Bool
  deriving DecidableEq, Repr

/-- A producer that waits for a grant, since when (R369, R376): a local flow with its tile; a producer on another
package, without one; or a local flow whose tile goes to a queue of another package (R256). -/
structure GrantClaim where
  queue : Nat
  /-- The finished tile, of a local producer. -/
  tile : Option Tile
  /-- The other package: peer, TXN and port of its request, and its flow number; for a tile that leaves, the peer. -/
  remote : Option (Nat × Nat × Nat × Nat)
  since : Nat
  deriving DecidableEq, Repr

/-- A bell with a round under way (R386). -/
structure Bell where
  number : Nat
  parties : Nat
  /-- Flows that have arrived. -/
  arrivals : List Nat
  deriving DecidableEq, Repr

/-- Streams, satchels and bells. -/
structure Streams where
  slots : List StreamSlot
  queues : List SatQueue
  claims : List GrantClaim
  bells : List Bell
  /-- Grants in a row to finite keys while a flow with key +∞ waited, by resource (R380): a wing's array 0 or 1, its
  vector engine 2 or 3, its quantiser 4 or 5, an address generator 16 + SU, the contexts of a stream unit 64 + SU, a
  satchel queue 2^16 + number, a stack or bulk channel held under R324 512 + its share key. -/
  finiteRow : NatMap
  /-- Flows found waiting at a resource when it last made a grant, the longest wait first: resource and flow (R380). -/
  waits : List (Nat × Nat)
  deriving DecidableEq, Repr

/-! ### Dictionary, faults, start-up, power -/

/-- The staging of a commit set (R464, R465). -/
structure Staging where
  set : Nat
  owner : Nat
  /-- Members written while STAGING: key and value. -/
  copy : List (Nat × Nat)
  committing : Bool
  deriving DecidableEq, Repr

/-- A message of several packets of which some have arrived (R458). -/
structure Assembly where
  /-- Endpoint that sends it, and its tag. -/
  source : Nat
  tag : Nat
  /-- Sequence number of its last packet. -/
  seq : Nat
  /-- Bytes of its first packet, which every packet but the last carries too. -/
  unit : Nat
  body : Bytes
  deriving DecidableEq, Repr

/-- The control engine's own state (15_object_dictionary.md). -/
structure Dict where
  staging : List Staging
  /-- Sequence counts of wide slots 0 to 3 (R455). -/
  wideSeq : NatMap
  /-- Frames for the bus owner to read on the management port, oldest first, each a packet and its check byte (R458, R459). -/
  mctpOut : List Bytes
  /-- Messages that the management port is assembling (R458). -/
  assembly : List Assembly
  deriving DecidableEq, Repr

/-- An armed injection (R524). -/
structure Injection where
  unit : Nat
  checker : Nat
  left : Nat
  deriving DecidableEq, Repr

/-- The fault collector and the prefect lease (17_faults.md). -/
structure Faults where
  /-- Open times of the records in OD 0x2810, by slot (R505, R507). -/
  opened : NatMap
  lastNo : Nat
  eventSeq : Nat
  /-- Slot of the next event record; OD 0x2800.03 follows once the records before it are performed (R523). -/
  eventNext : Nat
  /-- PHASE of the next event record (R519, R523). -/
  eventPhase : Bool
  bridgeFenced : Bool
  /-- Stream units in detention on their own account, not with their wing (R508, R511, R513). -/
  ownFence : List Nat
  injections : List Injection
  /-- Times of DOWN from UP, by port, within the last second (R501). -/
  flaps : List (Nat × Nat)
  /-- Last renewal the collector accepted, and last confirmation the follower saw (R515). -/
  renewed : Nat
  confirmed : Nat
  /-- Lease epochs that North and South hold. -/
  epochNorth : Nat
  epochSouth : Nat
  /-- The collector has seen the holder's lease lapse; a claim of the follower waits (R515). -/
  lapsed : Bool
  claim : Bool
  /-- Wings whose RESTORE has been accepted and whose tile store half is being zeroed: 0 North, 1 South (R514). -/
  returning : List Nat
  deriving DecidableEq, Repr

/-- Start-up progress and what the security block supplied (R477). -/
structure StartUp where
  /-- Highest step of R477 completed. -/
  step : Nat
  config : Option ConfigRecord
  identity : Nat
  siliconStep : Nat
  cacheReady : Bool
  trained : Bool
  /-- When the ports were enabled, for the 12 ms of step 9. -/
  portsAt : Nat
  /-- Step 9 has ended: a BEACON has set the counter, or the wait has run out. -/
  timebaseSet : Bool
  /-- When the present retrain of the host link began (R488, R490). -/
  retrainAt : Nat
  /-- Flow numbers below this one were dispatched before the last expired hold (R487). -/
  expiredBelow : Nat
  /-- Telemetry runs, from the end of start-up (R15, R477). -/
  telemetry : Bool
  deriving DecidableEq, Repr

/-- Messages from the engine to the power manager (R530). -/
inductive PowerMsg
  | request (south : Bool) (watts : Nat)
  | giveBack (south : Bool)
  | ack (seq : Nat)
  deriving DecidableEq, Repr

/-- The power interface of one wing (R529 to R533). -/
structure WingPower where
  /-- A grant that takes effect at the next window (R532). -/
  next : Option Nat
  /-- An unanswered REQUEST: watts and time. -/
  asked : Option (Nat × Nat)
  silent : Bool
  /-- Steps left in the present 1 µs window (R529, R538). -/
  steps : Nat
  /-- When its array last took a step (R531). -/
  lastStep : Nat
  /-- Its free-running rate as last measured, million steps per second (R535). -/
  rate : Nat
  deriving DecidableEq, Repr

/-- Power and heat. -/
structure Power where
  north : WingPower
  south : WingPower
  out : List PowerMsg
  /-- Sequence number of the manager message last applied (R530). -/
  seq : Option Nat
  /-- Thermal states of North's and South's own islands and of the shared ones: keys 0, 1, 2 (R538). -/
  heat : NatMap
  /-- When each island's sensor last gave a valid reading; failed sensors (R539). -/
  readAt : NatMap
  failed : List Nat
  deriving DecidableEq, Repr

/-! ### Arrays and vector engines (08_dense_array.md, 09_vector_engine.md) -/

/-- A pass of a wing's array, or a direct-feed block of its vector engine, with its operands at the feeders. -/
structure Pass where
  flow : Nat
  /-- Row group and column group; for scoring, 0 and the run of 512 keys. -/
  group : Nat
  col : Nat
  /-- Array steps still to take (R241, R529); 0 for a block of the direct feed. -/
  left : Nat
  /-- Row operands of PANEL mode, or input rows of a VEC_CHAIN: bytes and poison. -/
  a : List (Bytes × Bool)
  /-- Column operands of PANEL mode. -/
  b : List RowCopy
  deriving DecidableEq, Repr

/-- A tile that has left the array, on its way to the vector engine (R239, R265). -/
structure EngineTile where
  flow : Nat
  group : Nat
  col : Nat
  /-- Accumulators, row by row: FP32 or INT32 values (R234). -/
  cells : List (List Num)
  /-- Poison by row, and for scoring by key. -/
  poison : List Bool
  keyPoison : List Bool
  /-- Cells that saturated, counted at the drain (R235). -/
  sat : Nat
  deriving DecidableEq, Repr

/-- A weight slice in a panel slot (R247, R249, R401). -/
structure Slice where
  addr : Nat
  stride : Nat
  fmt : Nat
  k : Nat
  cols : List RowCopy
  /-- Commands in flight that use it, the one that fetched it first. -/
  users : List Nat
  /-- An acquire has covered it: no later command uses it (R401). -/
  stale : Bool
  deriving DecidableEq, Repr

/-- One wing's array, tile queue and vector engine. -/
structure WingEngine where
  /-- Passes whose operands are at the feeders, oldest first. -/
  ready : List Pass
  /-- The pass that has begun. -/
  current : Option Pass
  /-- Results in the cells' second accumulators, oldest first (R239). -/
  finished : List EngineTile
  /-- A run is under way (R240). -/
  running : Bool
  /-- The tile queue, oldest first (R265). -/
  tileQueue : List EngineTile
  /-- Blocks of the direct feed that are ready, oldest first. -/
  feed : List Pass
  /-- Panel slots, the least recently used first (R247). -/
  slots : List Slice
  /-- Program slots, the least recently used first (R267). -/
  programs : List Bytes
  deriving DecidableEq, Repr
/-! ### The Seryo fabric (14_seryo_fabric.md) -/

/-- A DATA flit that waits for a credit or for replay room (R422, R423). -/
structure TxFlit where
  pool : Nat
  som : Bool
  eom : Bool
  payload : Bytes
  deriving DecidableEq, Repr

/-- A codeword pair handed to the lanes: its frame word and its five flits (R418). -/
structure CodewordPair where
  frame : Nat
  flits : List Flit
  deriving DecidableEq, Repr

/-- A Seryo port; its state and neighbour are OD 0x2701 (R416 to R425). -/
structure Port where
  number : Nat
  /-- When it entered TRAINING. -/
  trainAt : Nat
  /-- A valid HELLO has come, and its own has been acknowledged (R425). -/
  helloOk : Bool
  acked : Bool
  /-- SEQ of the next DATA flit, and the flits no ACK_SEQ has covered (R422). -/
  txSeq : Nat
  replay : List (Nat × Flit)
  /-- Next SEQ expected; a NAK has been sent and not yet served (R422). -/
  rxSeq : Nat
  naking : Bool
  /-- EXPECT_SEQ of the last NAK received and how often in a row (R425). -/
  nakSeq : Nat
  nakRun : Nat
  /-- Last good flit, and last progress of ACK_SEQ. -/
  goodAt : Nat
  ackAt : Nat
  /-- Credits held by pool, and credits to return (R423). -/
  credits : List Nat
  owed : List Nat
  /-- Flits in the receive buffers: pool and flit, oldest first. -/
  rx : List (Nat × Flit)
  /-- DATA flits waiting to be sent, and the pool of a message begun and not ended, by VC, plus one. -/
  txq : List TxFlit
  openPool : NatMap
  /-- Flits of the codeword pair that is being formed, and the number of that pair (R418). -/
  lane : List Flit
  pairNo : Nat
  /-- Next SEQ expected as the last flit sent told it (R421). -/
  told : Nat
  /-- Codeword pairs handed to the lanes, oldest first; pairs of IDLE flits that tell nothing new are not listed (log 8). -/
  sent : List CodewordPair
  /-- Latest ECHO_REPLY: T1, T2, T3, T4 (R445). -/
  echo : Option (Nat × Nat × Nat × Nat)
  /-- Symbols corrected in the last pair received, and within the present 1 ms (R418, R448). -/
  symbols : Nat
  symbolSum : Nat
  symbolAt : Nat
  deriving DecidableEq, Repr

/-- A message sent that awaits its answer (R428, R429). -/
structure SentMsg where
  txn : Nat
  vc : Nat
  /-- Hash operand of R435 and R441. -/
  hash : Nat
  bytes : Bytes
  port : Nat
  /-- Transit package of a two-hop route. -/
  transit : Option Nat
  deriving DecidableEq, Repr

/-- A message performed at most once: the port its answer travels by, and its answer once sent (R428, R429). -/
structure Performed where
  txn : Nat
  port : Nat
  answer : Option Bytes
  deriving DecidableEq, Repr

/-- A present peer (R438 to R444). -/
structure Peer where
  number : Nat
  incarn : Nat
  ident : Nat
  neighbours : Nat
  ref : Nat
  refDist : Nat
  digest : Nat
  commitEpoch : Nat
  /-- TXN of the next message to it (R428). -/
  txn : Nat
  awaiting : List SentMsg
  /-- Messages that wait because 4,096 await an answer: vc, hash, bytes without TXN. -/
  backlog : List SentMsg
  /-- Routes of rows whose RADD has been sent to it: hash operand, port and transit (R435). -/
  rowRoutes : List (Nat × Nat × Option Nat)
  /-- Messages of it performed, oldest first (R428). -/
  performed : List Performed
  /-- When its last good message arrived (R447). -/
  heardAt : Nat
  deriving DecidableEq, Repr

/-- A tile that is arriving in parts (R437). -/
structure TileIn where
  peer : Nat
  queue : Nat
  satchel : Nat
  flow : Nat
  tileSeq : Nat
  tile : Tile
  /-- Offsets written, each with the TXN of its part. -/
  parts : List (Nat × Nat)
  /-- Bytes of the tile, once the part with LAST is known, and its TXN and port. -/
  total : Option Nat
  lastTxn : Nat
  port : Nat
  deriving DecidableEq, Repr

/-- The Seryo transaction engine. -/
structure Seryo where
  ports : List Port
  peers : List Peer
  tiles : List TileIn
  /-- Next TILE_SEQ to arrive, by peer * 2^64 + flow * 2^32 + queue. -/
  tileNext : NatMap
  /-- What the counter has still to take up of its last offset, and the part of a nanosecond it has run ahead, both in units
  of 10^-4 ns (R445). -/
  slew : Int
  frac : Nat
  deriving DecidableEq, Repr

/-- Everything but the queue of commands and memory. -/
structure Block where
  /-- The 64-bit nanosecond timebase (R1, R10). -/
  time : Nat
  /-- Values of dictionary entries that differ from their default. -/
  od : NatMap
  /-- Writes that land in memory when the present step ends. -/
  posted : List Store
  /-- Faults found by checkers in the present step, graded when it ends: class, unit, address, injected. -/
  raised : List (Nat × Nat × Nat × Bool)
  /-- A read of the present step meets a row operation that has not been performed, or a held access: the step's work
  waits (R326, R488). Clear between steps. -/
  blocked : Bool
  /-- Uses of free values so far (model's own; Config.free*). -/
  freeCount : Nat
  rings : List SubRing
  cqs : List CompRing
  /-- Rotation over stream units, and over the rings of each (R145). -/
  rotor : Nat
  turns : NatMap
  waiting : List WaitingRecord
  /-- Doorbell words of rings that have come back to DISABLED (R133). -/
  retired : NatMap
  /-- Queue control words and, with true, re-attach words that the front end has not carried out, oldest first (R488,
  R496). -/
  words : List (Bool × Nat)
  /-- Slot of the next orphan log entry; OD 0x2202.05 follows once the entries before it are performed (R493). -/
  orphanNext : Nat
  /-- Writes of RELEASE commands, held until every earlier command of their queue has completed (R399). -/
  heldBack : List AgentReq
  flows : List Flow
  nextFlow : Nat
  /-- Contexts of the stream units, the current one of each first: stream unit and flow (R383, R384). -/
  contexts : List (Nat × Nat)
  agents : Agents
  cache : Cache
  north : WingEngine
  south : WingEngine
  streams : Streams
  seryo : Seryo
  dict : Dict
  faults : Faults
  startUp : StartUp
  power : Power
  deriving DecidableEq, Repr

/-- One wing's power interface at reset; the rate is the reference corner of R9 (DESIGN CHOICE, log 4). -/
def WingPower.reset : WingPower :=
  { next := none, asked := none, silent := false, steps := 0, lastStep := 0, rate := 1600 }

/-- A wing's engine with nothing in it. -/
def WingEngine.empty : WingEngine :=
  { ready := [], current := none, finished := [], running := false, tileQueue := [], feed := [], slots := [],
    programs := [] }

/-- Everything but queue and memory right after core rail good: start-up step 2 entered, every entry at its default,
nothing enabled (R476, R477, log 6). -/
def Block.reset : Block :=
  { time := 0, od := [], posted := [], raised := [], blocked := false, freeCount := 0, rings := [], cqs := [],
    rotor := 0, turns := [], waiting := [], retired := [], words := [], orphanNext := 0, heldBack := [], flows := [],
    nextFlow := 0, contexts := [],
    agents := { queue := [], moved := [], began := [], shareWaits := [], heldAt := none, heldRange := none, locks := [],
                retrains := [], poisoned := [], failing := [], answer := [], answerPoison := false },
    cache := { lines := [], clock := 0, gone := none, loading := false, waits := [] },
    north := WingEngine.empty, south := WingEngine.empty,
    streams := { slots := [], queues := [], claims := [], bells := [], finiteRow := [], waits := [] },
    seryo := { ports := [], peers := [], tiles := [], tileNext := [], slew := 0, frac := 0 },
    dict := { staging := [], wideSeq := [], mctpOut := [], assembly := [] },
    faults := { opened := [], lastNo := 0, eventSeq := 0, eventNext := 0, eventPhase := true, bridgeFenced := false,
                ownFence := [], injections := [], flaps := [], renewed := 0, confirmed := 0, epochNorth := 0,
                epochSouth := 0, lapsed := false, claim := false, returning := [] },
    startUp := { step := 2, config := none, identity := 0, siliconStep := 0, cacheReady := false, trained := false,
                 portsAt := 0, timebaseSet := false, retrainAt := 0, expiredBelow := 0, telemetry := false },
    power := { north := WingPower.reset, south := WingPower.reset, out := [], seq := none, heat := [], readAt := [],
               failed := [] } }

/-- The state of the machine. -/
structure State where
  /-- The commands that wait, first in, first out. -/
  pending : List Instr
  mem : Memory
  blk : Block
  deriving DecidableEq, Repr

/-- The machine right after reset: no command waits, memory lists nothing (logs 3, 4, 6). -/
def State.reset : State := { pending := [], mem := [], blk := Block.reset }

/-- Why a step stops with a fault. -/
inductive Fault
  /-- ROW_READ, BLOCK_READ and ROW_FILL raise it for a range that ends beyond 2^52, an address that R318 says no unit
  of the block sees. Safe: the machine stops. -/
  | outsideAddressMap (addr : Nat)
  deriving DecidableEq, Repr

/-- Why a step is refused. -/
inductive Refusal
  /-- A command that has no meaning in this model yet; raised by the dispatch alone. Safe: the machine stops. -/
  | notModelled (mnemonic : String)
  deriving DecidableEq, Repr

end Sys2Proof.Machine
end

