-- ==== Sys2Proof/Machine/Ops.lean ====
section
/-! DEFINITION. The named operations that every meaning shares: memory, the dictionary's values, flows, the address map,
reads and writes of the tiers and of host memory, events. -/

namespace Sys2Proof.Machine

/-- What a meaning answers. -/
abbrev Out := Host.Outcome State Fault Refusal

/-! ### Memory -/

/-- The canonical form of memory. -/
abbrev Memory.wf (m : Memory) : Prop := m.Pairwise (fun a b => a.1 < b.1) ∧ ∀ c ∈ m, c.2 ≠ 0

/-- The byte at an address; an unlisted address reads 0 (log 3). -/
def memByte (m : Memory) (a : Nat) : Byte := ((m.find? (fun c => c.1 == a)).map (·.2)).getD 0

/-- `len` bytes from address a. -/
def memRead (m : Memory) (a len : Nat) : Bytes :=
  let w := m.filter (fun c => a ≤ c.1 && c.1 < a + len)
  (List.range len).map (fun i => memByte w (a + i))

/-- The listed cells of a run of bytes from address a. -/
def memCells (a : Nat) : Bytes → Memory
  | [] => []
  | b :: bs => if b == 0 then memCells (a + 1) bs else (a, b) :: memCells (a + 1) bs

/-- Memory with `data` written from address a. -/
def memWrite (m : Memory) (a : Nat) (data : Bytes) : Memory :=
  m.filter (fun c => c.1 < a) ++ memCells a data ++ m.filter (fun c => a + data.length ≤ c.1)

/-- Memory after the writes of a step, in order. -/
def land (m : Memory) (ws : List Store) : Memory := ws.foldl (fun m w => memWrite m w.addr w.data) m

/-! ### Dictionary values -/

namespace Block

/-- The default of an entry (R470). -/
def odDefault (b : Block) (key : Nat) : Nat :=
  match odFind key with
  | none => 0
  | some r =>
    if key == odKey 0x2703 3 then mapGet b.od 0 (odKey 0x2700 1)
    else odDefaultIn (mapGet b.od 2 (odKey 0x1000 6)) key r

/-- The value of entry (index, sub). -/
def od' (b : Block) (index sub : Nat) : Nat :=
  (mapFind b.od (odKey index sub)).getD (b.odDefault (odKey index sub))

/-- Entry (index, sub) at value v. -/
def setOd (b : Block) (index sub v : Nat) : Block :=
  { b with od := mapSet b.od (b.odDefault (odKey index sub)) (odKey index sub) v }

/-- A U64 counter moved on by n (R452). -/
def count (b : Block) (index sub n : Nat) : Block := b.setOd index sub (add64 (b.od' index sub) n)

/-- A U32 counter moved on by n. -/
def count32 (b : Block) (index sub n : Nat) : Block := b.setOd index sub ((b.od' index sub + n) % 2 ^ 32)

/-- The engine state of R476. -/
def engineState (b : Block) : Nat := b.od' 0x2000 4

/-- READY (R476). -/
def ready (b : Block) : Bool := b.engineState == 2

/-- Own package number. -/
def package (b : Block) : Nat := b.od' 0x2700 1

/-- Token holder: false North, true South (R515, OD 0x2803.01). -/
def holder (b : Block) : Bool := b.od' 0x2803 1 == 1

/-- A fresh number for a free value. -/
def fresh (b : Block) : Nat × Block := (b.freeCount, { b with freeCount := b.freeCount + 1 })

/-! ### Flows -/

/-- The flow with a number. -/
def flow? (b : Block) (id : Nat) : Option Flow := b.flows.find? (fun f => f.id == id)

/-- The flow of f.id replaced by f. -/
def putFlow (b : Block) (f : Flow) : Block := { b with flows := updFirst (fun g => g.id == f.id) (fun _ => f) b.flows }

/-- A flow changed in place. -/
def modFlow (b : Block) (id : Nat) (g : Flow → Flow) : Block :=
  { b with flows := updFirst (fun f => f.id == id) g b.flows }

/-- The flow no longer in flight. -/
def dropFlow (b : Block) (id : Nat) : Block := { b with flows := b.flows.filter (fun f => f.id != id) }

/-- A status raised for a flow (R154). -/
def raise (b : Block) (id status : Nat) : Block :=
  b.modFlow id (fun f => { f with statuses := f.statuses ++ [status] })

/-- A refused or ended flow: its status, and nothing of its own left to do. -/
def close (b : Block) (id : Nat) : Block := b.modFlow id (fun f => { f with stage := .closing })

/-- A flow that does no work: one status, then its completion (R155). -/
def refuse (b : Block) (id status : Nat) : Block := (b.raise id status).close id

/-- Poison seen by a flow: POISON_SEEN and the count of poisoned outputs (R148, R155). -/
def addPoison (b : Block) (id n : Nat) : Block :=
  b.modFlow id (fun f => { f with poisonSeen := true, poisonCount := f.poisonCount + n })

/-- POISON_SEEN alone. -/
def sawPoison (b : Block) (id : Nat) : Block := b.modFlow id (fun f => { f with poisonSeen := true })

end Block

/-! ### The address map (R318 to R321) -/

/-- In the fast-tier range. -/
def inFast (a : Nat) : Bool := Config.fastStart ≤ a && a < Config.fastStart + 8 * Config.stackBytes
/-- In the bulk-tier range. -/
def inBulk (a : Nat) : Bool := Config.bulkStart ≤ a && a < Config.bulkStart + 24 * Config.bulkBytes
/-- Host memory: every other address below 2^52. -/
def isHost (a : Nat) : Bool := a < 2 ^ 52 && !inFast a && !inBulk a
/-- In either tier. -/
def inTier (a : Nat) : Bool := inFast a || inBulk a

/-- Stack of a fast-tier address. -/
def stackOf (a : Nat) : Nat := (a - Config.fastStart) / Config.stackBytes
/-- Channel of a bulk-tier address. -/
def bulkOf (a : Nat) : Nat := (a - Config.bulkStart) / Config.bulkBytes

/-- Channel of 4 KiB unit u of a stack (R320). -/
def channelOf (u : Nat) : Nat := bits u 4 0 ^^^ bits u 9 5 ^^^ bits u 14 10 ^^^ bits u 19 15 ^^^ bits u 23 20

/-- The agent that owns an address, or the host link (R321). -/
def agentOf (a : Nat) : Nat :=
  if inFast a then
    32 * stackOf a + channelOf (((a - Config.fastStart) % Config.stackBytes) / 4096)
  else if inBulk a then 256 + bulkOf a
  else Config.hostPort

/-- Aligned unit of an address: 256 bytes in the fast tier, 512 in the bulk tier (R322). -/
def unitSize (a : Nat) : Nat := if inBulk a then 512 else 256

/-- First address of the unit of a. -/
def unitBase (a : Nat) : Nat := a / unitSize a * unitSize a

/-- The units that len bytes at a touch (R322). -/
def unitsOf (a len : Nat) : List Nat :=
  let u := unitSize a
  (span (a / u) ((a + len - 1) / u + 1)).map (· * u)

/-- Bytes of channel time of a read (R322). -/
def readCost (a len : Nat) : Nat := (unitsOf a len).length * unitSize a

/-- The unit lies wholly inside a write. -/
def coversUnit (a len u : Nat) : Bool := a ≤ u && u + unitSize u ≤ a + len

/-- Bytes of channel time of a write (R322). -/
def writeCost (a len : Nat) : Nat :=
  ((unitsOf a len).map (fun u => if coversUnit a len u then unitSize u else 2 * unitSize u)).sum

/-- Throttle factor of a stack's state in quarters (R344). -/
def throttleQuarters (state : Nat) : Nat := 4 - min 3 state

namespace Block

/-- Agent a is present and not in detention (R3, R508). -/
def agentUp (b : Block) (a : Nat) : Bool :=
  bit (b.od' 0x1000 (0x10 + a / 64)) (a % 64) && !bit (b.od' 0x2802 (0x10 + a / 64)) (a % 64)

/-- The address has no agent in service, or lies beyond the map (R319, R348, R508). -/
def absent (b : Block) (a : Nat) : Bool := if isHost a then false else !inTier a || !b.agentUp (agentOf a)

/-- Some unit of the range is absent. -/
def absentRange (b : Block) (a len : Nat) : Bool := (unitsOf a len).any (fun u => b.absent (max u a))

/-- The agents of the address hold its requests during an ordered retrain of the stack (R349). -/
def stackHeld (b : Block) (a : Nat) : Bool :=
  inFast a && b.agents.retrains.any (fun r => r.1 == stackOf a && r.2.isSome)

/-- The hold of an ordered retrain has run out, and the stack has not come back (R349). -/
def stackOut (b : Block) (a : Nat) : Bool :=
  inFast a && b.agents.retrains.any (fun r => r.1 == stackOf a && r.2.isNone)

/-- Share key of an address: stacks 0 to 7, bulk channels 8 to 31 (R324). -/
def shareKey (a : Nat) : Nat := if inFast a then stackOf a else 8 + bulkOf a

/-- Channel time charged to a stack or bulk channel (R322, R324); host traffic counts against no share (R323). -/
def charge (b : Block) (a cost : Nat) : Block :=
  if inTier a then
    { b with agents := { b.agents with
        moved := mapSet b.agents.moved 0 (shareKey a) (mapGet b.agents.moved 0 (shareKey a) + cost) } }
  else b

/-- A fault found by a checker, to be graded when the step ends (R500, R501). -/
def found (b : Block) (cls unit addr : Nat) (injected : Bool) : Block :=
  { b with raised := b.raised ++ [(cls, unit, addr, injected)] }

/-- An uncorrectable unit: counted, and reported as MEM_UE of its agent (R337). -/
def uncorrectable (b : Block) (u : Nat) : Block :=
  (b.count 0x2504 (if inFast u then 2 else 4) 1).found 1 (0x100 + agentOf u) u false

/-- The stored-poisoned units that a range touches. -/
def badUnits (b : Block) (a len : Nat) : List Nat := (unitsOf a len).filter (fun u => b.agents.poisoned.contains u)

/-- The units of a range that the memory reports uncorrectable now though they were never stored as poisoned (R547): each
is a free choice of the memory. -/
def reported (b : Block) (a len : Nat) : List Nat × Block :=
  let us := (unitsOf a len).filter (fun u => b.agents.failing.contains u)
  if us.isEmpty then ([], b)
  else
    let n := b.fresh
    (us.filter (fun u => Config.freeReported n.1 u), n.2)

/-- The address range a queued write covers; none for a row operation. -/
def writeSpan (op : AgentOp) : Option Store :=
  match op with
  | .blockWrite a d _ => some ⟨a, d⟩
  | .crcWrite a d => some ⟨a, d⟩
  | .writeBack a d _ => some ⟨a, d⟩
  | _ => none

/-- The address range of a queued row operation's row; none for a write. -/
def rowSpan (op : AgentOp) : Option (Nat × Nat) :=
  match op with
  | .add r _ => some (r.addr, r.stride)
  | .update r _ _ => some (r.addr, r.stride)
  | .commit r _ _ _ => some (r.addr, r.stride)
  | .record a d _ => some (a, d.length)
  | .append a _ _ _ => some (a, 32)
  | _ => none

/-- Two ranges share a unit. -/
def touches (a n c k : Nat) : Bool := unitBase a < c + k && unitBase c < a + n

/-- Memory as reads through the agents see it: with the writes they have accepted and not yet passed on (R326, R397). -/
def agentView (m : Memory) (b : Block) (a len : Nat) : Bytes :=
  let ws := (b.agents.queue.filterMap (fun r => if r.port == Config.hostPort then none else writeSpan r.op)).filter
    (fun w => w.addr < a + len && a < w.addr + w.data.length)
  if ws.isEmpty then memRead m a len else memRead (land m ws) a len

/-- A row operation waits at an agent for a unit of the range: a read behind it waits (R326). -/
def rowOpAhead (b : Block) (a len : Nat) : Bool :=
  b.agents.queue.any (fun r => match rowSpan r.op with | some (c, k) => touches a len c k | none => false) ||
    b.agents.locks.any (fun k => touches a len k.2 1)

/-- Bytes that a stack or bulk channel may move in a share window (R324, R344). -/
def shareBudget (b : Block) (key : Nat) : Nat :=
  if key < 8 then
    b.od' 0x2500 5 * 1000 * throttleQuarters (b.od' 0x2502 (0x11 + key)) / (4 * max 1 (b.od' 0x2500 2))
  else b.od' 0x2500 6 * 1000 / 24

/-- The share window has room for an access of the present step (R324): what earlier steps moved leaves room for it, or
they moved nothing. An absent range, or a stack that did not come back from its retrain, has no channel to share (R319,
R349). -/
def shareRoom (b : Block) (a cost : Nat) : Bool :=
  let moved := mapGet b.agents.began 0 (shareKey a)
  !inTier a || b.absent a || b.stackOut a || moved == 0 || moved + cost ≤ b.shareBudget (shareKey a)

/-- A step whose read of a range is held. -/
def hold (b : Block) (a len : Nat) : Block :=
  { b with blocked := true, agents := { b.agents with heldRange := some (a, len) } }

/-- A step whose access is held at the limit of a share key (R324). -/
def shareHeld (b : Block) (a len : Nat) : Block :=
  let h := b.hold a len
  { h with agents := { h.agents with heldAt := some (shareKey a) } }

/-- A read of a tier by its agent: data, poison, and what the read counts (R319, R322, R324, R326, R337, R547). A range
that touches an absent unit is counted once (log 7), and its bytes are free values. -/
def tierRead (m : Memory) (b : Block) (a len : Nat) : Bytes × Bool × Block :=
  if len == 0 then ([], false, b)
  else if b.rowOpAhead a len || b.stackHeld a then (zeros len, false, b.hold a len)
  else if b.absentRange a len || b.stackOut a then
    let n := b.fresh
    ((List.range len).map (fun i => if b.absent (a + i) || b.stackOut a then Config.freeAbsentByte n.1 i else memByte m (a + i)), true,
      n.2.count 0x2504 0x0C 1)
  else if !b.shareRoom a (readCost a len) then (zeros len, false, b.shareHeld a len)
  else
    let x := b.reported a len
    let bad := x.2.badUnits a len ++ x.1
    (agentView m b a len, !bad.isEmpty, (bad.foldl uncorrectable x.2).charge a (readCost a len))

/-- The host link is up with a host attached (R480, R488). -/
def hostUp (b : Block) : Bool := b.od' 0x2202 2 == 1 && b.od' 0x2202 1 != 0
/-- The host link holds accesses (R488). -/
def hostHolds (b : Block) : Bool := b.od' 0x2202 2 == 2 && b.od' 0x2202 1 != 0

/-- R487: a host-memory access of this flow is cut off when issued now. -/
def cutsOff (b : Block) (f : Flow) : Bool :=
  f.epoch != b.od' 0x2202 1 || b.od' 0x2202 1 == 0 || f.id < b.startUp.expiredBelow || b.od' 0x2202 2 == 3 ||
    b.od' 0x2202 2 == 0

/-- The flow is cut off: ORPHANED, and no further work (R487). -/
def cutFlow (b : Block) (id : Nat) : Block :=
  b.modFlow id (fun f => { f with cut := true, statuses := if f.cut then f.statuses else f.statuses ++ [0x0401] })

/-- The flow has a held access and waits (R488). -/
def holdFlow (b : Block) (id a len : Nat) : Block :=
  (b.modFlow id (fun f => { f with held := true })).hold a len

/-- A read for a flow, or for no flow in flight, from a tier or from host memory (R487, R488). No data reads as
zeros. -/
def readFor (m : Memory) (b : Block) (id a len : Nat) : Bytes × Bool × Block :=
  if isHost a then
    match b.flow? id with
    | none => if b.hostHolds then (zeros len, false, b.hold a len)
      else ((if b.hostUp then memRead m a len else zeros len), false, b)
    | some f =>
      if b.cutsOff f then (zeros len, false, b.cutFlow id)
      else if b.hostHolds then (zeros len, false, b.holdFlow id a len)
      else (memRead m a len, false, b)
  else tierRead m b a len

/-- A read by the front end or the control engine: host memory gives data only while the link is up (R488). -/
def readOwn (m : Memory) (b : Block) (a len : Nat) : Bytes × Bool × Block :=
  if isHost a then ((if b.hostUp then memRead m a len else zeros len), false, b) else tierRead m b a len

/-- Poison marks after a write: a unit covered whole is no longer poisoned, and no longer fails (R337, R547). -/
def clearPoison (b : Block) (a len : Nat) : Block :=
  { b with agents := { b.agents with
      poisoned := b.agents.poisoned.filter (fun u => !coversUnit a len u),
      failing := b.agents.failing.filter (fun u => !coversUnit a len u) } }

/-- A unit stored as poisoned (R337). -/
def storePoisoned (b : Block) (u : Nat) : Block :=
  { b with agents := { b.agents with
      poisoned := if b.agents.poisoned.contains u then b.agents.poisoned else b.agents.poisoned ++ [u],
      failing := b.agents.failing.filter (· != u) } }

/-- A write that lands when the step ends. -/
def post (b : Block) (a : Nat) (data : Bytes) : Block := { b with posted := b.posted ++ [⟨a, data⟩] }

/-- A write of a tier by its agent (R319, R322, R337). A range that touches an absent unit is dropped and counted once;
the merge read of a unit written in part meets its error, and the unit is stored as poisoned (R547). -/
def tierWrite (b : Block) (a : Nat) (data : Bytes) : Block :=
  if data.isEmpty then b
  else if b.absentRange a data.length || b.stackOut a then b.count 0x2504 0x0C 1
  else
    let x := b.reported a data.length
    let partly := (x.2.badUnits a data.length ++ x.1).filter (fun u => !coversUnit a data.length u)
    ((((partly.foldl (fun b u => (b.uncorrectable u).storePoisoned u) x.2).post a data).clearPoison a data.length)).charge a
      (writeCost a data.length)

/-! ### Senders (R326, R327, R399) -/

/-- Requests of a port, its agent's and those that wait at their senders, oldest first. -/
def atPort (b : Block) (port : Nat) : List AgentReq := b.agents.queue.filter (fun r => r.port == port)

/-- The agent holds all the requests it can (R327); the host link has its own bound (R488). -/
def portFull (b : Block) (port : Nat) : Bool := port != Config.hostPort && Config.agentQueueDepth ≤ (b.atPort port).length

/-- What of the host link's writes finds no room in a hold buffer of `room` bytes (R488). -/
def overflow : Nat → List AgentReq → List AgentReq
  | _, [] => []
  | room, r :: rs =>
    let n := ((writeSpan r.op).map (fun w => w.data.length)).getD 0
    if room < n then r :: rs else overflow (room - n) rs

/-- Requests for a port that wait at their senders: beyond the 256 of an agent, or beyond the 4 MiB of the host link's hold
buffer (R327, R488). -/
def beyondRoom (b : Block) (port : Nat) : List AgentReq :=
  if port == Config.hostPort then overflow Config.holdBytes (b.atPort port) else (b.atPort port).drop Config.agentQueueDepth

/-- A request of the flow is held at its sender, the flow itself with it (R22, R327, R488). -/
def senderHeld (b : Block) (id : Nat) : Bool :=
  (((b.agents.queue.filter (fun r => r.flow == some id)).map (·.port)).eraseDups).any (fun p =>
    (b.beyondRoom p).any (fun q => q.flow == some id))

/-- Commands of a queue in flight. -/
def inFlight (b : Block) (ring : Nat) : List Flow := b.flows.filter (fun f => f.stream.isNone && f.ring == ring)

/-- Earlier commands of a flow's queue that are in flight. -/
def earlier (b : Block) (f : Flow) : List Flow := (b.inFlight f.ring).filter (fun g => g.id < f.id)

/-- The command a flow belongs to: itself, or the ARM of a generation. -/
def commandOf (b : Block) (f : Flow) : Option Flow :=
  match f.stream with
  | none => some f
  | some n => (b.streams.slots.find? (fun s => s.number == n)).bind (fun s => b.flow? s.arm)

/-- The effects of a flow are held: its command, or the ARM of its generation, has RELEASE set, and an earlier command of
the queue has not completed (R357, R399). -/
def effectsHeld (b : Block) (f : Flow) : Bool :=
  match b.commandOf f with
  | none => false
  | some c => c.stream.isNone && bit c.entry 9 && !(b.earlier c).isEmpty

/-- The effects of the flow with a number are held. -/
def holdsBack (b : Block) (id : Nat) : Bool := ((b.flow? id).map b.effectsHeld).getD false

/-- Row operations of the five kinds that wait at a port (R315, R325). -/
def rowOpsAt (b : Block) (port : Nat) : Nat :=
  (b.agents.queue.filter (fun r => r.port == port && (rowSpan r.op).isSome)).length

/-- A request joins its agent's queue; OD 0x2303.08 keeps the most row operations that waited at one agent (R315). -/
def enqueue (b : Block) (r : AgentReq) : Block :=
  let b1 : Block := { b with agents := { b.agents with queue := b.agents.queue ++ [r] } }
  if (rowSpan r.op).isSome && r.port != Config.hostPort then b1.setOd 0x2303 8 (max (b1.od' 0x2303 8) (b1.rowOpsAt r.port))
  else b1

/-- A request put at the end of an agent's queue (R326), or held back with its flow's other effects (R399). -/
def request (b : Block) (r : AgentReq) : Block :=
  if (r.flow.map b.holdsBack).getD false then { b with heldBack := b.heldBack ++ [r] } else b.enqueue r

/-- Requests held back whose flow no longer holds its effects go to their agents, in order (R399). -/
def releaseBack (b : Block) : Block :=
  if b.heldBack.isEmpty then b
  else
    let held := fun (r : AgentReq) => (r.flow.map b.holdsBack).getD false
    (b.heldBack.filter (fun r => !held r)).foldl enqueue { b with heldBack := b.heldBack.filter held }

/-- Writes and row operations of a flow that are not performed yet. -/
def writesWait (b : Block) (id : Nat) : Bool :=
  b.agents.queue.any (fun r => r.flow == some id) || b.heldBack.any (fun r => r.flow == some id)

/-- A block write asked of the owner of its address (R325). -/
def requestWrite (b : Block) (id : Option Nat) (a : Nat) (data : Bytes) (crc : Option (Nat × Nat)) : Block :=
  b.request { port := agentOf a, flow := id, op := .blockWrite a data crc, remote := none }

/-- A write of the engine's own must wait at its agent: the agent's stack is held, its share window is full, or a request
for one of its units is there before it (R324, R326, R349). -/
def ownWaits (b : Block) (a len : Nat) : Bool :=
  b.stackHeld a || !b.shareRoom a (writeCost a len) ||
    (b.atPort (agentOf a)).any (fun r => match writeSpan r.op, rowSpan r.op with
      | some w, _ => touches a len w.addr w.data.length
      | none, some (c, k) => touches a len c k
      | none, none => false)

/-- One write by the engine for no flow, and whether it is performed, or dropped, at once; else it waits with what it
brings after it. To host memory it is held or dropped like any other (R488 to R490, R523). -/
def ownPut (b : Block) (a : Nat) (data : Bytes) (after : List After) : Block × Bool :=
  let wait : Block × Bool :=
    (b.request { port := agentOf a, flow := none, op := .blockWrite a data none, remote := none, after := after }, false)
  if isHost a then
    if b.hostUp then (b.post a data, true) else if b.hostHolds then wait else (b.count 0x2202 0x0A 1, true)
  else if b.ownWaits a data.length then wait
  else (b.tierWrite a data, true)

/-- A write of the engine's own to a ring of `len` bytes. -/
def ownInto (ring len : Nat) (r : AgentReq) : Bool :=
  match r.op with
  | .blockWrite a _ _ => r.flow.isNone && r.remote.isNone && ring ≤ a && a < ring + len
  | _ => false

/-- What follows attached to the last of the writes that are in a ring's range; none where there is none. -/
def attach (p : AgentReq → Bool) (x : After) : List AgentReq → Option (List AgentReq)
  | [] => none
  | r :: rs =>
    match attach p x rs with
    | some rs1 => some (r :: rs1)
    | none => if p r then some ({ r with after := x :: r.after } :: rs) else none

/-- An interrupt for the records of a ring: once none of them waits (R151, R398). -/
def interrupt (b : Block) (ring len a : Nat) (d : Bytes) : Block :=
  match attach (ownInto ring len) (.interrupt ring len a d) b.agents.queue with
  | some q => { b with agents := { b.agents with queue := q } }
  | none => (b.ownPut a d []).1

/-- Where the write index of a ring of 2^k entries stands while records wait: at the oldest of them, else at `next`. -/
def shownIndex (b : Block) (base entry k next : Nat) : Nat :=
  match (b.agents.queue.find? (ownInto base (entry * 2 ^ k))).bind (fun r => writeSpan r.op) with
  | some w => (w.addr - base) / entry
  | none => next

/-- Writes that a held request stands for: its own, and the interrupts to host memory that follow it. -/
def heldWrites (r : AgentReq) : Nat :=
  1 + (r.after.filter (fun x => match x with | .interrupt _ _ a _ => isHost a | _ => false)).length

/-- What follows a write of the engine's own that has been performed (R398, R493, R523). -/
def runAfter (b : Block) (x : After) : Block :=
  match x with
  | .interrupt ring len a d => b.interrupt ring len a d
  | .eventIndex => b.setOd 0x2800 3 (b.shownIndex (b.od' 0x2800 1) 64 (b.od' 0x2800 2) b.faults.eventNext)
  | .orphanIndex => b.setOd 0x2202 5 (b.shownIndex (b.od' 0x2202 3) 32 (b.od' 0x2202 4) b.orphanNext)

/-- A write by the engine for no flow: a record, an event, an interrupt; what follows it comes once it is performed. -/
def ownWrite (b : Block) (a : Nat) (data : Bytes) (after : List After) : Block :=
  let r := b.ownPut a data after
  if r.2 then after.foldl runAfter r.1 else r.1

/-! ### Events (R519, R523) -/

/-- The event ring has no room. Full is taken as the orphan log's rule gives it: write index = read index - 1 (log 14). -/
def eventFull (b : Block) : Bool :=
  let n := 2 ^ b.od' 0x2800 2
  (b.faults.eventNext + 1) % n == b.od' 0x2800 4 % n

/-- The 512-bit event record of R519. -/
def eventRecord (b : Block) (ty payload : Nat) : Nat :=
  pack [(0, ty), (8, b2n b.faults.eventPhase), (32, b.faults.eventSeq), (64, b.time), (256, payload)]

/-- What follows an event record once it is performed: the write index and, with an address in OD 0x2800.06, the interrupt
(R523). -/
def eventAfter (b : Block) : List After :=
  .eventIndex :: (if b.od' 0x2800 6 == 0 then []
    else [.interrupt (b.od' 0x2800 1) (64 * 2 ^ b.od' 0x2800 2) (b.od' 0x2800 6) (natLE 4 (b.od' 0x2800 7))])

/-- The event record written; the write index and the interrupt follow (R523). -/
def eventWritten (b : Block) (ty payload : Nat) : Block :=
  let n := 2 ^ b.od' 0x2800 2
  let wr := b.faults.eventNext % n
  let next := (wr + 1) % n
  let b1 : Block := { b with faults := { b.faults with
      eventNext := next, eventPhase := if next == 0 then !b.faults.eventPhase else b.faults.eventPhase } }
  b1.ownWrite (b.od' 0x2800 1 + 64 * wr) (natLE 64 (b.eventRecord ty payload)) b.eventAfter

/-- One event raised: SEQ counts it whether or not the ring takes it (R519, R523). -/
def event (b : Block) (ty payload : Nat) : Block :=
  let b1 := if b.eventFull then b.count 0x2800 5 1 else b.eventWritten ty payload
  { b1 with faults := { b1.faults with eventSeq := (b1.faults.eventSeq + 1) % 2 ^ 32 } }

/-! ### Injections (R524) -/

/-- One access of a unit's checker: whether it carries inverted bits, and the injection used up by one. -/
def injected (b : Block) (unit checker : Nat) : Bool × Block :=
  if b.faults.injections.any (fun i => i.unit == unit && i.checker == checker && 0 < i.left) then
    let is := updFirst (fun i => i.unit == unit && i.checker == checker && 0 < i.left)
      (fun i => { i with left := i.left - 1 }) b.faults.injections
    (true, { b with faults := { b.faults with injections := is.filter (fun i => 0 < i.left) } })
  else (false, b)

/-! ### Units (R503) and detention (R508) -/

/-- Wing number 0 or 1. -/
def wingNo (w : Wing) : Nat := match w with | .north => 0 | .south => 1

/-- Wing of a stream unit numbered 0 to 31. -/
def wingOf (su : Nat) : Wing := if su < 16 then .north else .south

/-- The stream unit is in detention (OD 0x2802.03). -/
def suFenced (b : Block) (su : Nat) : Bool := bit (b.od' 0x2802 3) su
/-- The wing is in detention (OD 0x2802.04). -/
def wingFenced (b : Block) (w : Wing) : Bool := bit (b.od' 0x2802 4) (wingNo w)
/-- The wing is enabled by the record (OD 0x1000.09). -/
def wingEnabled (b : Block) (w : Wing) : Bool := bit (b.od' 0x1000 9) (wingNo w)
/-- The wing is in service. -/
def wingUp (b : Block) (w : Wing) : Bool := b.wingEnabled w && !b.wingFenced w
/-- The stream unit is in service. -/
def suUp (b : Block) (su : Nat) : Bool := b.wingUp (wingOf su) && !b.suFenced su

/-- The wing's engine. -/
def engine (b : Block) (w : Wing) : WingEngine := match w with | .north => b.north | .south => b.south
/-- The wing's engine replaced. -/
def setEngine (b : Block) (w : Wing) (e : WingEngine) : Block :=
  match w with | .north => { b with north := e } | .south => { b with south := e }

/-! ### Queue positions -/

/-- The ring with a number, when it has left DISABLED. -/
def ring? (b : Block) (n : Nat) : Option SubRing := b.rings.find? (fun r => r.number == n)
/-- A ring put in place of the one with its number. -/
def putRing (b : Block) (r : SubRing) : Block :=
  { b with rings := b.rings.filter (fun q => q.number < r.number) ++ r :: b.rings.filter (fun q => r.number < q.number) }
/-- The ring back to DISABLED: its doorbell word still shows HEAD and TAIL (R133). -/
def dropRing (b : Block) (n : Nat) : Block :=
  match b.ring? n with
  | none => b
  | some r => { b with rings := b.rings.filter (fun q => q.number != n),
                       retired := mapSet b.retired 0 n (pack [(0, r.tail), (32, r.head)]) }
/-- The enabled completion ring with a number. -/
def cq? (b : Block) (n : Nat) : Option CompRing := b.cqs.find? (fun c => c.number == n)
/-- A completion ring put in place of the one with its number. -/
def putCq (b : Block) (c : CompRing) : Block :=
  { b with cqs := b.cqs.filter (fun q => q.number < c.number) ++ c :: b.cqs.filter (fun q => c.number < q.number) }

end Block

/-- Ring size of a submission descriptor (R120). -/
def SubRing.size (r : SubRing) : Nat := 2 ^ bits r.desc 12 8
/-- Ring base of a submission descriptor (R120). -/
def SubRing.base (r : SubRing) : Nat := bits r.desc 115 64
/-- Completion ring of a submission ring (R120). -/
def SubRing.cqNo (r : SubRing) : Nat := bits r.desc 63 48
/-- Ring size of a completion descriptor (R123). -/
def CompRing.size (c : CompRing) : Nat := 2 ^ bits c.desc 12 8
/-- Ring base of a completion descriptor (R123). -/
def CompRing.base (c : CompRing) : Nat := bits c.desc 115 64

/-- The step ends: its writes land in memory. -/
def landed (s : State) (b : Block) : State :=
  { s with mem := land s.mem b.posted,
           blk := { b with posted := [], agents := { b.agents with began := b.agents.moved, heldAt := none, heldRange := none } } }

/-- What a step that waits leaves behind: the state as it was, the fills that wait for a write-back, each counted once
(R332), and the flow's place among those that wait at the limit of a share key (R378). -/
def Block.waited (b c : Block) (id : Option Nat) : Block :=
  let n := c.cache.waits.filter (fun a => !b.cache.waits.contains a)
  let b1 : Block := if n.isEmpty then b
    else { b with cache := { b.cache with waits := b.cache.waits ++ n } }.count 0x2504 0x0B n.length
  match id with
  | none => b1
  | some i =>
    let ws := b1.agents.shareWaits.filter (fun w => w.2 != i || c.agents.heldAt == some w.1)
    let more := match c.agents.heldAt with
      | none => []
      | some k => if ws.contains (k, i) then [] else [(k, i)]
    { b1 with agents := { b1.agents with shareWaits := ws ++ more } }

end Sys2Proof.Machine
end

