-- ==== Sys2Proof/Machine/Cache.lean ====
section
/-! DEFINITION. The row cache and its blackboard (11_memory_tiers_cache.md R328 to R337, 02_tables_rows_desks.md R56 to
R61): home half and set, lookup with its error cases, fill and replacement, range operations. -/

namespace Sys2Proof.Machine

/-- Page number of an address (R329). -/
def pageOf (a : Nat) : Nat := bits a 51 12

/-- XOR of the bits of a number, `n` of them. -/
def parity : Nat → Nat → Bool
  | 0, _ => false
  | n + 1, w => xor (w.testBit n) (parity n w)

/-- Home half of a line's page: true for South (R329). -/
def homeSouth (a : Nat) : Bool := parity 40 (pageOf a)

/-- Set of a line (R329). -/
def setOf (a : Nat) : Nat :=
  let p := pageOf a
  (bits p 9 0 ^^^ bits p 19 10 ^^^ bits p 29 20 ^^^ bits p 39 30) * 16 + bits a 11 8

/-- Line address. -/
def lineAddr (a : Nat) : Nat := a / 256 * 256

/-- The lines that a range touches. -/
def linesOf (a len : Nat) : List Nat := (span (a / 256) ((a + len - 1) / 256 + 1)).map (· * 256)

/-- Key under which a line of a remote row is held in the blackboard; no address of the map names such a row
(log 15). -/
def remoteKey (table row : Nat) : Nat := 2 ^ 52 + (table * 2 ^ 40 + row) * 4096

/-- Same place in the cache. -/
def Line.same (x y : Line) : Bool := x.south == y.south && x.set == y.set && x.way == y.way

/-- Unit number of a line's way (R503). -/
def Line.unit (l : Line) : Nat := 0x400 + 16 * b2n l.south + l.way

namespace Block

/-- Blackboard ways (OD 0x2301.01). -/
def bbWays (b : Block) : Nat := b.od' 0x2301 1

/-- Half that holds a line now, with a half dropped under R514. -/
def half (b : Block) (a : Nat) : Bool :=
  match b.cache.gone with
  | some g => !g
  | none => homeSouth a

/-- A way is in service in its half (OD 0x2802.07). -/
def wayUp (b : Block) (south : Bool) (way : Nat) : Bool := !bit (b.od' 0x2802 7) (16 * b2n south + way)

/-- Ordinary ways in service of a half (R328, R546). -/
def ordinaryWays (b : Block) (south : Bool) : List Nat := (List.range (16 - b.bbWays)).filter (b.wayUp south)

/-- Blackboard ways in service of a half. -/
def boardWays (b : Block) (south : Bool) : List Nat := (span (16 - b.bbWays) 16).filter (b.wayUp south)

/-- The line held for an address. -/
def line? (b : Block) (a : Nat) : Option Line := b.cache.lines.find? (fun l => l.addr == lineAddr a)

/-- The cache's lines changed. -/
def setLines (b : Block) (ls : List Line) : Block := { b with cache := { b.cache with lines := ls } }

/-- OD 0x2301.03 counts the blackboard lines in use (R62). -/
def countBoard (b : Block) : Block := b.setOd 0x2301 3 (b.cache.lines.filter (·.bb)).length

/-- A line dropped; one of the blackboard is no longer in use (R62). -/
def dropLine (b : Block) (l : Line) : Block :=
  let b1 := b.setLines (b.cache.lines.filter (fun x => !x.same l))
  if l.bb then b1.countBoard else b1

/-- A line changed in place. -/
def putLine (b : Block) (l : Line) : Block := b.setLines (updFirst (fun x => x.same l) (fun _ => l) b.cache.lines)

/-- The age of a line made newest, and the clock moved on. -/
def newest (b : Block) : Int × Block :=
  (b.cache.clock + 1, { b with cache := { b.cache with clock := b.cache.clock + 1 } })

/-- What reading a dirty line finds: a single-bit error is corrected, a double-bit error loses its data and is a CACHE_UE
fault (R335). -/
def dirtyRead (b : Block) (l : Line) : Block :=
  if l.err == 2 then (b.count 0x2504 6 1).found 2 l.unit l.addr true
  else if l.err == 1 then b.count 0x2504 5 1
  else b

/-- A dirty line as it stays once written back: clean, its single-bit error corrected. -/
def Line.cleaned (l : Line) : Line := { l with dirty := false, err := if l.err == 1 then 0 else l.err }

/-- A dirty line sent back to its owner, with the poison marking where its data is lost (R332, R335); it is then clean. A
remote row's line is never dirty. -/
def sendBack (b : Block) (l : Line) : Block :=
  ((b.dirtyRead l).request
    { port := agentOf l.addr, flow := none, op := .writeBack l.addr l.data (l.err == 2), remote := none }).putLine (Line.cleaned l)

/-- A line leaves the cache, written back first when dirty. -/
def evict (b : Block) (l : Line) : Block := (if l.dirty then b.sendBack l else b).dropLine l

/-- R336: every way of the set whose tag parity fails is dropped; a dirty one is a CACHE_TAG fault. -/
def parityCheck (b : Block) (south : Bool) (set : Nat) : Block :=
  (b.cache.lines.filter (fun l => l.south == south && l.set == set && l.err == 3)).foldl (fun b l =>
    let b1 := (b.dropLine l).count 0x2504 7 1
    if l.dirty then b1.found 3 l.unit 0 true else b1) b

/-- The victim way of R331 among ordinary ways: an invalid one first, else the oldest. -/
def victim (b : Block) (south : Bool) (set : Nat) : Option (Nat × Option Line) :=
  let ways := b.ordinaryWays south
  let used := b.cache.lines.filter (fun l => l.south == south && l.set == set && !l.bb && ways.contains l.way)
  match ways.find? (fun w => used.all (fun l => l.way != w)) with
  | some w => some (w, none)
  | none => (used.foldl (fun (acc : Option Line) l =>
      match acc with
      | none => some l
      | some x => if l.age < x.age then some l else acc) none).map (fun l => (l.way, some l))

/-- A new line of an ordinary way. -/
def newLine (south : Bool) (set way a : Nat) (data : Bytes) (age : Int) : Line :=
  { south := south, set := set, way := way, addr := a, data := data, dirty := false, bb := false, loading := false,
    current := false, age := age, err := 0, source := none, filler := none, shared := false }

/-- Error that injections put into a line as it is written: 2 two check bits, 1 one check bit, 3 tag parity (R524). -/
def lineErr (b : Block) (l : Line) : Line × Block :=
  let d := b.injected l.unit 2
  if d.1 then ({ l with err := 2 }, d.2)
  else
    let c := d.2.injected l.unit 1
    if c.1 then ({ l with err := 1 }, c.2)
    else
      let t := c.2.injected l.unit 3
      ({ l with err := if t.1 then 3 else 0 }, t.2)

/-- R332: a fill of the line of a would take the way of a dirty line whose agent has no room for its write-back: the line
stays, and is hit, until the agent accepts it. -/
def fillWaits (b : Block) (a : Nat) : Bool :=
  match b.victim (b.half a) (setOf a) with
  | some (_, some l) => l.dirty && b.portFull (agentOf l.addr)
  | _ => false

/-- A step whose fill waits for a write-back. -/
def waitFill (b : Block) (a : Nat) : Block :=
  { b.hold (lineAddr a) 256 with cache := { b.cache with
      waits := if b.cache.waits.contains (lineAddr a) then b.cache.waits else b.cache.waits ++ [lineAddr a] } }

/-- R331, R332: a fetched line takes its way; a dirty victim is written back first and counts. HINT 2 STREAM enters as oldest. Nothing is filled where no ordinary way is in service (R546), and a poisoned
line is not kept (log 16). -/
def fill (b : Block) (a : Nat) (data : Bytes) (hint : Nat) (flow : Option Nat) : Block :=
  let south := b.half a
  match b.victim south (setOf a) with
  | none => b
  | some (way, old) =>
    let b1 :=
      match old with
      | none => b
      | some l => if l.dirty then (b.evict l).count 0x2504 0x0A 1 else b.dropLine l
    let b2 : Block := { b1 with cache := { b1.cache with waits := b1.cache.waits.filter (· != lineAddr a) } }
    let n := b2.newest
    let age := if hint == 2 then -n.1 else n.1
    let x := n.2.lineErr
      { newLine south (setOf a) way (lineAddr a) data age with filler := if hint == 3 then flow else none }
    x.2.setLines (x.1 :: x.2.cache.lines)

/-- A hit of a good line: HINT 1 and 3 make it newest, a blackboard line keeps its place (R167). -/
def touch (b : Block) (l : Line) (hint : Nat) (flow : Option Nat) : Block :=
  let l1 := { l with shared := l.shared || l.filler != flow }
  if l.bb || hint == 2 then b.putLine l1
  else
    let n := b.newest
    n.2.putLine { l1 with age := n.1 }

/-- A miss served by the owning agent, filling the line; the fetch is sent once the victim's way is free (R165, R331,
R332). -/
def missLine (m : Memory) (b : Block) (a hint : Nat) (flow : Option Nat) : Bytes × Bool × Block :=
  if b.fillWaits a then (zeros 256, false, b.waitFill a)
  else
    let r := tierRead m (b.count 0x2504 9 1) (lineAddr a) 256
    (r.1, r.2.1, if r.2.1 || r.2.2.blocked then r.2.2 else r.2.2.fill a r.1 hint flow)

/-- R335: a double-bit error found in a line. -/
def doubleError (m : Memory) (b : Block) (l : Line) (hint : Nat) (flow : Option Nat) : Bytes × Bool × Block :=
  if l.dirty then (l.data, true, b.evict l)
  else missLine m ((b.count 0x2504 6 1).dropLine l) l.addr hint flow

/-- R402: a clean line taken as a miss, fetched from its source and put in place of the cached copy, with the age and the
owner that its hint gives a fill (R167); a blackboard line keeps its place. -/
def freshLine (m : Memory) (b : Block) (l : Line) (hint : Nat) (flow : Option Nat) : Bytes × Bool × Block :=
  let r := tierRead m (b.count 0x2504 9 1) l.addr 256
  (r.1, r.2.1,
    if r.2.2.blocked then r.2.2
    else if r.2.1 then r.2.2.dropLine l
    else if l.bb then r.2.2.putLine { l with data := r.1 }
    else
      let n := r.2.2.newest
      n.2.putLine { l with data := r.1, age := if hint == 2 then -n.1 else n.1,
                           filler := if hint == 3 then flow else none, shared := false })

/-- One lookup of the line of address a, with a hint and, with `acquire`, the refetch of R402 (R165, R335, R336). -/
def lookup (m : Memory) (b : Block) (a hint : Nat) (flow : Option Nat) (acquire : Bool) : Bytes × Bool × Block :=
  let b0 := b.parityCheck (b.half a) (setOf a)
  match b0.line? a with
  | none => missLine m b0 a hint flow
  | some l =>
    if l.err == 2 then doubleError m b0 l hint flow
    else
      let b1 := if l.err == 1 then (b0.putLine { l with err := 0 }).count 0x2504 5 1 else b0
      let l1 := { l with err := 0 }
      if acquire && !l1.dirty && l1.source.isNone then freshLine m b1 l1 hint flow
      else (l1.data, false, (b1.touch l1 hint flow).count 0x2504 8 1)

/-- A span of bytes read line by line through the row cache; one line's poison marks it all. -/
def lookupSpan (m : Memory) (b : Block) (a len hint : Nat) (flow : Option Nat) (acquire : Bool) :
    Bytes × Bool × Block :=
  let r := (linesOf a len).foldl (fun (acc : Bytes × Bool × Block) la =>
    let x := lookup m acc.2.2 la hint flow acquire
    (acc.1 ++ x.1, acc.2.1 || x.2.1, x.2.2)) ([], false, b)
  (slice r.1 (a % 256) len, r.2.1, r.2.2)

/-- A structure read through the row cache with hint KEEP, or from host memory, where nothing is cached (R330). -/
def cachedRead (m : Memory) (b : Block) (id a len : Nat) (acquire : Bool) : Bytes × Bool × Block :=
  if isHost a then readFor m b id a len
  else if b.absent a then tierRead m b a len
  else lookupSpan m b a len 1 (some id) acquire

/-- R298: every dirty line of a row is written back before an agent operation on it; each forced write-back counts. -/
def forceBack (b : Block) (a len : Nat) : Block :=
  (b.cache.lines.filter (fun l => l.dirty && (linesOf a len).contains l.addr)).foldl
    (fun b l => (b.sendBack l).count 0x2303 7 1) b

/-- R311, R53: bytes written by an agent replace those of every cached copy. -/
def replaceCopies (b : Block) (a : Nat) (data : Bytes) : Block :=
  b.setLines (b.cache.lines.map (fun l =>
    if l.addr < a + data.length && a < l.addr + 256 then
      (if a ≤ l.addr then { l with data := patch l.data 0 (data.drop (l.addr - a)) }
       else { l with data := patch l.data (a - l.addr) data })
    else l))

/-- R167: what DISCARD_AFTER_LAST does to the lines a command filled, when it completes. -/
def discardAfter (b : Block) (id : Nat) : Block :=
  let ls := b.cache.lines.filter (fun l => !(l.filler == some id && !l.shared && !l.dirty))
  b.setLines (ls.map (fun l =>
    if l.filler == some id then
      { l with filler := none, age := if !l.shared && l.dirty then -(b.cache.clock + 1) else l.age }
    else l))

/-! ### Range operations (R334) and the blackboard's releases -/

/-- A line of a range of pages; none: the whole row cache. -/
def inPages (r : Option (Nat × Nat)) (l : Line) : Bool :=
  match r with
  | none => true
  | some (base, pages) => base ≤ l.addr && l.addr < base + 4096 * pages

/-- Pages a range operation examines (R334, R413): a whole cache has the pages of no range. -/
def pagesOf (r : Option (Nat × Nat)) : Nat := match r with | none => 0 | some (_, n) => n

/-- CLEAN: every dirty line of the range is written back and counts in OD 0x2506.03 (R334, R413). -/
def clean (b : Block) (r : Option (Nat × Nat)) : Block :=
  (b.cache.lines.filter (fun l => l.dirty && inPages r l)).foldl (fun b l => (b.sendBack l).count 0x2506 3 1) b

/-- INVALIDATE: CLEAN, then ordinary lines of the range are dropped and blackboard lines of local rows are refetched in
place (R334); those of remote rows lie in no range of addresses. -/
def invalidate (m : Memory) (b : Block) (r : Option (Nat × Nat)) : Block :=
  let b1 := b.clean r
  let b2 := b1.setLines (b1.cache.lines.filter (fun l => l.bb || !inPages r l))
  (b2.cache.lines.filter (fun l => l.bb && inPages r l && l.source.isNone)).foldl (fun b l =>
    let x := tierRead m b l.addr 256
    if x.2.1 then x.2.2.dropLine l else x.2.2.putLine { l with data := x.1, err := 0 }) b2

/-- The lines of a remote row replaced by a row fetched again, or dropped (R334, R401, R402). -/
def refreshRemote (b : Block) (table row : Nat) (data : Option Bytes) : Block :=
  let mine := fun (l : Line) => l.source == some (table, row)
  match data with
  | none => (b.setLines (b.cache.lines.filter (fun l => !mine l))).countBoard
  | some d => b.setLines (b.cache.lines.map (fun l =>
      if mine l then { l with data := fit 256 (slice d (l.addr - remoteKey table row) 256), err := 0 } else l))

/-- R544: a blackboard line released while its way stays one. -/
def release (b : Block) (l : Line) : Block := b.evict l

/-- R56, R333, R544: what a commit of OD 0x2301.01 to `ways` does to the lines. Lines in ways that become blackboard
ways are evicted; blackboard lines in ways that stay are released; those in ways that return to ordinary use stay, with
their data, as oldest. DESIGN CHOICE (log 52): several such lines of one set get one same age, and a loading epoch that is
open closes with the commit. -/
def boardCommit (b : Block) (ways : Nat) : Block :=
  let old := b.bbWays
  let b1 := (b.cache.lines.filter (fun l => !l.bb && 16 - ways ≤ l.way && l.way < 16 - old)).foldl (fun b l =>
    (if l.dirty then b.count 0x2504 0x0A 1 else b).evict l) b
  let b2 := (b1.cache.lines.filter (fun l => l.bb && 16 - ways ≤ l.way)).foldl release b1
  let b3 := b2.setLines (b2.cache.lines.map (fun l =>
    if l.bb then { l with bb := false, loading := false, current := false, age := -(b2.cache.clock + 1) } else l))
  ({ b3 with cache := { b3.cache with loading := false, clock := b3.cache.clock + 1 } }.setOd 0x2301 1 ways).countBoard.count32
    0x2301 2 1

/-- R61: where a blackboard line for an address may go: a free blackboard way, else, for a loading epoch, a line of the
current epoch that the loading epoch does not hold. DESIGN CHOICE (log 52): of several such lines, the first that the model
lists. -/
def boardPlace (b : Block) (a : Nat) (loading : Bool) : Option (Nat × Option Line) :=
  let south := b.half a
  let here := b.cache.lines.filter (fun l => l.south == south && l.set == setOf a && l.bb)
  match (b.boardWays south).find? (fun w => here.all (fun l => l.way != w)) with
  | some w => some (w, none)
  | none => if loading then ((here.find? (fun l => l.current && !l.loading)).map (fun l => (l.way, some l))) else none

/-- R508: a fenced way: its dirty lines written back, its lines invalid. -/
def fenceWay (b : Block) (south : Bool) (way : Nat) : Block :=
  ((b.cache.lines.filter (fun l => l.south == south && l.way == way)).foldl evict b).countBoard

/-- R514 step 1: a half writes back every dirty line, then drops every line. -/
def dropHalf (b : Block) (south : Bool) : Block :=
  let b1 := ((b.cache.lines.filter (fun l => l.south == south)).foldl evict b).countBoard
  { b1 with cache := { b1.cache with gone := some south } }

/-- R514, restoring: the remaining half drops, with write-back, what the restored half is home to. -/
def takeUpHalf (b : Block) (south : Bool) : Block :=
  let b1 := ((b.cache.lines.filter (fun l => homeSouth l.addr == south)).foldl evict b).countBoard
  { b1 with cache := { b1.cache with gone := none } }

end Block

end Sys2Proof.Machine
end

