-- ==== Sys2Proof/Machine/Flags.lean ====
section
/-! DEFINITION. Status codes with their precedence (R154 and the status tables of later chapters), and the flags and
fields of a completion record (R148, R155). -/

namespace Sys2Proof.Machine

/-- Status codes by name (R65, R90, R114, R154, R204, R231, R261, R286, R317, R394, R415). -/
def stOk : Nat := 0
def stPoisoned : Nat := 0x0001
def stDeadlineMissed : Nat := 0x0002
def stDoorbellEarly : Nat := 0x0101
def stBadCheck : Nat := 0x0102
def stBadHeader : Nat := 0x0103
def stBadOpcode : Nat := 0x0104
def stBadInline : Nat := 0x0105
def stRemoteDenied : Nat := 0x0106
def stAborted : Nat := 0x0107
def stArmBusy : Nat := 0x0201
def stEpochMismatch : Nat := 0x0301
def stOrphaned : Nat := 0x0401
def stStallCycle : Nat := 0x0501
def stFencedUnit : Nat := 0x0601
def stSideListFull : Nat := 0x0701
def stBadTable : Nat := 0x0901
def stRowRange : Nat := 0x0902
def stBadDesk : Nat := 0x0903
def stBadShard : Nat := 0x0904
def stDeskSealed : Nat := 0x0905
def stDeskFull : Nat := 0x0906
def stTableVersion : Nat := 0x0907
def stBadFormat : Nat := 0x0A01
def stBadQuant : Nat := 0x0A02
def stBadGather : Nat := 0x0B01
def stBadCopy : Nat := 0x0B02
def stBadBag : Nat := 0x0B03
def stBadRecall : Nat := 0x0C01
def stBadProject : Nat := 0x0D01
def stBadChain : Nat := 0x0E01
def stBadVec : Nat := 0x0E02
def stBadScatter : Nat := 0x0F01
def stBadUpdate : Nat := 0x0F02
def stBadCommit : Nat := 0x0F03
def stCommitSkipped : Nat := 0x0F04
def stBadStream : Nat := 0x1001
def stBadSatchel : Nat := 0x1002
def stSatchelCycle : Nat := 0x1003
def stBadSync : Nat := 0x1004
def stStreamStopped : Nat := 0x1005
def stSyncTimeout : Nat := 0x1006
def stBadOrder : Nat := 0x1101

/-- Rank 0, not executed. -/
def rank0 : List Nat := [stDoorbellEarly, stBadCheck]
/-- Rank 1, refused. -/
def rank1 : List Nat :=
  [stBadHeader, stBadOpcode, stBadInline, stBadFormat, stBadQuant, stBadTable, stBadDesk, stArmBusy, stBadGather,
   stBadCopy, stBadRecall, stBadProject, stBadChain, stBadVec, stBadScatter, stBadUpdate, stBadCommit, stBadStream,
   stBadSatchel, stSatchelCycle, stBadSync, stBadOrder]
/-- Rank 2, ended early. -/
def rank2 : List Nat := [stOrphaned, stFencedUnit, stStallCycle, stAborted, stStreamStopped, stSyncTimeout]
/-- Rank 3, damaged. -/
def rank3 : List Nat :=
  [stBadShard, stRowRange, stTableVersion, stEpochMismatch, stRemoteDenied, stDeskSealed, stDeskFull, stBadBag,
   stPoisoned]
/-- Rank 4, notice. -/
def rank4 : List Nat := [stSideListFull, stDeadlineMissed, stCommitSkipped]

/-- Every status but OK, the one that takes precedence first (R154). -/
def statusOrder : List Nat := rank0 ++ rank1 ++ rank2 ++ rank3 ++ rank4

/-- The status a command reports of those that apply (R154). -/
def bestStatus (l : List Nat) : Nat := (statusOrder.find? (fun s => l.contains s)).getD stOk

/-- The status ends a command early (rank 2 of R155). -/
def endsEarly (s : Nat) : Bool := rank2.contains s
/-- The status refuses a command (rank 1 of R155). -/
def refuses (s : Nat) : Bool := rank1.contains s

namespace Flow

/-- Opcode of the command (R139). -/
def opcode (f : Flow) : Nat := bits f.entry 7 0
/-- A header flag (R139). -/
def ordered (f : Flow) : Bool := bit f.entry 8
def release (f : Flow) : Bool := bit f.entry 9
def acquires (f : Flow) : Bool := bit f.entry 10
def complete (f : Flow) : Bool := bit f.entry 11
def mayRemote (f : Flow) : Bool := bit f.entry 12
def realtime (f : Flow) : Bool := bit f.entry 13
def poisonOk (f : Flow) : Bool := bit f.entry 14
def dep (f : Flow) : Bool := bit f.entry 20
/-- Inline entries that follow (R136). -/
def slots (f : Flow) : Nat := bits f.entry 19 17
/-- TAG (R139). -/
def tag (f : Flow) : Nat := bits f.entry 63 32

/-- The flow completes after its deadline (R382). -/
def late (f : Flow) (now : Nat) : Bool :=
  match f.deadline with
  | none => false
  | some d => d < now

/-- Statuses that apply to a completing flow: those raised, and what its counts say (R86, R141, R191, R382). -/
def applies (f : Flow) (now : Nat) : List Nat :=
  f.statuses ++ (if 0 < f.poisonCount && !f.poisonOk then [stPoisoned] else []) ++
    (if 0 < f.fullCount then [stSideListFull] else []) ++ (if f.late now then [stDeadlineMissed] else [])

/-- The status its record reports. -/
def status (f : Flow) (now : Nat) : Nat := bestStatus (f.applies now)

/-- A command that performs row operations (R155). -/
def rowOps (f : Flow) : Bool := 4 ≤ f.opcode && f.opcode ≤ 6

/-- DETAIL of its record (R155, R162, R306, R310, R357, R487). -/
def detailOf (f : Flow) (now : Nat) : Nat :=
  let s := f.status now
  let d :=
    if s == stPoisoned || s == stBadBag then f.poisonCount
    else if f.rowOps && rank3.contains s then f.poisonCount
    else if s == stSideListFull then f.fullCount
    else if s == stOrphaned then f.blocksDropped
    else if s == stOk && 0 < f.poisonCount then f.poisonCount
    else match f.genNo with
      | some g => g % 65536
      | none => mapGet f.details 0 s
  min 65535 d

end Flow

/-- Poison that leaves something undone and that DETAIL does not count: POISON_SEEN, and POISONED unless POISON_OK is set
(R155, R226, R227). -/
def Block.poisonOnly (b : Block) (id : Nat) : Block :=
  b.modFlow id (fun f => { f with
    poisonSeen := true, statuses := if f.poisonOk then f.statuses else f.statuses ++ [stPoisoned] })

/-- The 128-bit completion record of R148. -/
def recordBits (w : WaitingRecord) (phase : Bool) (head : Nat) : Nat :=
  pack [(0, w.status), (16, b2n phase), (17, b2n w.poison), (18, b2n w.late), (32, w.sq), (64, head), (80, w.detail),
    (96, w.tag)]

end Sys2Proof.Machine
end

