-- ==== Sys2Proof/Machine/Sched.lean ====
section
/-! DEFINITION. What flows share: making one, the timetable's keys and choice (R378 to R380), stream slots and their
generations (R353 to R358), satchels (R364 to R374), bells (R386), and ending a flow early (R377, R510). -/

namespace Sys2Proof.Machine

/-- A flow with nothing done. -/
def Flow.blank (id ring cq su entry epoch start band : Nat) (deadline : Option Nat) : Flow :=
  { id := id, stream := none, ring := ring, cq := cq, su := su, entry := entry, inline := [], copies := [], windows := [],
    epoch := epoch, start := start, deadline := deadline, band := band, stage := .waiting, statuses := [],
    poisonSeen := false, poisonCount := 0, fullCount := 0, sat := 0, esc := 0, nanGroups := 0, details := [],
    genNo := none, blocksDropped := 0, cut := false, held := false, logged := false, snapshot := [], arrived := false, since := start,
    intoQ := none, fromQ := none, rows := [], remote := [], formed := 0, tilesFormed := 0, tilesDone := 0, positions := [],
    taken := 0, bags := [], out := [], scalars := [], acts := [], waitsOn := none, search := none, quant := none }

/-! ### Fields of a stream descriptor (R359) -/

def sdKind (d : Nat) : Nat := bits d 1 0
def sdRealtime (d : Nat) : Bool := bit d 2
def sdCrc (d : Nat) : Bool := bit d 3
def sdFmt (d : Nat) : Nat := bits d 7 4
def sdElem (d : Nat) : Nat := 2 ^ bits d 10 8
def sdBellEn (d : Nat) : Bool := bit d 11
def sdBand (d : Nat) : Nat := bits d 14 12
def sdBell (d : Nat) : Nat := bits d 31 24
def sdCols (d : Nat) : Nat := bits d 41 32
def sdRows (d : Nat) : Nat := bits d 55 48
def sdQueue (d : Nat) : Nat := bits d 79 64
def sdParties (d : Nat) : Nat := bits d 95 80
def sdDeadline (d : Nat) : Nat := bits d 127 96
def sdStart (d : Nat) : Nat := bits d 179 128
/-- COUNT of dimension k. -/
def sdCount (d k : Nat) : Nat := bits d (223 + 64 * k) (192 + 64 * k)
/-- STRIDE of dimension k, in bytes. -/
def sdStride (d k : Nat) : Int := sext 32 (bits d (255 + 64 * k) (224 + 64 * k))

/-! ### Fields of a satchel queue descriptor (R365) -/

namespace SatQueue
def south (q : SatQueue) : Bool := bit q.desc 1
def remoteIn (q : SatQueue) : Bool := bit q.desc 2
def depth (q : SatQueue) : Nat := bits q.desc 14 8
def size (q : SatQueue) : Nat := 2 ^ bits q.desc 19 16
def reserve (q : SatQueue) : Nat := bits q.desc 23 20
/-- The queue its consumer writes into; none for 0xFF_FFFF. -/
def next (q : SatQueue) : Option Nat := if bits q.desc 55 32 == 0xFF_FFFF then none else some (bits q.desc 55 32)
/-- FREE satchels. -/
def freeCount (q : SatQueue) : Nat := (q.sats.filter (fun x => x.state == .free)).length
/-- ARRIVED satchels. -/
def arrivedCount (q : SatQueue) : Nat := (q.sats.filter (fun x => x.state == .arrived)).length
end SatQueue

/-- An empty satchel. -/
def Satchel.empty : Satchel :=
  { state := .free, holder := none, remote := none, producer := none, order := 0, rows := 0, cols := 0, fmt := 0, pitch := 0, data := [],
    poison := [], err := [] }

namespace Block

/-- The satchel queue with a number. -/
def queue? (b : Block) (n : Nat) : Option SatQueue := b.streams.queues.find? (fun q => q.number == n)

/-- A satchel queue changed in place. -/
def modQueue (b : Block) (n : Nat) (g : SatQueue → SatQueue) : Block :=
  { b with streams := { b.streams with queues := updFirst (fun q => q.number == n) g b.streams.queues } }

/-! ### The timetable (R379, R380) -/

/-- The smaller of two keys; none is +∞. -/
def minKey (a c : Option Nat) : Option Nat :=
  match a, c with
  | none, k => k
  | k, none => k
  | some x, some y => some (min x y)

/-- D_in and dry of a producer into a local queue (R379). -/
def queueKey (b : Block) (q : SatQueue) : Option Nat :=
  match q.consumer with
  | none => none
  | some c => minKey ((b.flow? c).bind (·.deadline)) (some (b.time + q.arrivedCount * q.interval))

/-- The key of a flow (R379). -/
def key (b : Block) (f : Flow) : Option Nat := minKey f.deadline ((f.intoQ.bind b.queue?).bind b.queueKey)

/-- Claim x is served before claim y: lower key, then higher band, then earlier start (R380). -/
def before (b : Block) (x y : Flow) : Bool :=
  match b.key x, b.key y with
  | some i, some j => i < j || (i == j && (y.band < x.band || (x.band == y.band && x.start < y.start)))
  | some _, none => true
  | none, some _ => false
  | none, none => y.band < x.band || (x.band == y.band && x.start < y.start)

/-- The claim with the lowest key of R380. -/
def first (b : Block) (claims : List Flow) : Option Flow :=
  claims.foldl (fun (acc : Option Flow) f =>
    match acc with
    | none => some f
    | some g => if b.before f g then some f else acc) none

/-- The claims whose key is +∞. -/
def endless (b : Block) (claims : List Flow) : List Flow := claims.filter (fun f => (b.key f).isNone)

/-- The claims at a resource in the order they began to wait: those found waiting at its last grant first (R380). DESIGN
CHOICE (log 55): claims that came since then, by the start of their flows. -/
def waitOrder (b : Block) (resource : Nat) (claims : List Flow) : List Flow :=
  let known := (b.streams.waits.filter (fun w => w.1 == resource)).map (·.2)
  known.filterMap (fun i => claims.find? (fun f => f.id == i)) ++
    (claims.filter (fun f => !known.contains f.id)).insertionSort (fun x y => x.start ≤ y.start)

/-- A grant made: the count of grants in a row to finite keys, and the flows that go on waiting. -/
def granted (b : Block) (resource run : Nat) (waiting : List Flow) (g : Flow) : Flow × Block :=
  (g, { b with streams := { b.streams with
    finiteRow := mapSet b.streams.finiteRow 0 resource run
    waits := b.streams.waits.filter (fun w => w.1 != resource) ++
      (waiting.filter (fun f => f.id != g.id)).map (fun f => (resource, f.id)) } })

/-- One grant at a resource (R380): after 7 grants in a row to finite keys while a flow with key +∞ waited, the
longest-waiting such flow is served, and counted. -/
def grant (b : Block) (resource : Nat) (claims : List Flow) : Option (Flow × Block) :=
  let n := mapGet b.streams.finiteRow 0 resource
  let order := b.waitOrder resource claims
  match (b.endless order).head? with
  | some f =>
    if 7 ≤ n then some ((b.count 0x2603 3 1).granted resource 0 order f)
    else (b.first claims).map (fun g => b.granted resource (if (b.key g).isSome then n + 1 else 0) order g)
  | none => (b.first claims).map (b.granted resource 0 order)

/-! ### Stream slots -/

/-- A slot as it stands after start-up (R353). -/
def blankSlot (n : Nat) : StreamSlot :=
  { number := n, active := 0, shadow := 0, pendingGen := none, pendingArm := 0, counter := 0, gen := none, arm := 0,
    pos := 0, ringing := false, stopped := false, part := [], partPoison := [], poisonRows := 0 }

/-- The slot with a number. -/
def slot (b : Block) (n : Nat) : StreamSlot := (b.streams.slots.find? (fun s => s.number == n)).getD (blankSlot n)

/-- OD 0x2604.(s + 1) of R358. -/
def slotWord (s : StreamSlot) : Nat :=
  pack [(0, s.counter), (32, if s.gen.isNone then 0 else if s.ringing then 2 else 1), (34, b2n s.pendingGen.isSome)]

/-- A slot put in place, and its dictionary entry with it. -/
def putSlot (b : Block) (s : StreamSlot) : Block :=
  let slots := b.streams.slots.filter (fun x => x.number < s.number) ++
    s :: b.streams.slots.filter (fun x => s.number < x.number)
  let b1 : Block := { b with streams := { b.streams with slots := slots } }
  b1.setOd 0x2604 (s.number + 1) (slotWord s)

/-- The slot numbers of a stream unit (R353: 64 × wing + 4 × SU + slot). -/
def slotsOf (su : Nat) : List Nat := (List.range 4).map (fun k => 4 * su + k)

/-- What a generation hands to its ARM when it completes (R357, R363); the ARM is late when it is late itself or its
generation is (R382). -/
def settleArm (b : Block) (arm : Nat) (g : Flow) (poison : Nat) : Block :=
  b.modFlow arm (fun f =>
    { f with statuses := f.statuses ++ g.statuses, poisonCount := f.poisonCount + poison,
             poisonSeen := f.poisonSeen || g.poisonSeen || 0 < poison, stage := .closing,
             deadline := if g.late b.time then minKey f.deadline g.deadline else f.deadline,
             blocksDropped := f.blocksDropped + g.blocksDropped, sat := f.sat + g.sat, esc := f.esc + g.esc,
             nanGroups := f.nanGroups + g.nanGroups })

/-! ### Satchels (R368 to R370) -/

/-- The satchels that a flow holds or has been granted return to FREE (R368, R377, R510). -/
def freeSatchels (b : Block) (id : Nat) : Block :=
  { b with streams := { b.streams with
      queues := b.streams.queues.map (fun q => { q with
        sats := q.sats.map (fun x =>
          if x.holder == some id && (x.state == .granted || x.state == .held) then Satchel.empty else x) })
      claims := b.streams.claims.filter (fun c => (c.tile.map (·.flow)) != some id) } }

/-- A flow gives up its consumer turn; the next flow of the queue takes it, with I back at 0 (R370, R379). -/
def endTurn (b : Block) (id : Nat) : Block :=
  { b with streams := { b.streams with
      queues := b.streams.queues.map (fun q =>
        let turns := q.turns.filter (· != id)
        if q.consumer == some id then
          { q with consumer := turns.head?, turns := turns.tail, interval := 0, lastTake := none }
        else { q with turns := turns }) } }

/-- A flow that consumes a queue takes its turn or waits for it, in the order asked (R370). -/
def askTurn (b : Block) (id n : Nat) : Block :=
  b.modQueue n (fun q =>
    if q.consumer == some id || q.turns.contains id then q
    else match q.consumer with
      | none => { q with consumer := some id, interval := 0, lastTake := none }
      | some _ => { q with turns := q.turns ++ [id] })

/-! ### Bells (R386) -/

/-- A bell's round. -/
def bell? (b : Block) (n : Nat) : Option Bell := b.streams.bells.find? (fun x => x.number == n)

/-- An arrival withdrawn; a round without arrivals holds no PARTIES (R386). -/
def withdraw (b : Block) (id : Nat) : Block :=
  { b with streams := { b.streams with
      bells := (b.streams.bells.map (fun x => { x with arrivals := x.arrivals.filter (· != id) })).filter
        (fun x => !x.arrivals.isEmpty) } }

/-! ### Ending early -/

/-- What a flow still has in its wing's engine is dropped. -/
def dropWork (b : Block) (id : Nat) : Block :=
  let clear := fun (e : WingEngine) =>
    { e with ready := e.ready.filter (fun p => p.flow != id), feed := e.feed.filter (fun p => p.flow != id),
             current := e.current.filter (fun p => p.flow != id),
             finished := e.finished.filter (fun t => t.flow != id),
             tileQueue := e.tileQueue.filter (fun t => t.flow != id),
             slots := (e.slots.map (fun x => { x with users := x.users.filter (· != id) })).filter
               (fun x => !x.users.isEmpty) }
  { b with north := clear b.north, south := clear b.south }

/-- A flow ends early with a status of rank 2 (R155): its bell arrival is withdrawn, its satchels return to FREE, its
work in the engine, the effects it still holds back and its unanswered requests to peers are dropped. Requests that
agents have accepted stay; a grant that came and was not used is given back when the flow completes (R437). -/
def endFlow (b : Block) (id status : Nat) : Block :=
  let b1 := ((((b.withdraw id).freeSatchels id).endTurn id).dropWork id).modFlow id
    (fun f => { f with stage := .closing, statuses := f.statuses ++ [status], remote := f.remote.filter (·.answered),
                       arrived := false })
  { b1 with heldBack := b1.heldBack.filter (fun r => r.flow != some id) }

/-- A pending copy is dropped, and its ARM completes with the status (R355, R357). -/
def dropPending (b : Block) (n status : Nat) : Block :=
  let s := b.slot n
  match s.pendingGen with
  | none => b
  | some _ => ((b.raise s.pendingArm status).close s.pendingArm).putSlot { s with pendingGen := none }

/-! ### Generations (R352, R355 to R357) -/

/-- The committed CRC windows that map blocks (R339). -/
def crcWindows (b : Block) : List (Nat × Nat × Nat) :=
  ((List.range 16).map (fun w => (b.od' 0x2503 (3 * w + 1), b.od' 0x2503 (3 * w + 2), b.od' 0x2503 (3 * w + 3)))).filter
    (fun w => w.2.1 != 0)

/-- A generation starts (R352, R357): its flow, with its deadline and the band capped by the arming queue; a STORE takes
its consumer turn or waits for it (R370). -/
def startGen (b : Block) (n desc arm : Nat) : Block :=
  let a := b.flow? arm
  let su := n / 4
  let dl := if sdRealtime desc && sdDeadline desc != 0 then some (b.time + sdDeadline desc) else none
  let cap := ((a.bind (fun f => b.ring? f.ring)).map (fun r => bits r.desc 26 24)).getD 7
  let f0 := Flow.blank b.nextFlow ((a.map (·.ring)).getD 0) ((a.map (·.cq)).getD 0) su desc (b.od' 0x2202 1) b.time
    (min (sdBand desc) cap) dl
  let q := some (sdQueue desc)
  let f := { f0 with stream := some n, windows := b.crcWindows, stage := .running, intoQ := if sdKind desc == 0 then q else none,
                     fromQ := if sdKind desc == 0 then none else q }
  let b1 : Block := { b with flows := b.flows ++ [f], nextFlow := b.nextFlow + 1 }
  let b2 := b1.putSlot
    { b.slot n with active := desc, pendingGen := none, gen := some b.nextFlow, arm := arm, pos := 0, ringing := false,
                    stopped := false, part := [], partPoison := [], poisonRows := 0 }
  if sdKind desc == 0 then b2 else b2.askTurn b.nextFlow (sdQueue desc)

/-- The wing of a satchel queue, or of the stream unit of a stream, is in detention. -/
def genFenced (b : Block) (n desc : Nat) : Bool :=
  !b.suUp (n / 4) || ((b.queue? (sdQueue desc)).map (fun q => b.wingFenced (if q.south then .south else .north))).getD false

/-- The pending copy of a slot starts; where a unit it needs is in detention, its ARM completes with FENCED_UNIT
(R356, R357, R513). -/
def nextGen (b : Block) (n : Nat) : Block :=
  let s := b.slot n
  match s.pendingGen with
  | none => b
  | some d => if b.genFenced n d then b.dropPending n stFencedUnit else b.startGen n d s.pendingArm

/-- The current generation of a slot completes: its ARM with it, and the pending copy starts in the same step (R356). -/
def closeGen (b : Block) (n : Nat) : Block :=
  let s := b.slot n
  match s.gen.bind b.flow? with
  | none => b
  | some g =>
    let b1 := (((b.withdraw g.id).endTurn g.id).dropFlow g.id).settleArm s.arm g s.poisonRows
    (b1.putSlot { b1.slot n with gen := none, ringing := false, stopped := false, part := [], partPoison := [] }).nextGen n

/-- A stopped generation completes once its issued transfers have been performed (R355, R357, R398). -/
def endStopped (b : Block) (n : Nat) : Block :=
  match (b.slot n).gen with
  | none => b
  | some g => if (b.slot n).stopped && !b.writesWait g then b.closeGen n else b

/-- A current generation ends early with a status (R355, R377, R487, R510). -/
def endGen (b : Block) (n status : Nat) : Block :=
  match (b.slot n).gen with
  | none => b
  | some g =>
    if (b.slot n).stopped then b
    else
      let b1 := b.endFlow g status
      (b1.putSlot { b1.slot n with stopped := true, ringing := false, part := [], partPoison := [] }).endStopped n

end Block

end Sys2Proof.Machine
end

