-- ==== Sys2Proof/Machine/Ports.lean ====
section
/-! DEFINITION. What the Seryo commands share (14_seryo_fabric.md): flits and their header, the send side with its
credits and replay buffer, port states, routes, messages with their transaction numbers, arrival and departure of
peers. -/

namespace Sys2Proof.Machine

/-! ### Flits (R420, R421) -/

/-- Field [hi:lo] of a flit. -/
def fl (f : Flit) (hi lo : Nat) : Nat := bits f.toNat hi lo

/-- A flit of a 96-bit header and up to 240 payload bytes, with its CRC; `bad` inverts the CRC (R524, checker 5). -/
def mkFlit (hdr : Nat) (payload : Bytes) (bad : Bool) : Flit :=
  let body := natLE 12 hdr ++ fit 240 payload
  let c := crc32c body
  BitVec.ofNat 2048 (leNat (body ++ natLE 4 (if bad then c ^^^ 0xFFFF_FFFF else c)))

/-- The CRC of a flit holds (R421). -/
def flitGood (f : Flit) : Bool := crc32c (natLE 252 f.toNat) == fl f 2047 2016

/-- Payload bytes of a flit. -/
def flitPayload (f : Flit) : Bytes := natLE 240 (f.toNat >>> 96)

/-- Pool of a DATA flit (R423). -/
def flitPool (f : Flit) : Nat := 4 * fl f 6 6 + fl f 5 4

/-- Credits of the pools (R423). -/
def poolSizes : List Nat := [384, 1280, 1280, 64, 128, 448, 448, 64]

/-- A port with no link. -/
def blankPort (n : Nat) : Port :=
  { number := n, trainAt := 0, helloOk := false, acked := false, txSeq := 0, replay := [], rxSeq := 0, naking := false,
    nakSeq := 0, nakRun := 0, goodAt := 0, ackAt := 0, credits := poolSizes, owed := List.replicate 8 0, rx := [],
    txq := [], openPool := [], lane := [], pairNo := 0, told := 0, sent := [], echo := none, symbols := 0, symbolSum := 0, symbolAt := 0 }

/-- Port states (R425). -/
def psDisabled : Nat := 0
def psDown : Nat := 1
def psTraining : Nat := 2
def psUp : Nat := 3
def psIsolated : Nat := 4

/-! ### Messages (R426, R427) -/

/-- VC of a message type. -/
def vcOf (mtype : Nat) : Nat :=
  match mtype with
  | 0x01 | 0x05 => 0
  | 0x02 | 0x04 | 0x06 | 0x08 => 1
  | 0x03 | 0x07 => 2
  | _ => 3

/-- MTYPE values (R427). -/
def mtRgather : Nat := 0x01
def mtRowdata : Nat := 0x02
def mtRadd : Nat := 0x03
def mtRack : Nat := 0x04
def mtGrantReq : Nat := 0x05
def mtGrant : Nat := 0x06
def mtTile : Nat := 0x07
def mtTileAck : Nat := 0x08
def mtBeacon : Nat := 0x10
def mtRoute : Nat := 0x11

/-- A message from its common header fields and the bytes after the header (R426). -/
def mkMsg (mtype src dst status txn incarn : Nat) (body : Bytes) : Bytes :=
  natLE 16 (pack [(0, mtype), (8, src), (16, dst), (24, status), (32, txn), (64, incarn), (96, body.length)]) ++ body

/-- Field [hi:lo] of a message. -/
def mg (msg : Bytes) (hi lo : Nat) : Nat := bits (leNat (msg.take 64)) hi lo

/-- The message with FWD set (R442). -/
def withFwd (msg : Bytes) : Bytes :=
  patch msg 2 (natLE 1 (leNat (slice msg 2 1) ||| 0x40))

namespace Block

/-- A port. -/
def port (b : Block) (n : Nat) : Port := (b.seryo.ports.find? (fun p => p.number == n)).getD (blankPort n)

/-- A port put in place. -/
def putPort (b : Block) (p : Port) : Block :=
  { b with seryo := { b.seryo with
      ports := b.seryo.ports.filter (fun x => x.number < p.number) ++
        p :: b.seryo.ports.filter (fun x => p.number < x.number) } }

/-- A port changed in place. -/
def modPort (b : Block) (n : Nat) (g : Port → Port) : Block := b.putPort (g (b.port n))

/-- State of a port (OD 0x2701). -/
def portState (b : Block) (n : Nat) : Nat := b.od' 0x2701 (n + 1)
/-- Neighbour of a port; 0xFF for none. -/
def neighbour (b : Block) (n : Nat) : Nat := b.od' 0x2701 (0x21 + n)
/-- The port is UP. -/
def portUp (b : Block) (n : Nat) : Bool := b.portState n == psUp
/-- The port is in detention (OD 0x2802.06). -/
def portFenced (b : Block) (n : Nat) : Bool := bit (b.od' 0x2802 6) n
/-- Every UP port. -/
def upPorts (b : Block) : List Nat := (List.range 32).filter b.portUp

/-- A present peer. -/
def peer? (b : Block) (p : Nat) : Option Peer := b.seryo.peers.find? (fun x => x.number == p)
/-- A peer changed in place. -/
def modPeer (b : Block) (p : Nat) (g : Peer → Peer) : Block :=
  { b with seryo := { b.seryo with peers := updFirst (fun x => x.number == p) g b.seryo.peers } }
/-- Present peers as a bitmap (OD 0x2703.01). -/
def presentMap (b : Block) : Nat := (b.seryo.peers.map (fun p => 2 ^ p.number)).sum
/-- Peer p is mismatched at roll call (R444). -/
def mismatched (b : Block) (p : Nat) : Bool := bit (b.od' 0x2702 4) p
/-- Remote operations with peer p are refused by roll call (R444). -/
def rollRefuses (b : Block) (p : Nat) : Bool := b.mismatched p && b.od' 0x2702 1 == 0

/-- The Seryo event of R448. -/
def seryoEvent (b : Block) (kind peer port fr dest bitmap epoch : Nat) : Block :=
  b.event 6 (pack [(0, kind), (8, peer), (16, port), (21, fr), (24, dest), (32, b.time), (96, bitmap), (160, epoch)])

/-! ### Sending -/

/-- Header of a flit leaving a port: type fields, SEQ, and the ACK_SEQ and CREDIT_RET that every flit carries. -/
def flitHeader (p : Port) (ftype pool som eom seq : Nat) : Nat :=
  pack [(0, ftype), (4, pool % 4), (6, pool / 4), (7, som), (8, eom), (16, seq), (32, (p.rxSeq + 65535) % 65536),
    (48, b2n p.helloOk)] +
    ((List.range 8).map (fun k => (min 15 (p.owed.getD k 0)) <<< (64 + 4 * k))).sum

/-- Credits left to return after a flit has carried up to 15 of each pool. -/
def owedAfter (p : Port) : List Nat := p.owed.map (fun n => n - min 15 n)

/-- The frame word of the pair that a port forms: MARK, PAIR_NO, FEC_HEALTH, CHECK (R418). -/
def frameWord (p : Port) : Nat :=
  let w := pack [(0, 0x5C), (8, p.pairNo), (24, min 255 p.symbols)]
  w + xorBytes (natLE 4 w) <<< 32

/-- A pair whose five flits are there goes to the lanes (R418). -/
def closePair (p : Port) : Port :=
  if p.lane.length < 5 then p
  else { p with sent := p.sent ++ [{ frame := frameWord p, flits := p.lane }], lane := [], pairNo := (p.pairNo + 1) % 65536 }

/-- One flit put into the pair that a port forms; with it ACK_SEQ and credits go out (R420, R421, R524). -/
def launch (b : Block) (n hdr : Nat) (payload : Bytes) : Block :=
  let p := b.port n
  let i := b.injected (0x300 + n) 5
  i.2.putPort (closePair { p with lane := p.lane ++ [mkFlit hdr payload i.1], owed := owedAfter p, told := p.rxSeq })

/-- An IDLE flit sent (R421). -/
def sendIdle (b : Block) (n : Nat) : Block := b.launch n (flitHeader (b.port n) 0 0 0 0 0) (zeros 240)

/-- A port has a pair to complete, an ACK_SEQ to tell or credits to return (R421, R423). -/
def mustSend (p : Port) : Bool := !p.lane.isEmpty || p.told != p.rxSeq || p.owed.any (0 < ·)

/-- With nothing else to send, IDLE flits complete the pair and carry what must be told; `fuel` bounds them. -/
def idleOut : Nat → Block → Nat → Block
  | 0, b, _ => b
  | fuel + 1, b, n => if mustSend (b.port n) then idleOut fuel (b.sendIdle n) n else b

/-- The IDLE flits of a port that has nothing else to send: each carries up to 15 credits of a pool (R423). -/
def idleFill (b : Block) (n : Nat) : Block := idleOut (5 + (b.port n).owed.sum) b n

/-- Every port that sends does so (R421, R425). -/
def idleAll (b : Block) : Block :=
  (b.seryo.ports.map (·.number)).foldl (fun b n =>
    if b.portState n == psTraining || b.portUp n then b.idleFill n else b) b

/-- A LINK flit sent (R424). -/
def sendLink (b : Block) (n payload : Nat) : Block :=
  b.launch n (flitHeader (b.port n) 2 0 0 0 0) (natLE 240 (payload >>> 96))

/-- The HELLO of a port (R424). -/
def sendHello (b : Block) (n : Nat) : Block :=
  b.sendLink n (pack [(96, 1), (104, b.package), (112, n), (128, b.od' 0x2700 4), (160, b.od' 0x1000 7)])

/-- The NAK of R422. -/
def sendNak (b : Block) (n : Nat) : Block :=
  let b1 := (b.sendLink n (pack [(96, 2), (224, (b.port n).rxSeq)])).count 0x2704 3 1
  b1.modPort n (fun p => { p with naking := true })

/-- An ECHO (R424, R439). -/
def sendEcho (b : Block) (n : Nat) : Block := b.sendLink n (pack [(96, 3), (240, b.time)])

/-- A GOODBYE (R424, R425). -/
def sendGoodbye (b : Block) (n : Nat) : Block := b.sendLink n (pack [(96, 5)])

/-- The next waiting flit that may go: first of its pool, with a credit, no other message of its VC begun (R423,
R426). -/
def sendable (p : Port) : Option TxFlit :=
  p.txq.find? (fun t =>
    let o := mapGet p.openPool 0 (t.pool % 4)
    0 < p.credits.getD t.pool 0 && (if o == 0 then t.som else o == t.pool + 1) &&
      (p.txq.find? (fun x => x.pool == t.pool)) == some t)

/-- The payload of a flit as it leaves: the first flit of a BEACON carries the time of its leaving (R443). -/
def stamped (now : Nat) (t : TxFlit) : Bytes :=
  if t.som && t.pool == 3 && leNat (slice t.payload 0 1) % 64 == mtBeacon then patch t.payload 16 (natLE 8 now) else t.payload

/-- One DATA flit sent: numbered, kept for replay, its credit spent (R422, R423). -/
def sendData (b : Block) (n : Nat) (t : TxFlit) : Block :=
  let p := b.port n
  let hdr := flitHeader p 1 t.pool (b2n t.som) (b2n t.eom) p.txSeq
  let d := stamped b.time t
  let b1 := b.putPort
    { p with txSeq := (p.txSeq + 1) % 65536, replay := p.replay ++ [(p.txSeq, mkFlit hdr d false)],
             credits := updAt p.credits t.pool (· - 1), txq := p.txq.erase t,
             openPool := mapSet p.openPool 0 (t.pool % 4) (if t.eom then 0 else t.pool + 1),
             ackAt := if p.replay.isEmpty then b.time else p.ackAt }
  (b1.launch n hdr d).count 0x2704 1 1

/-- What a port can send now, it sends; `fuel` bounds the flits. -/
def pumpN : Nat → Block → Nat → Block
  | 0, b, _ => b
  | fuel + 1, b, n =>
    if b.portUp n && (b.port n).replay.length < 4096 then
      match sendable (b.port n) with
      | none => b
      | some t => pumpN fuel (b.sendData n t) n
    else b

/-- What a port can send now, it sends. -/
def pump (b : Block) (n : Nat) : Block := pumpN (b.port n).txq.length b n

/-- The flits of a message (R426). -/
def msgFlits (pool : Nat) (msg : Bytes) : List TxFlit :=
  let cs := chunks 240 msg
  (cs.zip (List.range cs.length)).map (fun c =>
    { pool := pool, som := c.2 == 0, eom := c.2 + 1 == cs.length, payload := fit 240 c.1 })

/-- A message put on a port. -/
def sendOn (b : Block) (n cls : Nat) (msg : Bytes) : Block :=
  let pool := 4 * cls + vcOf (mg msg 5 0)
  (b.modPort n (fun p => { p with txq := p.txq ++ msgFlits pool msg })).pump n

/-! ### Routes (R441) -/

/-- UP ports whose neighbour is package p. -/
def directPorts (b : Block) (p : Nat) : List Nat := b.upPorts.filter (fun n => b.neighbour n == p)

/-- Packages with a direct route, as a bitmap. -/
def directMap (b : Block) : Nat := ((List.range 64).map (fun p => if (b.directPorts p).isEmpty then 0 else 2 ^ p)).sum

/-- Two-hop routes to p: a direct port to a present neighbour that has p. -/
def transitRoutes (b : Block) (p : Nat) : List (Nat × Nat) :=
  b.seryo.peers.flatMap (fun q => if q.number != p && bit q.neighbours p then
    (b.directPorts q.number).map (fun n => (n, q.number)) else [])

/-- The route a message takes, by its hash among equal ones: port and transit. -/
def route (b : Block) (p hash : Nat) : Option (Nat × Option Nat) :=
  let d := b.directPorts p
  if d.isEmpty then
    let t := b.transitRoutes p
    if t.isEmpty then none else (t[Config.freeRouteHash hash % t.length]?).map (fun r => (r.1, some r.2))
  else (d[Config.freeRouteHash hash % d.length]?).map (fun n => (n, none))

/-- A route to p still stands: its port is UP and leads to p, or to a transit that has p (R441). -/
def routeStands (b : Block) (p : Nat) (r : Nat × Option Nat) : Bool :=
  b.portUp r.1 && (match r.2 with
    | none => b.neighbour r.1 == p
    | some q => b.neighbour r.1 == q && ((b.peer? q).map (fun x => bit x.neighbours p)).getD false)

/-- The route of a message of a type: that of an RADD stays the one its row has taken while it stands (R435, log 64). -/
def routeOf (b : Block) (p mtype hash : Nat) : Option (Nat × Option Nat) :=
  let kept := ((b.peer? p).bind (fun q => q.rowRoutes.find? (fun e => e.1 == hash))).map (·.2)
  match if mtype == mtRadd then kept.filter (b.routeStands p) else none with
  | some r => some r
  | none => b.route p hash

/-! ### Requests and answers (R428 to R430) -/

/-- A TILE with RETURN: nothing answers it (R437). -/
def isReturn (msg : Bytes) : Bool := mg msg 5 0 == mtTile && mg msg 159 159 == 1

/-- A message of a peer goes out on its route, which an RADD's row keeps. -/
def sendTo (b : Block) (p : Nat) (s : SentMsg) : Block :=
  (b.modPeer p (fun q => { q with
    awaiting := if isReturn s.bytes then q.awaiting else q.awaiting ++ [s],
    rowRoutes := if mg s.bytes 5 0 == mtRadd then (s.hash, s.port, s.transit) :: q.rowRoutes.filter (fun e => e.1 != s.hash)
      else q.rowRoutes })).sendOn s.port 0 s.bytes

/-- A request or posted message sent to a peer under the next TXN, or kept back while 4,096 await an answer. The
answer: the TXN it carries. -/
def sendMsg (b : Block) (dst mtype hash : Nat) (body : Bytes) : Option Nat × Block :=
  match b.peer? dst with
  | none => (none, b)
  | some p =>
    let txn := p.txn
    let hash := if mtype == mtGrantReq then txn else hash
    let held := 4096 ≤ p.awaiting.length || !p.backlog.isEmpty
    match b.routeOf dst mtype hash with
    | none => (none, b)
    | some (n, t) =>
      let s : SentMsg := { txn := txn, vc := vcOf mtype, hash := hash, bytes := mkMsg mtype b.package dst 0 txn (b.od' 0x2700 4) body,
                           port := n, transit := t }
      let b1 := b.modPeer dst (fun p => { p with
        txn := (p.txn + 1) % 2 ^ 32, backlog := if held then p.backlog ++ [s] else p.backlog })
      (some txn, if held then b1 else b1.sendTo dst s)

/-- Two messages are parts of one tile (R436); a TILE_ACK has the same fields at the same places. -/
def sameTile (x y : Bytes) : Bool :=
  mg y 5 0 == mtTile && !isReturn y && mg y 151 128 == mg x 151 128 && mg y 175 160 == mg x 175 160 &&
    mg y 223 192 == mg x 223 192

/-- What a flow makes of a request that ends without an answer of its peer (R169, R257, R305): an add or tile is not
performed; poison is seen where the peer is gone. -/
def failRow (status : Nat) (f : Flow) (r : RemoteRow) : Flow :=
  if r.kind == mtRadd then { f with poisonSeen := f.poisonSeen || status == 1, poisonCount := f.poisonCount + 1 }
  else if r.kind == mtTile then
    { f with poisonSeen := true, poisonCount := f.poisonCount + r.row, tilesDone := f.tilesDone + 1 }
  else f

/-- Open requests of a flow ended with a STATUS: 1 where the peer departs, 4 where its roll call refuses (R430). -/
def failRows (hit : RemoteRow → Bool) (status : Nat) (f : Flow) : Flow :=
  let rs := f.remote.filter (fun r => hit r && !r.answered)
  let f1 := rs.foldl (failRow status) f
  { f1 with
    remote := f.remote.map (fun r => if hit r && !r.answered then { r with answered := true, status := status } else r),
    statuses := if status == 4 && !rs.isEmpty && !f1.statuses.contains stEpochMismatch then f1.statuses ++ [stEpochMismatch]
      else f1.statuses }

/-- A message to a mismatched peer is not sent (R444): its flow takes it as refused with STATUS EPOCH, a part of a tile with
the whole tile. -/
def refuseMsg (b : Block) (p : Nat) (s : SentMsg) : Block :=
  match b.peer? p with
  | none => b
  | some q =>
    let mine := fun (x : SentMsg) => x.txn == s.txn || (sameTile s.bytes s.bytes && sameTile s.bytes x.bytes)
    let txns := ((q.awaiting ++ q.backlog ++ [s]).filter mine).map (·.txn)
    let adds := (b.flows.flatMap (·.remote)).filter (fun r =>
      r.peer == p && !r.answered && r.kind == mtRadd && txns.contains r.txn)
    let b1 := b.modPeer p (fun q => { q with
      awaiting := q.awaiting.filter (fun x => !mine x), backlog := q.backlog.filter (fun x => !mine x) })
    ({ b1 with flows := b1.flows.map (failRows (fun r => r.peer == p && txns.contains r.txn) 4) } : Block).count 0x2303 6
      adds.length

/-- Messages kept back go, by the routes that stand now, while fewer than 4,096 await an answer (R428, R441); `fuel` bounds
them. -/
def releaseBacklog : Nat → Block → Nat → Block
  | 0, b, _ => b
  | fuel + 1, b, p =>
    match b.peer? p with
    | none => b
    | some q =>
      match q.backlog with
      | [] => b
      | s :: rest =>
        if 4096 ≤ q.awaiting.length then b
        else
          let b1 := b.modPeer p (fun q => { q with backlog := rest })
          if b.rollRefuses p then releaseBacklog fuel (b1.refuseMsg p s) p
          else match b1.routeOf p (mg s.bytes 5 0) s.hash with
            | none => b
            | some (n, t) => releaseBacklog fuel (b1.sendTo p { s with port := n, transit := t }) p

/-- Messages of a peer that have their answer no longer await one (R428). -/
def answeredAll (b : Block) (p : Nat) (hit : SentMsg → Bool) : Block :=
  let b1 := b.modPeer p (fun q => { q with awaiting := q.awaiting.filter (fun s => !hit s) })
  releaseBacklog (((b.peer? p).map (fun q => q.backlog.length)).getD 0) b1 p

/-- The answer of one message has come (R428). -/
def answered (b : Block) (p txn : Nat) : Block := b.answeredAll p (fun s => s.txn == txn)

/-- A message of a kind performed at most once, which came by port n, enters its source's record, which keeps the last
4,096 (R428). -/
def performed (b : Block) (n p txn : Nat) : Block :=
  b.modPeer p (fun q =>
    let l := q.performed ++ [{ txn := txn, port := n, answer := none }]
    { q with performed := l.drop (l.length - 4096) })

/-- The port that the answer to a message travels by: the one its last copy came by (R429). -/
def answerPort (b : Block) (n p txn : Nat) : Nat :=
  (((b.peer? p).bind (fun q => q.performed.find? (fun e => e.txn == txn))).map (·.port)).getD n

/-- An answer sent back by the port its message came by, and kept in the record; a route that is lost drops it (R428,
R429). -/
def reply (b : Block) (n p mtype status txn : Nat) (body : Bytes) : Block :=
  let msg := mkMsg mtype b.package p status txn (b.od' 0x2700 4) body
  let m := b.answerPort n p txn
  let b1 := b.modPeer p (fun q =>
    { q with performed := updFirst (fun e => e.txn == txn) (fun e => { e with answer := some msg }) q.performed })
  if b1.portUp m then b1.sendOn m 0 msg else b1

/-- The body of a RACK (R433). -/
def rackBody (table row elem0 : Nat) : Bytes :=
  natLE 16 (pack [(0, table), (16, row), (64, elem0)])

/-- One message that a lost port or transit carried, sent again on another route (R429, R444). -/
def resendOne (b : Block) (p : Nat) (s : SentMsg) : Block :=
  if b.rollRefuses p && mg s.bytes 5 0 < mtBeacon then b.refuseMsg p s
  else match b.routeOf p (mg s.bytes 5 0) s.hash with
    | none => b
    | some (n, t) =>
      ((b.modPeer p (fun q => { q with
        awaiting := updFirst (fun x => x.txn == s.txn) (fun x => { x with port := n, transit := t }) q.awaiting,
        rowRoutes := if mg s.bytes 5 0 == mtRadd then (s.hash, n, t) :: q.rowRoutes.filter (fun e => e.1 != s.hash)
          else q.rowRoutes })).count 0x2704 0x0B 1).sendOn n 0 s.bytes

/-- The messages to a peer that a lost port or transit carried, sent again on another route in their order (R429). -/
def resend (b : Block) (lost : Nat → SentMsg → Bool) : Block :=
  b.seryo.peers.foldl (fun b p => (p.awaiting.filter (lost p.number)).foldl (fun b s => b.resendOne p.number s) b) b

/-! ### Neighbours, presence, reference -/

/-- OD 0x2703: present peers, direct routes, reference (R445, R449). -/
def showPeers (b : Block) : Block :=
  let r := (b.seryo.peers.map (·.number)).foldl min b.package
  ((b.setOd 0x2703 1 b.presentMap).setOd 0x2703 2 b.directMap).setOd 0x2703 3 r

/-- A ROUTE on every UP port (R443). -/
def sendRoutes (b : Block) (lost found : Nat) : Block :=
  b.upPorts.foldl (fun b n =>
    b.sendOn n 0 (mkMsg mtRoute b.package (b.neighbour n) 0 0 (b.od' 0x2700 4) (natLE 8 lost ++ natLE 8 found))) b

/-- Every change of the mismatch bitmap raises one ROLL_CALL event (R444). -/
def setMismatch (b : Block) (map epoch : Nat) : Block :=
  if b.od' 0x2702 4 == map then b
  else (b.setOd 0x2702 4 map).seryoEvent 3 0 0 0 0 map epoch

/-- A tile that will not be delivered counts its rows as poisoned (R257). -/
def lostTile (f : Flow) (t : Tile) : Flow :=
  if f.id == t.flow then
    { f with poisonSeen := true, poisonCount := f.poisonCount + t.rows, tilesDone := f.tilesDone + 1 }
  else f

/-- Departure of peer p: its outstanding work answered or counted, its satchels and claims given up (R447). -/
def depart (b : Block) (p : Nat) : Block :=
  match b.peer? p with
  | none => b
  | some q =>
    let fs := b.flows.map (failRows (fun r => r.peer == p) 1)
    let adds := ((q.awaiting ++ q.backlog).filter (fun s => mg s.bytes 5 0 == mtRadd)).length
    let st := b.streams
    let qs := st.queues.map (fun s => { s with
      sats := s.sats.map (fun x => match x.remote with
        | some (k, _) => if k == p && x.state == .granted then Satchel.empty else x
        | none => x) })
    let mine := st.claims.filter (fun c => (c.remote.map (·.1)) == some p)
    let b1 : Block := { b with
      flows := fs.map (fun f => (mine.filterMap (·.tile)).foldl lostTile f),
      streams := { st with queues := qs, claims := st.claims.filter (fun c => (c.remote.map (·.1)) != some p) },
      seryo := { b.seryo with peers := b.seryo.peers.filter (fun x => x.number != p),
                              tiles := b.seryo.tiles.filter (fun t => t.peer != p),
                              tileNext := b.seryo.tileNext.filter (fun e => e.1 / 2 ^ 64 != p) } }
    let b2 := (b1.count 0x2303 6 adds).count 0x2704 0x0A 1
    let ev := pack [(0, 2), (8, p), (32, q.heardAt)]
    ((b2.event 6 ev).setMismatch (b2.od' 0x2702 4 - (if b2.mismatched p then 2 ^ p else 0)) 0).showPeers

/-- Every present peer without a route departs (R441, R447). -/
def departLost (b : Block) : Block :=
  (b.seryo.peers.filter (fun p => (b.route p.number 0).isNone)).foldl (fun b p => b.depart p.number) b

/-- After the set of direct routes may have changed from `old`: ROUTE messages, OD 0x2703, departures. -/
def routesChanged (b : Block) (old : Nat) : Block :=
  let new := b.directMap
  let b1 := if new == old then b else b.sendRoutes (old &&& (new ^^^ (2 ^ 64 - 1))) (new &&& (old ^^^ (2 ^ 64 - 1)))
  b1.showPeers.departLost

/-- A first BEACON makes a package present: a new session (R428, R438, R439). -/
def arrive (b : Block) (p incarn ident : Nat) : Block :=
  let q : Peer := { number := p, incarn := incarn, ident := ident, neighbours := 0, ref := p, refDist := 0, digest := 0,
                    commitEpoch := 0, txn := 0, awaiting := [], backlog := [], rowRoutes := [], performed := [],
                    heardAt := b.time }
  let ps := b.seryo.peers
  let b1 : Block := { b with seryo := { b.seryo with
    peers := ps.filter (fun x => x.number < p) ++ q :: ps.filter (fun x => p < x.number) } }
  (b1.seryoEvent 1 p 0 0 0 0 0).showPeers

/-! ### Port states (R425) -/

/-- A port's state changes: OD 0x2701, one PORT_STATE event with the neighbour that a HELLO has made known, a link without
history outside UP. An ISOLATED port sends IDLE flits only. -/
def setPortState (b : Block) (n dest : Nat) : Block :=
  let fr := b.portState n
  if fr == dest then b
  else
    let known := b.neighbour n
    let b1 := (b.setOd 0x2701 (n + 1) dest).seryoEvent 0 (if known == 0xFF then 0 else known) n fr dest 0 0
    if dest == psUp then b1
    else
      let p := b1.port n
      let b2 := (b1.setOd 0x2701 (0x21 + n) 0xFF).putPort
        { blankPort n with sent := p.sent, pairNo := p.pairNo, trainAt := b.time, goodAt := b.time }
      if dest == psIsolated then (b2.sendIdle n).idleFill n else b2

/-- A flap remembered; 16 within 1 s are the fault PORT_FLAP (R501). -/
def flap (b : Block) (n : Nat) : Block :=
  let fs := (b.faults.flaps.filter (fun e => b.time < e.2 + 1000000000)) ++ [(n, b.time)]
  let b1 : Block := { b with faults := { b.faults with flaps := fs } }
  if 16 ≤ (fs.filter (fun e => e.1 == n)).length then
    ({ b1 with faults := { b1.faults with flaps := fs.filter (fun e => e.1 != n) } } : Block).found 0x0C (0x300 + n) 0 false
  else b1

/-- A port leaves its state for `to`; from UP it counts, is remembered as a flap when it goes DOWN, and its messages go
another way (R425, R429, R446). -/
def leavePort (b : Block) (n dest : Nat) : Block :=
  if b.portUp n then
    let old := b.directMap
    let b1 := (b.setPortState n dest).count 0x2704 6 (b2n (dest != psIsolated))
    let b2 := if dest == psDown then b1.flap n else b1
    (b2.resend (fun _ s => s.port == n)).routesChanged old
  else b.setPortState n dest

/-- GOODBYE on a port that is UP, which then goes DOWN; from any other state, or then, the port goes to `dest` (R425,
R508). -/
def goodbyePort (b : Block) (n dest : Nat) : Block :=
  (if b.portUp n then ((b.sendGoodbye n).idleFill n).leavePort n psDown else b).leavePort n dest

/-- GOODBYE on every UP port, which goes DOWN, and a TRAINING port with it; an ISOLATED port stays so (R425, R476, R517). -/
def goodbyeAll (b : Block) : Block :=
  (List.range 32).foldl (fun b n =>
    if b.portUp n || b.portState n == psTraining then b.goodbyePort n psDown else b) b

/-- The ports take the states that OD 0x2700.02 gives them: a cleared bit DISABLES a port with GOODBYE first, a set bit
brings a DISABLED port DOWN; a port in detention stays DISABLED (R425, R449, R508). -/
def applyPortEnable (b : Block) : Block :=
  (List.range 32).foldl (fun b n =>
    let on := bit (b.od' 0x2700 2) n && !b.portFenced n
    if on then (if b.portState n == psDisabled then b.setPortState n psDown else b)
    else if b.portState n == psDisabled then b else b.goodbyePort n psDisabled) b

/-- A BEACON on a port (R443). -/
def sendBeacon (b : Block) (n : Nat) : Block :=
  let r := b.od' 0x2703 3
  let dist := if r == b.package then 0 else if (b.directPorts r).isEmpty then 2 else 1
  let body := pack [(0, b.time), (64, n), (72, r), (78, dist), (128, b.directMap), (192, b.od' 0x2702 2),
    (320, b.od' 0x2702 3), (384, b.od' 0x1000 7)]
  b.sendOn n 0 (mkMsg mtBeacon b.package (b.neighbour n) 0 0 (b.od' 0x2700 4) (natLE 56 body))

/-- A BEACON on every UP port (R443). -/
def sendBeacons (b : Block) : Block := b.upPorts.foldl sendBeacon b

end Block

end Sys2Proof.Machine
end

