-- ==== Sys2Proof/Machine/Detain.lean ====
section
/-! DEFINITION. The fault collector (17_faults.md): grading and escalation, detention of each kind of unit, fencing a
wing, block stop; the engine reset of R483; and the end of every step, where found faults are graded and writes land. -/

namespace Sys2Proof.Machine

/-! ### Classes and units (R501 to R504) -/

/-- A class that R501 or R540 defines. -/
def classKnown (c : Nat) : Bool := (1 ≤ c && c ≤ 0x0E) || (0x40 ≤ c && c ≤ 0x42)

/-- A unit number that R503 defines. -/
def unitKnown (u : Nat) : Bool :=
  u ≤ 0x21 || (0x100 ≤ u && u < 0x100 + 280) || (0x300 ≤ u && u < 0x320) || (0x400 ≤ u && u < 0x420) || u == 0x500 ||
    (0x600 ≤ u && u < 0x608) || u == 0x700

/-- A stream unit. -/
def isSu (u : Nat) : Bool := u < 0x20
/-- A wing. -/
def isWing (u : Nat) : Bool := u == 0x20 || u == 0x21
/-- A channel agent. -/
def isAgent (u : Nat) : Bool := 0x100 ≤ u && u < 0x100 + 280
/-- A Seryo port. -/
def isPortUnit (u : Nat) : Bool := 0x300 ≤ u && u < 0x320
/-- A row-cache way. -/
def isWay (u : Nat) : Bool := 0x400 ≤ u && u < 0x420
/-- A copy of a duplicated unit. -/
def isCopy (u : Nat) : Bool := 0x600 ≤ u && u < 0x608

/-- The wing of a number 0 or 1. -/
def wingAt (n : Nat) : Wing := if n == 0 then .north else .south
/-- The other wing. -/
def otherWing (w : Wing) : Wing := match w with | .north => .south | .south => .north

/-- Default level of a class for a unit (R501, R502, R540). -/
def defaultLevel (cls unit : Nat) : Nat :=
  match cls with
  | 5 | 6 | 0x0A | 0x0C | 0x0D | 0x0E => 1
  | 7 | 9 | 0x40 => 2
  | 8 => if isWing unit || unit == 0x500 then 2 else 1
  | _ => 0

/-- The class names a unit to fence at level 1 (R501). -/
def namesUnit (cls : Nat) : Bool := !(cls == 4 || cls == 7 || cls == 9 || cls == 0x0B || cls == 0x40)

/-- Classes that take none of steps 2 to 6 of R504. -/
def noticeClass (cls : Nat) : Bool := cls == 0x41 || cls == 0x42

namespace Block

/-- The engine has core rail good: it is past step 1 of R477. -/
def powered (b : Block) : Bool := 2 ≤ b.startUp.step

/-- The follower wing. -/
def follower (b : Block) : Wing := if b.holder then .north else .south
/-- The holder wing. -/
def holderWing (b : Block) : Wing := if b.holder then .south else .north

/-- The wing a fault belongs to (R504): the bridge's own faults belong to the follower, its MAINTENANCE to no wing. -/
def faultWing (b : Block) (cls unit : Nat) : Option Wing :=
  if isSu unit then some (wingOf unit)
  else if isWing unit then some (wingAt (unit - 0x20))
  else if isWay unit then some (wingAt ((unit - 0x400) / 16))
  else if unit == 0x500 && (cls == 8 || cls == 9) then some b.follower
  else none

/-- Telemetry samples: from the end of start-up, while it is not in detention (R15, R508). -/
def samples (b : Block) : Bool := b.startUp.telemetry && b.od' 0x2802 9 == 0

/-- The unit is in detention. -/
def fenced (b : Block) (u : Nat) : Bool :=
  if isSu u then b.suFenced u
  else if isWing u then bit (b.od' 0x2802 4) (u - 0x20)
  else if isAgent u then bit (b.od' 0x2802 (0x10 + (u - 0x100) / 64)) ((u - 0x100) % 64)
  else if isPortUnit u then b.portFenced (u - 0x300)
  else if isWay u then bit (b.od' 0x2802 7) (u - 0x400)
  else if u == 0x500 then b.faults.bridgeFenced
  else if isCopy u then bit (b.od' 0x2802 8) (u - 0x600)
  else if u == 0x700 then b.od' 0x2802 9 == 1
  else false

/-- Bit i of an entry set or cleared. -/
def setBit (b : Block) (index sub i : Nat) (v : Bool) : Block :=
  let w := b.od' index sub
  if bit w i == v then b else b.setOd index sub (if v then w + 2 ^ i else w - 2 ^ i)

/-- A record slot of OD 0x2810 (R525). -/
def slotRec (b : Block) (k : Nat) : Nat := b.od' 0x2810 k
/-- OPEN of a record slot. -/
def recOpen (w : Nat) : Bool := bit w 44
/-- Slots with an open record. -/
def openRecs (b : Block) : List Nat := (List.range 64).filter (fun k => recOpen (b.slotRec k))

/-- A record of the same class as a fault (R504): same code and unit; LEASE faults are all of one class. -/
def sameClass (cls unit w : Nat) : Bool := bits w 39 32 == cls && (bits w 63 48 == unit || cls == 0x0B)

/-- Highest level among the open records of the same class; none without one. -/
def openLevel (b : Block) (cls unit : Nat) : Option Nat :=
  let ls := (b.openRecs.map b.slotRec).filter (sameClass cls unit)
  if ls.isEmpty then none else some ((ls.map (fun w => bits w 41 40)).foldl max 0)

/-- An open record names the unit. -/
def openNames (b : Block) (unit : Nat) : Bool := b.openRecs.any (fun k => bits (b.slotRec k) 63 48 == unit)

/-- Stream units in service. -/
def susUp (b : Block) : List Nat := (List.range 32).filter b.suUp

/-- Every stream unit in service belongs to the wing, which is in service: with it the last wing or the last stream unit
would go. -/
def lastWing (b : Block) (w : Wing) : Bool :=
  b.wingUp w && (!b.wingUp (otherWing w) || b.susUp.all (fun su => wingOf su == w))

/-- Fencing the unit, or the wing, would leave no copy, stream unit or wing in service (step 5 of R504); the bridge takes a
follower in service with it (R508). -/
def lastOne (b : Block) (u : Nat) : Bool :=
  if isCopy u then b.fenced (0x600 + ((u - 0x600) ^^^ 1))
  else if isSu u then b.susUp == [u]
  else if isWing u then b.lastWing (wingAt (u - 0x20))
  else if u == 0x500 then b.lastWing b.follower
  else false

/-- Ways of a half in detention. -/
def waysFenced (b : Block) (half : Nat) : Nat :=
  ((List.range 16).filter (fun w => bit (b.od' 0x2802 7) (16 * half + w))).length

/-- Level after steps 3 to 6 of R504. -/
def grade (b : Block) (cls unit lvl : Nat) : Nat :=
  let l3 := if lvl == 1 && !namesUnit cls then 2 else lvl
  let l4 := if l3 == 2 && (b.faultWing cls unit).isNone then 3 else l3
  let l5 :=
    if l4 == 1 && b.lastOne unit then 3
    else if l4 == 2 && ((b.faultWing cls unit).map b.lastWing).getD false then 3
    else l4
  if isWay unit && 8 ≤ b.waysFenced ((unit - 0x400) / 16) then 0 else min 3 l5

/-- The level a fault is handled at (R504, R505): with all 64 records open it is taken one above its class. -/
def faultLevel (b : Block) (cls unit : Nat) : Nat :=
  let d := defaultLevel cls unit
  if noticeClass cls then 0
  else
    let lvl :=
      if b.openRecs.length == 64 then 1 + max d ((b.openLevel cls unit).getD d)
      else match b.openLevel cls unit with
        | none => d
        | some l => l + 1
    b.grade cls unit (min 3 lvl)

/-! ### Detention (R508 to R514) -/

/-- Flows of a stream unit end (R510). -/
def endSuFlows (b : Block) (su : Nat) : Block :=
  let b1 := (slotsOf su).foldl (fun b n => (b.endGen n stFencedUnit).dropPending n stFencedUnit) b
  (b1.flows.filter (fun f => f.su == su && f.stream.isNone && !f.statuses.contains stFencedUnit)).foldl
    (fun b f => b.endFlow f.id stFencedUnit) b1

/-- A stream unit enters detention. -/
def fenceSu (b : Block) (su : Nat) : Block := (b.setBit 0x2802 3 su true).endSuFlows su

/-- A request dropped by its agent: a write counts as one to an absent range, a row operation as one not performed,
which its remote sender hears of by a RACK with STATUS POISONED (R319, R430, R508). A record of the engine's own counts as
handled: what follows it comes. -/
def dropRequest (b : Block) (r : AgentReq) : Block :=
  match rowSpan r.op, r.op with
  | _, .append _ _ _ _ =>
    let b1 := b.count 0x2303 6 1
    match r.flow with
    | none => b1
    | some id => (b1.poisonOnly id).modFlow id (fun f =>
        { f with search := f.search.map (fun w => { w with phase := 4 }) })
  | none, _ => r.after.foldl runAfter (b.count 0x2504 0x0C 1)
  | some _, _ =>
    let b1 := b.count 0x2303 6 1
    let b2 := match r.flow with | none => b1 | some id => b1.addPoison id 1
    match r.remote with
    | none => b2
    | some o => b2.reply o.port o.peer mtRack 1 o.txn (rackBody o.table o.row o.elem0)

/-- Requests dropped from the agents' queues (R508, R517). -/
def dropRequests (b : Block) (p : AgentReq → Bool) : Block :=
  let gone := b.agents.queue.filter p
  let b1 : Block := { b with agents := { b.agents with queue := b.agents.queue.filter (fun r => !p r) } }
  gone.foldl dropRequest b1

/-- A channel agent enters detention: its waiting requests are answered, its lock entries released. -/
def fenceAgent (b : Block) (a : Nat) : Block :=
  let b1 := (b.setBit 0x2802 (0x10 + a / 64) (a % 64) true).dropRequests (fun r => r.port == a)
  { b1 with agents := { b1.agents with locks := b1.agents.locks.filter (fun k => k.1 != a) } }

/-- Pass in force of a wing (OD 0x2900). -/
def pass (b : Block) (w : Wing) : Nat := b.od' 0x2900 (1 + wingNo w)
/-- Power interface of a wing. -/
def wingPower (b : Block) (w : Wing) : WingPower := match w with | .north => b.power.north | .south => b.power.south
/-- Power interface of a wing replaced. -/
def setWingPower (b : Block) (w : Wing) (p : WingPower) : Block :=
  match w with
  | .north => { b with power := { b.power with north := p } }
  | .south => { b with power := { b.power with south := p } }

/-- A message to the power manager. -/
def sendPower (b : Block) (m : PowerMsg) : Block := { b with power := { b.power with out := b.power.out ++ [m] } }

/-- A wing gives its pass back; it then holds 0 W (R530, R531). -/
def returnPass (b : Block) (w : Wing) : Block :=
  if b.pass w == 0 && (b.wingPower w).next.isNone then b
  else
    let b1 := (b.setOd 0x2900 (1 + wingNo w) 0).sendPower (.giveBack (w == .south))
    b1.setWingPower w { b1.wingPower w with next := none, steps := 0 }

/-- The TOKEN event of R522; INTERRUPT_NS is a free value within R518. -/
def tokenEvent (b : Block) (cause : Nat) : Block :=
  let n := b.fresh
  n.2.event 3 (pack [(0, b2n n.2.holder), (1, cause), (32, n.2.od' 0x2803 2), (96, (Config.freeInterruptNs n.1).val)])

/-- Lease epoch a wing holds. -/
def wingEpoch (b : Block) (w : Wing) : Nat := match w with | .north => b.faults.epochNorth | .south => b.faults.epochSouth
/-- A wing takes the collector's epoch. -/
def takeEpoch (b : Block) (w : Wing) : Block :=
  match w with
  | .north => { b with faults := { b.faults with epochNorth := b.od' 0x2803 2 } }
  | .south => { b with faults := { b.faults with epochSouth := b.od' 0x2803 2 } }

/-- The token given to a wing: the epoch raised, the transfer counted (R515). -/
def giveToken (b : Block) (w : Wing) (cause : Nat) : Block :=
  let b1 := (((b.setOd 0x2803 1 (wingNo w)).count 0x2803 2 1).count 0x2803 3 1).takeEpoch w
  let b2 : Block := { b1 with faults := { b1.faults with renewed := b1.time, confirmed := b1.time, claim := false,
                                                         lapsed := false } }
  b2.tokenEvent cause

/-- Satchel queues of a fenced wing lose their contents, and flows that name one end (R513). -/
def fenceQueues (b : Block) (w : Wing) : Block :=
  let mine := (b.streams.queues.filter (fun q => q.south == (w == .south))).map (·.number)
  let hit := fun (q : Option Nat) => (q.map mine.contains).getD false
  let b1 := (b.flows.filter (fun f => hit f.intoQ || hit f.fromQ)).foldl (fun b f =>
    match f.stream with
    | some n => b.endGen n stFencedUnit
    | none => if f.statuses.contains stFencedUnit then b else b.endFlow f.id stFencedUnit) b
  { b1 with streams := { b1.streams with
      queues := b1.streams.queues.map (fun q =>
        if mine.contains q.number then
          { q with sats := q.sats.map (fun _ => Satchel.empty), consumer := none, turns := [], interval := 0,
                   lastTake := none }
        else q)
      claims := b1.streams.claims.filter (fun c => (c.tile.isSome && c.remote.isSome) || !mine.contains c.queue) } }

/-- A wing enters detention (R513); under BRIDGE_DOWN its row-cache half goes too (R514). -/
def fenceWing (b : Block) (w : Wing) (bridge : Bool) : Block :=
  let b0 := b.setBit 0x2802 4 (wingNo w) true
  let b1 := ((List.range 16).map (· + 16 * wingNo w)).foldl (fun b su => if b.suFenced su then b else b.fenceSu su) b0
  let b2 := ((b1.fenceQueues w).setEngine w WingEngine.empty).returnPass w
  let b3 := if bridge then b2.dropHalf (w == .south) else b2
  if b3.holderWing == w then b3.giveToken (otherWing w) 2 else b3

/-- The wing bridge enters detention, and a follower in service with it (R508). DESIGN CHOICE (log 53): the half of a
follower that is out of service already cannot be reached any more, and is dropped as R514 gives. -/
def fenceBridge (b : Block) : Block :=
  let b1 : Block := { b with faults := { b.faults with bridgeFenced := true } }
  if b1.wingUp b1.follower then b1.fenceWing b1.follower true
  else if b1.cache.gone.isNone then b1.dropHalf (b1.follower == .south)
  else b1

/-- A unit enters detention (R508). DESIGN CHOICE (log 63): the telemetry entries are OD 0x2901.02 to .04. -/
def fenceUnit (b : Block) (u : Nat) : Block :=
  if isSu u then { b with faults := { b.faults with ownFence := u :: b.faults.ownFence.erase u } }.fenceSu u
  else if isWing u then b.fenceWing (wingAt (u - 0x20)) false
  else if isAgent u then b.fenceAgent (u - 0x100)
  else if isPortUnit u then (b.setBit 0x2802 6 (u - 0x300) true).goodbyePort (u - 0x300) psDisabled
  else if isWay u then (b.setBit 0x2802 7 (u - 0x400) true).fenceWay (16 ≤ u - 0x400) ((u - 0x400) % 16)
  else if u == 0x500 then b.fenceBridge
  else if isCopy u then b.setBit 0x2802 8 (u - 0x600) true
  else if u == 0x700 then b.setOd 0x2802 9 1
  else b

/-! ### Block stop and engine reset -/

/-- Every flow abandoned without a record, and what flows had in rings' stead, arrays, satchels and bells (R483,
R517). -/
def abandon (b : Block) : Block :=
  let b1 := b.streams.slots.foldl (fun b s =>
    b.putSlot { s with gen := none, pendingGen := none, ringing := false, part := [], partPoison := [] }) b
  { b1 with
    flows := [], waiting := [], words := [], heldBack := [], north := WingEngine.empty, south := WingEngine.empty,
    agents := { b1.agents with shareWaits := [] },
    streams := { b1.streams with
      queues := b1.streams.queues.map (fun q =>
        { q with sats := q.sats.map (fun _ => Satchel.empty), consumer := none, turns := [] })
      claims := []
      bells := [] } }

/-- A request that survives a block stop: an accepted WRITE_BACK. -/
def isWriteBack (r : AgentReq) : Bool := match r.op with | .writeBack _ _ _ => true | _ => false

/-- Row operations among dropped requests are counted, and nothing else is (R517). -/
def loseRequests (b : Block) (keep : AgentReq → Bool) : Block :=
  let lost := b.agents.queue.filter (fun r => !keep r)
  let n := (lost.filter (fun r => (rowSpan r.op).isSome)).length
  ({ b with agents := { b.agents with queue := b.agents.queue.filter keep } } : Block).count 0x2303 6 n

/-- Every staging copy dropped, and every set IDLE (R469). -/
def dropStagings (b : Block) : Block :=
  b.dict.staging.foldl (fun b s => b.setOd 0x1F00 (0x20 + s.set) 0) { b with dict := { b.dict with staging := [] } }

/-- Level 3: the engine enters STOPPED (R469, R517); a HALTED engine, which only a reset or a cold start brings out of
HALTED, stays so (R478; log 51). -/
def blockStop (b : Block) : Block :=
  if b.engineState == 4 then b
  else
    let b1 := ((b.setOd 0x2000 4 3).abandon.dropStagings.loseRequests isWriteBack).goodbyeAll
    (b1.returnPass .north).returnPass .south

/-- The record of a fault in the lowest free slot (R505, R525). -/
def openRecord (b : Block) (word : Nat) : Block :=
  match (List.range 64).find? (fun k => !recOpen (b.slotRec k)) with
  | none => b
  | some k =>
    let b1 := b.setOd 0x2810 k (word + 2 ^ 44)
    ({ b1 with faults := { b1.faults with opened := mapSet b1.faults.opened (2 ^ 64) k b1.time } } : Block).setOd 0x2801 1
      b1.openRecs.length

/-- What the collector does at a level (R500). -/
def react (b : Block) (cls unit lvl : Nat) : Block :=
  if lvl == 0 then b
  else if lvl == 1 then b.fenceUnit unit
  else if lvl == 2 then
    if unit == 0x500 then b.fenceBridge
    else match b.faultWing cls unit with
      | none => b
      | some w => if cls == 9 then b.fenceBridge else b.fenceWing w false
  else b.blockStop

/-- A fault is graded, recorded and reacted to, and its FAULT event written (R500 to R505, R521). A fenced unit reports
nothing. -/
def raiseFault (b : Block) (cls unit addr detail : Nat) (inj : Bool) : Block :=
  if b.fenced unit && !noticeClass cls then b
  else
    let lvl := b.faultLevel cls unit
    let esc := defaultLevel cls unit < lvl
    let no := b.faults.lastNo + 1
    let full := b.openRecs.length == 64
    let b0 := (b.count 0x2801 5 1).count 0x2801 6 (b2n full)
    let b1 := b0.count 0x2801 7 (b2n esc)
    let b2 : Block := { b1 with faults := { b1.faults with lastNo := no } }
    let word := pack [(0, no), (32, cls), (40, lvl), (42, b2n esc), (43, b2n inj), (48, unit)]
    let b3 := if full then b2 else b2.openRecord word
    let a := if cls == 1 || cls == 2 || cls == 4 then addr else 0
    (b3.react cls unit lvl).event 1 (word + (b2n full) <<< 44 + a <<< 64 + detail <<< 128)

/-- OD 0x2202.0D: flows in flight of epochs other than the current one (R494). -/
def showOld (b : Block) : Block :=
  b.setOd 0x2202 0x0D (b.flows.filter (fun f => f.epoch != b.od' 0x2202 1)).length

/-- The faults found in a step graded, each with a free DETAIL (R521); effects of RELEASE commands that nothing holds any
more let go (R399); the count of old flows kept; what the ports must tell sent (R421). -/
def settle (b : Block) : Block :=
  { ((b.raised.foldl (fun (b : Block) e =>
      let n := b.fresh
      n.2.raiseFault e.1 e.2.1 e.2.2.1 (Config.freeFaultDetail n.1).toNat e.2.2.2)
      { b with raised := [] }).releaseBack.showOld.idleAll) with blocked := false }

end Block

/-- The end of every step: found faults are graded, then the step's writes land in memory. -/
def finish (s : State) (b : Block) : Out := .next (landed s b.settle)

/-- A step that answers nothing yet because a read waits (R324, R326, R332, R488): the state as it was, but for what shows
the wait. -/
def finishRead (s : State) (b : Block) : Out :=
  if b.blocked then .next { s with blk := s.blk.waited b none } else finish s b

namespace Block

/-- Parts of 10^-4 ns by which the counter slews in a nanosecond: 100 ppm up to 10 µs of offset, 1,000 ppm beyond
(R445). -/
def slewRate (b : Block) : Nat :=
  if b.seryo.slew == 0 then 0 else if b.seryo.slew.natAbs ≤ 100000000 then 1 else 10

/-- One nanosecond of the block's own clock: the counter follows its reference within the slew that R445 bounds, and never
steps nor runs backwards. -/
def tick (b : Block) : Block :=
  let r := b.slewRate
  let ahead := 0 < b.seryo.slew
  let f := b.seryo.frac
  let gain := ahead && 10000 ≤ f + r
  let lose := !ahead && f < r
  { b with
    time := (if gain then b.time + 2 else if lose then b.time else b.time + 1) % 2 ^ 64,
    seryo := { b.seryo with
      slew := if ahead then b.seryo.slew - r else b.seryo.slew + r,
      frac := if ahead then (f + r) % 10000 else if lose then f + 10000 - r else f - r } }

end Block

/-- An empty queue lets one nanosecond pass (R10, log 2). -/
def idleStep (s : State) : State := { s with blk := s.blk.tick }

namespace Block

/-- Entries that a start-up from step 2 does not set to a default (R545; log 4). -/
def keptOd (b : Block) : NatMap := b.od.filter (fun e => odKept.contains e.1 || odOutside.contains e.1)

/-- A wing's power interface after a reset: the rate last measured is kept (log 4). -/
def resetPower (p : WingPower) : WingPower := { Block.reset.power.north with rate := p.rate }

/-- Sequence counts of the wide slots once their entries are those of n (R455). -/
def movedWide (b n : Block) : NatMap :=
  (List.range 4).foldl (fun (seq : NatMap) w =>
    match wideKey w with
    | none => seq
    | some k => if b.od' (k / 256) (k % 256) == n.od' (k / 256) (k % 256) then seq
      else mapSet seq 0 w (add64 (mapGet seq 0 w) 2)) n.dict.wideSeq

/-- The step 2 of R477 that a reset begins (R482, R483, R545): kept entries, the kind in OD 0x2000.08, memory and the
host link untouched. -/
def restart (b : Block) (kind : Nat) : Block :=
  let n := ({ Block.reset with
      time := b.time, od := b.keptOd, posted := b.posted, freeCount := b.freeCount, nextFlow := b.nextFlow,
      agents := { Block.reset.agents with poisoned := b.agents.poisoned, failing := b.agents.failing },
      seryo := { Block.reset.seryo with
        ports := b.seryo.ports.map (fun p => { blankPort p.number with sent := p.sent, pairNo := p.pairNo }) },
      startUp := { Block.reset.startUp with retrainAt := b.startUp.retrainAt, expiredBelow := b.nextFlow },
      dict := { Block.reset.dict with mctpOut := b.dict.mctpOut, assembly := b.dict.assembly, wideSeq := b.dict.wideSeq },
      power := { Block.reset.power with out := b.power.out, north := resetPower b.power.north,
                                        south := resetPower b.power.south } } : Block).setOd 0x2000 8 kind
  { n with dict := { n.dict with wideSeq := b.movedWide n } }

/-- Dirty lines and accepted write-backs put into memory (R483 step 3); a line with an uncorrectable error is written
with the poison marking (R335). -/
def writeBackAll (b : Block) : Block :=
  let b1 := (b.agents.queue.filter isWriteBack).foldl (fun b r =>
    match r.op with
    | .writeBack a d p =>
      let b1 := b.tierWrite a d
      if p then b1.storePoisoned (unitBase a) else b1
    | _ => b) b
  (b1.cache.lines.filter (·.dirty)).foldl (fun b l =>
    let b1 := (b.dirtyRead l).tierWrite l.addr l.data
    if l.err == 2 then b1.storePoisoned (unitBase l.addr) else b1) b1

/-- Held writes to host memory dropped and counted (R483 step 4, R490). -/
def dropHeld (b : Block) : Block :=
  let n := ((b.agents.queue.filter (fun r => r.port == Config.hostPort)).map heldWrites).sum
  ({ b with agents := { b.agents with queue := b.agents.queue.filter (fun r => r.port != Config.hostPort) } } : Block).count
    0x2202 0x0A n

/-- An engine reset: ordered or forced, of a running or a stopped engine (R482, R483). -/
def engineReset (b : Block) (forced : Bool) : Block :=
  let stopped := b.engineState == 3
  let b1 := (b.setOd 0x2000 4 5).goodbyeAll
  let b2 := (b1.returnPass .north).returnPass .south
  let b3 := if forced then b2.count 0x2000 0x0B (b2.cache.lines.filter (·.dirty)).length else b2.writeBackAll
  (b3.dropHeld).restart (if stopped then 3 else if forced then 2 else 1)

end Block

end Sys2Proof.Machine
end

