-- ==== Sys2Proof/Machine/Formats.lean ====
section
/-! DEFINITION. The fifteen number formats (03_number_formats.md): widths and groups, decoding, default scales, and the
one conversion with its tallies. -/

namespace Sys2Proof.Machine

/-! ### Format codes (R66, R32) -/

/-- Bits of one element (R32). -/
def fmtBits (f : Nat) : Nat :=
  match f with
  | 0 | 8 => 32
  | 1 | 2 | 9 => 16
  | 5 | 6 => 6
  | 7 | 11 | 13 => 4
  | 14 => 3
  | _ => 8

/-- BELL8, BELL4 or BELL3. -/
def isBell (f : Nat) : Bool := f == 12 || f == 13 || f == 14

/-- One of the microscaled formats: an E8M0 scale per 32 elements. -/
def isMicro (f : Nat) : Bool := (3 ≤ f && f ≤ 7) || f == 10 || f == 11

/-- INT32 or INT16. -/
def isPlainInt (f : Nat) : Bool := f == 8 || f == 9

/-- Elements of a group; 0 where the format has no group scale (R32). -/
def fmtGroup (f : Nat) : Nat := if isBell f then 64 else if isMicro f then 32 else 0

/-- Bytes of a group scale (R32). -/
def fmtScaleBytes (f : Nat) : Nat := if isBell f then 2 else if isMicro f then 1 else 0

/-- Groups of a row of `dim` elements. -/
def fmtGroups (f dim : Nat) : Nat := if fmtGroup f == 0 then 0 else ceilDiv dim (fmtGroup f)

/-- Bytes of the codes area (02_tables_rows_desks.md, the area table). -/
def codesBytes (f dim : Nat) : Nat := roundUp (ceilDiv (dim * fmtBits f) 8) 2

/-- Bytes of the scales area. -/
def scalesBytes (f dim : Nat) : Nat := roundUp (fmtGroups f dim * fmtScaleBytes f) 2

/-- The float layout of a format; FP32 where the format is no float. -/
def fmtFloat (f : Nat) : FloatFmt :=
  match f with
  | 1 => bf16Fmt
  | 2 => fp16Fmt
  | 3 => fp8e4Fmt
  | 4 => fp8e5Fmt
  | 5 => fp6e3Fmt
  | 6 => fp6e2Fmt
  | 7 => fp4Fmt
  | _ => fp32Fmt

/-- A format whose codes are floats. -/
def isFloat (f : Nat) : Bool := f ≤ 7

/-- Fraction bits of an integer element: 6 for INT8, 2 for INT4, none for plain integers (R75, R76). -/
def intFrac (f : Nat) : Nat := if f == 10 then 6 else if f == 11 then 2 else 0

/-- Largest magnitude an integer format encodes, in units of its grid (R75, R85). -/
def intMax (f : Nat) : Nat :=
  if f == 8 then 2 ^ 31 - 1 else if f == 9 then 32767 else if f == 10 then 127 else 7

/-! ### BELL levels (R77 to R79) -/

/-- BELL8 levels in units of 1/4096 (R79): t * (0.375 + 0.625 t), t = m / 127, rounded to nearest. -/
def bell8Level (m : Nat) : Nat :=
  let n := 4096 * (375 * m * 127 + 625 * m * m)
  let d := 1000 * 127 * 127
  (2 * n + d) / (2 * d)

/-- BELL4 levels in units of 1/256 (R78). -/
def bell4Levels : List Nat := [0, 28, 57, 88, 123, 164, 210, 256]

/-- BELL3 levels in units of 1/256 (R78). -/
def bell3Levels : List Nat := [0, 74, 152, 256]

/-- Level m of a BELL format. -/
def bellLevel (f m : Nat) : Nat :=
  if f == 12 then bell8Level m else if f == 13 then bell4Levels.getD m 0 else bell3Levels.getD m 0

/-- log2 of the unit of a BELL level. -/
def bellUnit (f : Nat) : Int := if f == 12 then -12 else -8

/-- Largest magnitude index of a BELL format. -/
def bellTop (f : Nat) : Nat := if f == 12 then 127 else if f == 13 then 7 else 3

/-- The escape code (R77). -/
def bellEscape (f : Nat) : Nat := if f == 12 then 0x80 else if f == 13 then 0x8 else 0x4

/-- Value of a BELL code that is no escape, for a BF16 scale (R77). -/
def bellDecode (f c : Nat) (scale : Num) : Num :=
  let w := fmtBits f - 1
  let m := c % 2 ^ w
  if scale.isNan then .nan
  else if scale.isZero || m == 0 then Num.zero
  else Num.mul (.fin (c.testBit w) (bellLevel f m) (bellUnit f)) scale

/-! ### Decoding (R69, R72 to R77) -/

/-- Value of an E8M0 scale byte (R74). -/
def e8m0 (x : Nat) : Num := if x == 255 then .nan else .fin false 1 ((x : Int) - 127)

/-- A value times 2^(x - 127); every element of a group whose scale is 0xFF is NaN (R74). -/
def microScale (x : Nat) (v : Num) : Num := if x == 255 then .nan else v.scale2 ((x : Int) - 127)

/-- The exact value of a code under its raw group scale; none for a BELL escape (R69, R80). -/
def decodeCode (f c scale : Nat) : Option Num :=
  if isBell f then (if c == bellEscape f then none else some (bellDecode f c (ofBf16 scale)))
  else
    let raw : Num :=
      if isFloat f then (fmtFloat f).decode c
      else (Num.ofInt (sext (fmtBits f) c)).scale2 (-(intFrac f : Int))
    some (if isMicro f then microScale scale raw else raw)

/-- Raw group scale number g of a scales area. -/
def scaleAt (f : Nat) (scales : Bytes) (g : Nat) : Nat :=
  leNat (slice scales (g * fmtScaleBytes f) (fmtScaleBytes f))

/-- Codes of a row area as numbers (R68). -/
def codeList (f dim : Nat) (codes : Bytes) : List Nat :=
  let area := leNat codes
  (List.range dim).map (codeAt (fmtBits f) area)

/-! ### Default scales (R81) -/

/-- The largest magnitude among the finite elements, exactly; +0 where there is none (R81). -/
def amax (xs : List Num) : Num :=
  xs.foldl (fun a x => if x.isFinite && a.lt x.abs then x.abs else a) Num.zero

/-- Largest exponent of a microscaled element format (R81). -/
def emax (f : Nat) : Int :=
  match f with
  | 3 => 8
  | 4 => 15
  | 5 => 4
  | 6 => 2
  | 7 => 2
  | _ => 0

/-- floor(log2) of a positive finite value. -/
def floorLog2 : Num → Int
  | .fin _ m e => (Nat.log2 m : Int) + e
  | _ => 0

/-- A finite value rounded toward +∞ to BF16, its magnitude at most that of 0x7F7F (R81); R93 may ask it of a negative
value. -/
def bf16Up : Num → Nat
  | .fin neg m e =>
    if m == 0 then 0
    else
      let q := max ((Nat.log2 m : Int) + e - 7) bf16Fmt.qmin
      let s := e - q
      let k := if 0 ≤ s then m * 2 ^ s.toNat else if neg then m / 2 ^ (-s).toNat else ceilDiv m (2 ^ (-s).toNat)
      (b2n neg) <<< 15 + min 0x7F7F (bf16Fmt.codeOf (k, q))
  | _ => 0

/-- The E8M0 byte 2^(k + 127) limited to 0 to 254 (R81). -/
def e8m0Of (k : Int) : Nat := (min 254 (max 0 (k + 127))).toNat

/-- The default raw scale of a group from its largest finite magnitude (R81). -/
def defaultScaleOf (f : Nat) (a : Num) : Nat :=
  if isBell f then bf16Up a
  else if a.isZero then 127 else e8m0Of (floorLog2 a - emax f)

/-- The default raw scale of a group (R81). -/
def defaultScale (f : Nat) (xs : List Num) : Nat := defaultScaleOf f (amax xs)

/-! ### Conversion (R82 to R89) -/

/-- OVF_INF of CONV (R84). -/
def convOvf (conv : Nat) : Bool := bit conv 0
/-- CAPTURE of CONV (R84). -/
def convCapture (conv : Nat) : Bool := bit conv 1
/-- A CONV value whose reserved bits are zero (R84). -/
def convOk (conv : Nat) : Bool := conv < 4

/-- What one element became. -/
structure Elem where
  code : Nat
  /-- Beyond the largest code, and not escaped (R89). -/
  sat : Bool
  /-- The element asks for an escape entry (R85, R87). -/
  wantsEscape : Bool
  /-- The element turns its group's scale into NaN, or is a NaN written as integer 0 (R87, R89). -/
  nan : Bool
  deriving DecidableEq, Repr

/-- An ordinary result. -/
def Elem.plain (c : Nat) : Elem := { code := c, sat := false, wantsEscape := false, nan := false }
/-- A saturated result. -/
def Elem.satur (c : Nat) : Elem := { code := c, sat := true, wantsEscape := false, nan := false }

/-- Beyond the largest code of a float destination (R85). -/
def floatBeyond (f : Nat) (ovf neg : Bool) : Nat :=
  let l := fmtFloat f
  if ovf then
    match l.infCode, l.nanCode with
    | some i, _ => l.signed neg i
    | none, some n => l.signed neg n
    | none, none => l.signed neg l.maxCode
  else l.signed neg l.maxCode

/-- One element into a float format, its group scale being 2^k (R83, R85, R87, R88). -/
def toFloatElem (f : Nat) (ovf : Bool) (k : Int) (v : Num) : Elem :=
  let l := fmtFloat f
  match v with
  | .nan =>
    match l.nanCode with
    | some n => Elem.plain n
    | none => { code := 0, sat := false, wantsEscape := false, nan := true }
  | .inf s =>
    match l.infCode with
    | some i => Elem.plain (l.signed s i)
    | none => Elem.satur (floatBeyond f ovf s)
  | .fin s m e =>
    let c := l.codeOf (roundMag l.fracBits l.qmin m 1 (e - k))
    if l.maxCode < c then Elem.satur (floatBeyond f ovf s) else Elem.plain (l.signed s c)

/-- |m * 2^e| rounded to an integer, ties to even (R83). -/
def roundNat (m : Nat) (e : Int) : Nat :=
  if 0 ≤ e then m * 2 ^ e.toNat else roundDiv m (2 ^ (-e).toNat)

/-- The two's-complement code of a signed magnitude. -/
def intCode (f : Nat) (neg : Bool) (m : Nat) : Nat :=
  wrapInt (fmtBits f) (if neg then -(m : Int) else m)

/-- Lowest value of an integer format's encoding, as a magnitude: the full range of plain integers, the symmetric range
of the microscaled ones (R75, R76). -/
def intLow (f : Nat) : Nat := if isPlainInt f then intMax f + 1 else intMax f

/-- One element into an integer format, its group scale being 2^k (R83, R85, R87). -/
def toIntElem (f : Nat) (k : Int) (v : Num) : Elem :=
  match v with
  | .nan => { code := 0, sat := false, wantsEscape := false, nan := true }
  | .inf s => Elem.satur (intCode f s (if s then intLow f else intMax f))
  | .fin s m e =>
    let r := roundNat m (e - k + intFrac f)
    let top := if s then intLow f else intMax f
    if top < r then Elem.satur (intCode f s top) else Elem.plain (intCode f s r)

/-- x on or above the decision point between indices j and j + 1, where a tie takes the even index (R78, R79, R83). -/
def bellPast (f : Nat) (x scale : Num) (j : Nat) : Bool :=
  let p := Num.mul (.fin false (bellLevel f j + bellLevel f (j + 1)) (bellUnit f - 1)) scale
  p.lt x || (p.eqv x && (j + 1) % 2 == 0)

/-- The magnitude index nearest |x| / scale (R83). -/
def bellIndex (f : Nat) (x scale : Num) : Nat :=
  ((List.range (bellTop f)).takeWhile (bellPast f x scale)).length

/-- A BELL code of a sign and a magnitude index; the zero code has sign 0 (R88). -/
def bellCode (f : Nat) (neg : Bool) (m : Nat) : Nat :=
  if m == 0 then 0 else (b2n neg) <<< (fmtBits f - 1) + m

/-- One element into a BELL format under a BF16 scale (R83, R85, R87). -/
def toBellElem (f : Nat) (scale v : Num) : Elem :=
  match v with
  | .nan => { code := 0, sat := false, wantsEscape := true, nan := true }
  | .inf s => { code := bellCode f s (bellTop f), sat := true, wantsEscape := true, nan := false }
  | .fin s m e =>
    if scale.lt (.fin false m e) then
      { code := bellCode f s (bellTop f), sat := true, wantsEscape := true, nan := false }
    else if scale.isZero then Elem.plain 0
    else Elem.plain (bellCode f s (bellIndex f (.fin false m e) scale))

/-- One element into any format, under a raw group scale (R82). -/
def toElem (f : Nat) (ovf : Bool) (scale : Nat) (v : Num) : Elem :=
  let k : Int := if isMicro f then (scale : Int) - 127 else 0
  if isBell f then toBellElem f (ofBf16 scale) v
  else if isFloat f then toFloatElem f ovf k v
  else toIntElem f k v

/-- Raw scale that says NaN (R74, R87). -/
def nanScale (f : Nat) : Nat := if isBell f then 0x7FC0 else 0xFF

/-- A side-list entry: v rounded to BF16 or FP32 (R86). -/
def sideEntry (sideFmt : Nat) (ovf : Bool) (v : Num) : Nat :=
  (toFloatElem (if sideFmt == 0 then 1 else 0) ovf 0 v).code

/-- What a conversion wrote and counted (R86, R89). -/
structure Enc where
  codes : List Nat
  scales : List Nat
  /-- Side-list entries in order. -/
  side : List Nat
  sat : Nat
  esc : Nat
  nanGroups : Nat
  /-- The row ran out of side-list room (R86). -/
  full : Bool
  deriving DecidableEq, Repr

/-- Nothing converted yet. -/
def Enc.empty : Enc := { codes := [], scales := [], side := [], sat := 0, esc := 0, nanGroups := 0, full := false }

/-- How a row converts: destination, CONV, side-list format and room. -/
structure ConvSpec where
  fmt : Nat
  conv : Nat
  sideFmt : Nat
  cap : Nat
  deriving DecidableEq, Repr

/-- One element added to a row's encoding; the Bool says that the group's scale becomes NaN (R85 to R88). -/
def encStep (c : ConvSpec) (scale : Nat) (acc : Enc × Bool) (v : Num) : Enc × Bool :=
  let e := toElem c.fmt (convOvf c.conv) scale v
  let wants := e.wantsEscape && convCapture c.conv
  let a := acc.1
  if wants && a.side.length < c.cap then
    ({ a with codes := a.codes ++ [bellEscape c.fmt],
              side := a.side ++ [sideEntry c.sideFmt (convOvf c.conv) v], esc := a.esc + 1 }, acc.2)
  else
    ({ a with codes := a.codes ++ [e.code], sat := a.sat + b2n e.sat,
              nanGroups := a.nanGroups + b2n (e.nan && isPlainInt c.fmt),
              full := a.full || (wants && 0 < c.cap) }, acc.2 || (e.nan && !isPlainInt c.fmt))

/-- One group: its elements under `scale`, then the scale that is written (R87). -/
def encGroup (c : ConvSpec) (acc : Enc) (g : Nat × List Num) : Enc :=
  let r := g.2.foldl (encStep c g.1) (acc, false)
  if fmtGroup c.fmt == 0 then r.1
  else if r.2 || (isMicro c.fmt && g.1 == 255) || (isBell c.fmt && (ofBf16 g.1).isNan) then
    { r.1 with scales := r.1.scales ++ [nanScale c.fmt], nanGroups := r.1.nanGroups + 1 }
  else { r.1 with scales := r.1.scales ++ [g.1] }

/-- The groups of a row. DESIGN CHOICE (log 61): for a destination without group scales the whole row is one group. -/
def rowGroups (f : Nat) (xs : List Num) : List (List Num) :=
  if fmtGroup f == 0 then [xs] else chunks (fmtGroup f) xs

/-- A row converted under the raw scale given for each group (R82). -/
def encodeWith (c : ConvSpec) (scales : List Nat) (xs : List Num) : Enc :=
  (scales.zip (rowGroups c.fmt xs)).foldl (encGroup c) Enc.empty

/-- A row converted under its default scales (R81, R82). -/
def encodeRow (c : ConvSpec) (xs : List Num) : Enc :=
  encodeWith c ((rowGroups c.fmt xs).map (defaultScale c.fmt)) xs

/-- Bytes of one element format's packed row: codes, then scales at the next even offset (R31, R185). -/
def packRow (f dim : Nat) (e : Enc) : Bytes :=
  packCodes (fmtBits f) (codesBytes f dim) e.codes ++
    fit (scalesBytes f dim) (e.scales.flatMap (natLE (fmtScaleBytes f)))

/-! ### Row layout (R31, R34 to R36) -/

/-- The shape of a row: what a table descriptor or a desk class gives of it. -/
structure RowShape where
  fmt : Nat
  dim : Nat
  /-- Row stride in bytes. -/
  stride : Nat
  headed : Bool
  sideFmt : Nat
  sideCap : Nat
  optCount : Nat
  optFmt : Nat
  /-- FP32 bits of ROW_SCALE. -/
  rowScale : Nat
  deriving DecidableEq, Repr

namespace RowShape

/-- Offset of the codes. -/
def codesOff (r : RowShape) : Nat := if r.headed then 8 else 0
/-- Offset of the group scales (R31). -/
def scalesOff (r : RowShape) : Nat := r.codesOff + codesBytes r.fmt r.dim
/-- End of the group scales. -/
def scalesEnd (r : RowShape) : Nat := r.scalesOff + scalesBytes r.fmt r.dim
/-- Bytes of a side-list entry. -/
def sideSize (r : RowShape) : Nat := if r.sideFmt == 0 then 2 else 4
/-- Offset of the side list in the engine's own layout (R31). -/
def sideOff (r : RowShape) : Nat := roundUp r.scalesEnd r.sideSize
/-- End of the side list. -/
def sideEnd (r : RowShape) : Nat := if 0 < r.sideCap then r.sideOff + r.sideCap * r.sideSize else r.scalesEnd
/-- Bytes of one optimiser-state element. -/
def optSize (r : RowShape) : Nat := if r.optFmt == 0 then 4 else 2
/-- Bytes of one optimiser-state vector (R31). -/
def optVec (r : RowShape) : Nat := roundUp (r.dim * r.optSize) 4
/-- Offset of the optimiser state. -/
def optOff (r : RowShape) : Nat := roundUp r.sideEnd 4
/-- Minimum stride (R31). -/
def minStride (r : RowShape) : Nat :=
  let e := if 0 < r.optCount then r.optOff + r.optCount * r.optVec else r.sideEnd
  if r.headed then roundUp e 8 else e
/-- Rows of a 4 KiB page (R37). -/
def rpp (r : RowShape) : Nat := 4096 / max r.stride 1

/-- Header of a row, 0 for a PACKED row (R34). -/
def header (r : RowShape) (row : Bytes) : Nat := if r.headed then leNat (slice row 0 8) else 0

/-- The codes of a row. -/
def codes (r : RowShape) (row : Bytes) : List Nat :=
  codeList r.fmt r.dim (slice row r.codesOff (codesBytes r.fmt r.dim))

/-- Number of escape codes a row holds. -/
def escapes (r : RowShape) (row : Bytes) : Nat :=
  if isBell r.fmt then ((r.codes row).filter (· == bellEscape r.fmt)).length else 0

/-- R36: the row as fetched is poisoned. -/
def poisoned (r : RowShape) (row : Bytes) : Bool :=
  if r.headed then
    let h := r.header row
    let n := bits h 3 0
    let off := bits h 27 16
    bit h 9 || r.sideCap < n || !aligned off r.sideSize || (0 < n && r.stride < off + n * r.sideSize) ||
      n < r.escapes row
  else 0 < r.escapes row

/-- The exact value of side-list entry k (R80). -/
def sideValue (r : RowShape) (row : Bytes) (k : Nat) : Num :=
  let off := bits (r.header row) 27 16 + k * r.sideSize
  let w := leNat (slice row off r.sideSize)
  if r.sideFmt == 0 then ofBf16 w else ofF32 w

/-- One element with the number of escapes before it, giving its exact value and the new count (R35, R80). -/
def decodeStep (r : RowShape) (row scales : Bytes) (acc : List Num × Nat) (ec : Nat × Nat) : List Num × Nat :=
  let g := if fmtGroup r.fmt == 0 then 0 else ec.1 / fmtGroup r.fmt
  match decodeCode r.fmt ec.2 (scaleAt r.fmt scales g) with
  | some v => (acc.1 ++ [v], acc.2)
  | none => (acc.1 ++ [r.sideValue row acc.2], acc.2 + 1)

/-- The exact decoded values of a row before ROW_SCALE (R69). -/
def decodeExact (r : RowShape) (row : Bytes) : List Num :=
  let scales := slice row r.scalesOff (scalesBytes r.fmt r.dim)
  (((List.range r.dim).zip (r.codes row)).foldl (r.decodeStep row scales) ([], 0)).1

/-- A value times ROW_SCALE, rounded to FP32; a ROW_SCALE of 1.0 leaves it exact (R33, R69). -/
def applyScale (r : RowShape) (v : Num) : Num :=
  if r.rowScale == 0x3F80_0000 then v else rnd32 (Num.mul v (ofF32 r.rowScale))

/-- The elements of a row (R33). -/
def decode (r : RowShape) (row : Bytes) : List Num := (r.decodeExact row).map r.applyScale

/-- Optimiser-state vector k of a row, as exact values. -/
def optVector (r : RowShape) (row : Bytes) (k : Nat) : List Num :=
  let area := leNat (slice row (r.optOff + k * r.optVec) r.optVec)
  (List.range r.dim).map (fun e => (fmtFloat r.optFmt).decode (codeAt (8 * r.optSize) area e))

/-- Optimiser-state vector k written into a row. -/
def putOptVector (r : RowShape) (row : Bytes) (k : Nat) (xs : List Num) : Bytes :=
  let cs := xs.map (fun x => (toFloatElem r.optFmt false 0 x).code)
  patch row (r.optOff + k * r.optVec) (packCodes (8 * r.optSize) r.optVec cs)

/-- An encoding laid into a row: codes, scales, side list with SIDE_COUNT, SIDE_OFF and SAT of the header (R86, R89).
The other header fields and areas of the row stay. DESIGN CHOICE (log 62): SIDE_OFF of a row without room for a side list
is the offset that one would have, in its 12 bits. -/
def putEnc (r : RowShape) (row : Bytes) (e : Enc) : Bytes :=
  let b := patch row r.codesOff (packRow r.fmt r.dim e)
  if r.headed then
    let h := r.header row
    let h' := h - bits h 3 0 - (bits h 8 8) <<< 8 - (bits h 27 16) <<< 16 +
      pack [(0, e.side.length), (8, b2n (0 < e.sat)), (16, r.sideOff % 4096)]
    patch (patch b 0 (natLE 8 h')) r.sideOff
      (if 0 < r.sideCap then (e.side.flatMap (natLE r.sideSize)) else [])
  else b

/-- The conversion into this row's codes under a CONV field. -/
def conv (r : RowShape) (c : Nat) : ConvSpec := { fmt := r.fmt, conv := c, sideFmt := r.sideFmt, cap := r.sideCap }

end RowShape

end Sys2Proof.Machine
end

