-- ==== Sys2Proof/Machine/Operands.lean ====
section
/-! DEFINITION. Operand forms of commands: body fields and their reserved bits (R143 with the body table of each
opcode), inline entries, table and desk descriptors (R28 to R50), shard maps (R38 to R43), input arrays with their CRC
(R339, R341), index streams (R158 to R162). -/

namespace Sys2Proof.Machine

/-! ### Opcodes and reserved bits (R142, R143) -/

/-- Opcodes of R142. -/
def opGatherPool : Nat := 0x01
def opGatherRaw : Nat := 0x02
def opRecall : Nat := 0x03
def opScatterAdd : Nat := 0x04
def opRowUpdate : Nat := 0x05
def opRowCommit : Nat := 0x06
def opProject : Nat := 0x07
def opVecChain : Nat := 0x08
def opQuantise : Nat := 0x09
def opCalibrate : Nat := 0x0A
def opBlackboard : Nat := 0x0B
def opCopy : Nat := 0x0C
def opFence : Nat := 0x10
def opFlush : Nat := 0x11
def opAcquire : Nat := 0x12
def opBell : Nat := 0x13
def opSignal : Nat := 0x14
def opWait : Nat := 0x15
def opArm : Nat := 0x18
def opNop : Nat := 0x3F

/-- An opcode of R142. -/
def opcodeKnown (op : Nat) : Bool :=
  (1 ≤ op && op ≤ 0x0C) || (0x10 ≤ op && op ≤ 0x15) || op == opArm || op == opNop

/-- Most inline entries of an opcode (R142). -/
def opcodeInline (op : Nat) : Nat :=
  if (1 ≤ op && op ≤ 8) || op == opCopy || op == opArm || op == opNop then 7 else 0

/-- Bits [hi:lo] that the body table of an opcode names reserved. -/
def reservedBits (op : Nat) : List (Nat × Nat) :=
  match op with
  | 0x01 => [(111, 103), (255, 244), (319, 308), (383, 372), (447, 436)]
  | 0x02 => [(82, 82), (87, 85), (127, 103), (191, 160), (383, 244), (447, 436)]
  | 0x03 => [(143, 134), (159, 156), (255, 232), (319, 308), (383, 372), (447, 436)]
  | 0x04 => [(82, 80), (91, 91), (191, 160), (255, 244), (319, 308), (511, 344)]
  | 0x05 => [(91, 91), (191, 180), (255, 244), (287, 280)]
  | 0x06 => [(89, 85), (95, 91), (191, 160), (255, 244), (511, 308)]
  | 0x07 => [(223, 212), (287, 276), (351, 340), (447, 424), (511, 488)]
  | 0x08 => [(95, 84), (127, 112), (223, 212), (287, 276), (511, 376)]
  | 0x09 | 0x0A => [(79, 79), (95, 92), (111, 109), (127, 124), (143, 140), (255, 244), (319, 308), (383, 372),
      (511, 436)]
  | 0x0B => [(95, 82), (511, 180)]
  | 0x0C => [(95, 67), (223, 212), (287, 276), (511, 352)]
  | 0x10 => [(95, 67), (511, 112)]
  | 0x11 => [(127, 116), (511, 162)]
  | 0x12 => [(127, 116), (223, 212), (319, 308), (511, 353)]
  | 0x13 => [(95, 88), (511, 112)]
  | 0x14 => [(79, 66), (127, 92), (511, 192)]
  | 0x15 => [(79, 66), (95, 92), (127, 112), (255, 244), (511, 288)]
  | 0x18 => [(71, 68), (511, 80)]
  | _ => []

/-- Fields reserved under a condition that holds for this entry (R143), the range fields of FLUSH and ACQUIRE with ALL
among them (R404, R405, log 18). -/
def reservedNow (e : Nat) : List (Nat × Nat) :=
  match bits e 7 0 with
  | 0x01 => (if bit e 84 then [(243, 192)] else []) ++ (if bit e 85 then [(127, 112)] else [])
  | 0x02 => if bit e 84 then [(243, 192)] else []
  | 0x03 =>
    (if bits e 108 107 == 0 then [(119, 116), (123, 120), (126, 124), (132, 132), (435, 384), (471, 448)] else []) ++
    (if bits e 108 107 == 2 then [] else [(110, 109)]) ++
    (if bits e 108 107 == 2 && bits e 110 109 == 3 then [] else [(207, 192)]) ++
    (if bit e 127 then [(307, 256)] else []) ++ (if bit e 133 then [] else [(511, 472)])
  | 0x04 => if bit e 84 then [(243, 192)] else []
  | 0x05 => if bit e 84 then [(179, 128)] else []
  | 0x06 => if bit e 84 then [(243, 192)] else []
  | 0x07 => (if bits e 82 81 == 2 then [] else [(95, 90)]) ++ (if bit e 80 then [(375, 352)] else [])
  | 0x08 => if bit e 76 then [(311, 288)] else []
  | 0x0A => [(307, 256), (139, 128), (78, 76), (159, 144)]
  | 0x0C => if bit e 66 then [(211, 160)] else []
  | 0x11 => if bit e 160 then [(115, 64), (159, 128)] else []
  | 0x12 => if bit e 352 then [(115, 64), (159, 128), (211, 160), (255, 224), (307, 256), (351, 320)] else []
  | _ => []

/-- R143: a reserved bit of the header or the body is set. -/
def reservedSet (e : Nat) : Bool :=
  bit e 15 || (reservedBits (bits e 7 0) ++ reservedNow e).any (fun r => bits e r.1 r.2 != 0)

/-- Commands that hold a context of their stream unit (R383). -/
def usesContext (op : Nat) : Bool := 1 ≤ op && op ≤ 0x0C

namespace Flow

/-- Body field [hi:lo]. -/
def fld (f : Flow) (hi lo : Nat) : Nat := bits f.entry hi lo
/-- Body bit. -/
def flag (f : Flow) (i : Nat) : Bool := bit f.entry i
/-- ACTION of a STREAM_ARM (R354). -/
def armAction (f : Flow) : Nat := f.fld 67 66
/-- The chain program's bytes: the last `n` inline entries (R268). -/
def chainBytes (f : Flow) (n : Nat) : Bytes := slice f.inline (64 * (f.slots - n)) (64 * n)
/-- Copy number k taken at dispatch. -/
def copyAt (f : Flow) (k : Nat) : Nat := leNat ((f.copies[k]?.map (·.data)).getD [])
/-- The flow is cut off or ended. -/
def running (f : Flow) : Bool := f.stage == .running

end Flow

/-! ### Table descriptors (R28 to R30) -/

def tdValid (d : Nat) : Bool := bit d 0
def tdHeaded (d : Nat) : Bool := bit d 1
def tdPool (d : Nat) : Nat := bits d 3 2
def tdFmt (d : Nat) : Nat := bits d 7 4
def tdSideFmt (d : Nat) : Nat := bits d 8 8
def tdSideCap (d : Nat) : Nat := bits d 12 9
def tdOptCount (d : Nat) : Nat := bits d 14 13
def tdBoard (d : Nat) : Bool := bit d 15
def tdOptFmt (d : Nat) : Nat := bits d 19 16
def tdHint (d : Nat) : Nat := bits d 21 20
def tdDim (d : Nat) : Nat := bits d 44 32
def tdStride (d : Nat) : Nat := 2 * bits d 59 48
def tdRows (d : Nat) : Nat := bits d 103 64
def tdMap (d : Nat) : Nat := bits d 179 128
def tdShards (d : Nat) : Nat := bits d 204 192
def tdScale (d : Nat) : Nat := bits d 255 224
def tdVersion (d : Nat) : Nat := bits d 287 256

/-- Row shape of a table. -/
def tdShape (d : Nat) : RowShape :=
  { fmt := tdFmt d, dim := tdDim d, stride := tdStride d, headed := tdHeaded d, sideFmt := tdSideFmt d,
    sideCap := tdSideCap d, optCount := tdOptCount d, optFmt := tdOptFmt d, rowScale := tdScale d }

/-- A PACKED row shape with a ROW_SCALE of 1.0. -/
def packedShape (fmt dim stride : Nat) : RowShape :=
  { fmt := fmt, dim := dim, stride := stride, headed := false, sideFmt := 0, sideCap := 0, optCount := 0, optFmt := 0,
    rowScale := 0x3F80_0000 }

/-- Minimum stride of a PACKED row (R31). -/
def packedMin (fmt dim : Nat) : Nat := (packedShape fmt dim 0).minStride

/-- R30, the parts that the descriptor shows. -/
def tableBad (d : Nat) : Bool :=
  let r := tdShape d
  !tdValid d || tdFmt d == 15 || 8 < tdSideCap d || (tdSideCap d != 0 && !tdHeaded d) || 2 < tdOptFmt d ||
    tdHint d == 3 || tdDim d == 0 || 4096 < tdDim d || tdRows d == 0 || tdShards d == 0 || 4096 < tdShards d ||
    tdStride d == 0 || 4096 < tdStride d || tdStride d < r.minStride || (tdHeaded d && !aligned (tdStride d) 8)

/-- Address of row i of a run placed under R37. -/
def placeRow (base stride i : Nat) : Nat :=
  let rpp := 4096 / max stride 1
  base + i / max rpp 1 * 4096 + i % max rpp 1 * stride

/-- Pages that `rows` rows take (R40). -/
def pagesFor (stride rows : Nat) : Nat := ceilDiv rows (max 1 (4096 / max stride 1))

/-- R40: a run of pages lies within one stack, or within one bulk channel. -/
def inOneUnit (base pages : Nat) : Bool :=
  let last := base + 4096 * pages - 1
  if inFast base then inFast last && stackOf base == stackOf last
  else inBulk base && inBulk last && bulkOf base == bulkOf last

namespace Block

/-- T0's built-in descriptor (R28, R29). Its SHARD_MAP is built in: the copy holds the base of the one shard there, and
bit 512, beyond the descriptor, says so. -/
def builtInTable (b : Block) : Nat :=
  pack [(0, 1), (15, 1), (32, 64), (48, 128), (64, b.od' 0x2300 9), (128, b.od' 0x2300 8), (192, 1), (224, 0x3F80_0000),
    (512, 1)]

/-- The tables come from memory (R28). -/
def tablesInMemory (b : Block) : Bool := b.od' 0x2300 1 != 0

/-- The bytes of a range as lookups through the row cache would give them now; with `acquire` clean lines do not serve
(R395, R402). -/
def peek (m : Memory) (b : Block) (a len : Nat) (acquire : Bool) : Bytes :=
  (b.cache.lines.filter (fun l => l.addr < a + len && a < l.addr + 256 && l.err < 2 && (l.dirty || !acquire))).foldl
    (fun d l => if a ≤ l.addr then patch d (l.addr - a) l.data else patch d 0 (l.data.drop (a - l.addr)))
    (agentView m b a len)

/-- A status raised once. -/
def note (b : Block) (id status : Nat) : Block :=
  b.modFlow id (fun f => if f.statuses.contains status then f else { f with statuses := f.statuses ++ [status] })

/-- The descriptor of table t as a command's dispatch reads it (R27, R28, R44): none where the table does not exist,
with poison of the read beat. -/
def tableBeat (m : Memory) (b : Block) (id t : Nat) (acquire : Bool) : Option Nat × Bool × Block :=
  if !b.tablesInMemory then (if t == 0 then some b.builtInTable else none, false, b)
  else if b.od' 0x2300 2 ≤ t then (none, false, b)
  else
    let r := cachedRead m b id (b.od' 0x2300 1 + 64 * t) 64 acquire
    (some (leNat r.1), r.2.1, r.2.2)

/-! ### Shard maps (R38 to R43) -/

/-- Where a row lies. -/
inductive RowPlace
  | local (addr : Nat)
  | remote (peer : Nat)
  /-- Its entry, or its search, breaks R41. -/
  | bad
  /-- At or above ROW_COUNT (R43). -/
  | beyond
  deriving DecidableEq, Repr

/-- The shard map of a table that a command copied at its dispatch (R46). -/
def mapCopy (b : Block) (id d : Nat) : Option Store :=
  (b.flow? id).bind (fun f => (f.copies.drop 1).find? (fun c => c.addr == tdMap d && c.data.length == 16 * tdShards d))

/-- Entry i of a table's shard map, with poison. A command reads it through the row cache and uses the map as it stood
at its dispatch (R46). One that holds the built-in descriptor keeps its one shard after descriptors come from memory
(R44). -/
def shardEntry (m : Memory) (b : Block) (id d i : Nat) (acquire : Bool) : Nat × Bool × Block :=
  if bit d 512 then (pack [(64, tdMap d)], false, b)
  else
    let r := cachedRead m b id (tdMap d + 16 * i) 16 acquire
    (leNat (((b.mapCopy id d).map (fun c => slice c.data (16 * i) 16)).getD r.1), r.2.1, r.2.2)

def seFirst (e : Nat) : Nat := bits e 39 0
def sePlace (e : Nat) : Nat := bits e 41 40
def sePeer (e : Nat) : Nat := bits e 47 42
def seBase (e : Nat) : Nat := bits e 115 64

/-- The search of R39: the entry's number, its value, and whether a read of the search was poisoned. -/
def shardSearch (m : Memory) (id d row : Nat) (acquire : Bool) :
    Nat → Nat → Nat → Bool → Block → Nat × Bool × Block
  | 0, lo, _, bad, b => (lo, bad, b)
  | fuel + 1, lo, hi, bad, b =>
    if lo < hi then
      let mid := (lo + hi + 1) / 2
      let r := b.shardEntry m id d mid acquire
      if seFirst r.1 ≤ row then shardSearch m id d row acquire fuel mid hi (bad || r.2.1) r.2.2
      else shardSearch m id d row acquire fuel lo (mid - 1) (bad || r.2.1) r.2.2
    else (lo, bad, b)

/-- R41 for entry s with its neighbours' FIRST_ROW. -/
def shardBad (b : Block) (d s e : Nat) (prev next : Option Nat) : Bool :=
  let stop := next.getD (tdRows d)
  let rows := stop - seFirst e
  (s == 0 && seFirst e != 0) || (prev.map (fun p => decide (seFirst e ≤ p))).getD false ||
    (next.map (fun n => decide (n ≤ seFirst e))).getD false || sePlace e == 3 ||
    (sePlace e == 2 && sePeer e == b.package) ||
    (sePlace e < 2 && (!aligned (seBase e) 4096 || (sePlace e == 0 && !inFast (seBase e)) ||
      (sePlace e == 1 && !inBulk (seBase e)) || !inOneUnit (seBase e) (max 1 (pagesFor (tdStride d) rows))))

/-- Where row r of a table lies (R37 to R43). -/
def resolve (m : Memory) (b : Block) (id d row : Nat) (acquire : Bool) : RowPlace × Block :=
  if tdRows d ≤ row then (.beyond, b)
  else
    let s := b.shardSearch m id d row acquire 13 0 (tdShards d - 1) false
    let e := s.2.2.shardEntry m id d s.1 acquire
    let p := if s.1 == 0 then none else some (e.2.2.shardEntry m id d (s.1 - 1) acquire)
    let b1 := (p.map (·.2.2)).getD e.2.2
    let n := if s.1 + 1 < tdShards d then some (b1.shardEntry m id d (s.1 + 1) acquire) else none
    let b2 := (n.map (·.2.2)).getD b1
    let good := fun (x : Option (Nat × Bool × Block)) => (x.filter (fun y => !y.2.1)).map (fun y => seFirst y.1)
    if s.2.1 || e.2.1 || b2.shardBad d s.1 e.1 (good p) (good n) then (.bad, b2)
    else if sePlace e.1 == 2 then (.remote (sePeer e.1), b2)
    else (.local (placeRow (seBase e.1) (tdStride d) (row - seFirst e.1)), b2)

end Block

/-! ### Desks (R47 to R51) -/

def ddValid (d : Nat) : Bool := bit d 0
def ddSealed (d : Nat) : Bool := bit d 1
def ddClass (d : Nat) : Nat := bits d 15 8
def ddCap (d : Nat) : Nat := bits d 20 16
def ddNext (d : Nat) : Nat := bits d 55 32
def ddFull (d : Nat) : Bool := bit d 56
def ddKeyBase (d : Nat) : Nat := bits d 115 64
def ddValueBase (d : Nat) : Nat := bits d 179 128
def dcWrap (c : Nat) : Bool := bit c 8
/-- Shape of a class's keys. -/
def dcKey (c : Nat) : RowShape := packedShape (bits c 3 0) (bits c 28 16) (2 * bits c 59 48)
/-- Shape of a class's values. -/
def dcValue (c : Nat) : RowShape := packedShape (bits c 7 4) (bits c 44 32) (2 * bits c 75 64)

/-- R50 for one of the two shapes. -/
def deskShapeBad (r : RowShape) : Bool :=
  r.fmt == 15 || r.dim == 0 || 4096 < r.dim || r.stride == 0 || 4096 < r.stride || r.stride < r.minStride

/-- Valid entries of a desk (R51). -/
def deskEntries (d : Nat) : Nat := if ddFull d then 2 ^ ddCap d else ddNext d

namespace Block

/-- Address of a desk's descriptor. -/
def deskAddr (b : Block) (n : Nat) : Nat := b.od' 0x2300 3 + 32 * n

/-- A desk's descriptor and class (R47, R50): the two values, whether they fail, poison seen. -/
def deskRead (m : Memory) (b : Block) (id n : Nat) (acquire : Bool) : Nat × Nat × Bool × Bool × Block :=
  if b.od' 0x2300 4 ≤ n then (0, 0, true, false, b)
  else
    let r := cachedRead m b id (b.deskAddr n) 32 acquire
    let d := leNat r.1
    if r.2.1 then (d, 0, true, true, r.2.2)
    else if !ddValid d || ddCap d < 6 || 24 < ddCap d || b.od' 0x2300 6 ≤ ddClass d then (d, 0, true, false, r.2.2)
    else
      let q := cachedRead m r.2.2 id (b.od' 0x2300 5 + 32 * ddClass d) 32 acquire
      let c := leNat q.1
      let cap := 2 ^ ddCap d
      let out := fun (base : Nat) (s : RowShape) => !aligned base 4096 || !inOneUnit base (pagesFor s.stride cap)
      (d, c, q.2.1 || deskShapeBad (dcKey c) || deskShapeBad (dcValue c) || out (ddKeyBase d) (dcKey c) ||
        out (ddValueBase d) (dcValue c), q.2.1, q.2.2)

/-! ### CRC words and checked input (R339, R341) -/

/-- Address of the CRC word of the block at a, by the windows that flow id has kept since its start (R339, R352, R467). -/
def crcWord (b : Block) (id a : Nat) : Option Nat :=
  ((((b.flow? id).map (·.windows)).getD []).find? (fun w => w.1 ≤ a && a < w.1 + 4096 * w.2.1)).map (fun w =>
    w.2.2 + 4 * ((a - w.1) / 4096))

/-- R341: the outcome of flow id's check of a block whose data it has read; true where it is poisoned. -/
def checkCrc (m : Memory) (b : Block) (id a : Nat) (data : Bytes) : Bool × Block :=
  match b.crcWord id a with
  | none => (false, b.count 0x2504 0x0F 1)
  | some w =>
    let r := tierRead m b w 4
    let c := crc32c data
    if r.2.1 then (true, r.2.2.count 0x2504 0x0D 1)
    else if leNat r.1 == c then (false, r.2.2)
    else if leNat r.1 == c ^^^ 0xFFFF_FFFF then (true, r.2.2.count 0x2504 0x0E 1)
    else (true, r.2.2.count 0x2504 0x0D 1)

end Block

/-- An input range as read: bytes from `base`, poison by 4 KiB block. -/
structure Input where
  base : Nat
  data : Bytes
  bad : List Bool
  deriving DecidableEq, Repr

/-- Bytes and poison of part of an input range. -/
def Input.part (i : Input) (a len : Nat) : Bytes × Bool :=
  (slice i.data (a - i.base) len,
    (span (a / 4096 - i.base / 4096) ((a + len - 1) / 4096 + 1 - i.base / 4096)).any (fun k => i.bad.getD k false))

/-- One block of an input range: the bytes from a to stop, all within one 4 KiB block; checked whole with `crc`. -/
def readPiece (m : Memory) (b : Block) (id a len : Nat) (crc : Bool) : Bytes × Bool × Block :=
  if crc then
    let base := a / 4096 * 4096
    let r := b.readFor m id base 4096
    let c := r.2.2.checkCrc m id base r.1
    (slice r.1 (a - base) len, r.2.1 || c.1, c.2)
  else b.readFor m id a len

/-- The pieces of a range, cut at 4 KiB boundaries: address and length. -/
def cutPages (a len : Nat) : List (Nat × Nat) :=
  (span (a / 4096) ((a + len + 4095) / 4096)).map (fun p =>
    let lo := max a (4096 * p)
    (lo, min (a + len) (4096 * p + 4096) - lo))

/-- An input array read from memory, with CRC checks when the command asks for them (R188, R255, R341). -/
def readInput (m : Memory) (b : Block) (id a len : Nat) (crc : Bool) : Input × Block :=
  (cutPages a len).foldl (fun (acc : Input × Block) p =>
    let r := readPiece m acc.2 id p.1 p.2 crc
    ({ acc.1 with data := acc.1.data ++ r.1, bad := acc.1.bad ++ [r.2.1] }, r.2.2)) (⟨a, [], []⟩, b)

/-! ### Index streams (R158 to R162) -/

/-- Bytes of an index. -/
def idxBytes (fmt : Nat) : Nat := if fmt == 0 then 4 else 8

/-- The row an index names; none for padding (R159). A U64 with bits [63:40] set names no row of any table. -/
def idxRow (fmt v : Nat) : Option Nat := if v == 2 ^ (8 * idxBytes fmt) - 1 then none else some v

/-- Inline entries that n indices take (R160). -/
def idxSlots (fmt n : Nat) : Nat := ceilDiv (n * idxBytes fmt) 64

/-- Positions w0 to w0 + n - 1 of an index stream; the weights stay to be filled in. -/
def readIndices (m : Memory) (b : Block) (f : Flow) (fmt idx : Nat) (inln crc : Bool) (w0 n : Nat) :
    List Position × Block :=
  let k := idxBytes fmt
  let r :=
    if inln then ((⟨0, slice f.inline (w0 * k) (n * k), []⟩ : Input), b)
    else readInput m b f.id (idx + w0 * k) (n * k) crc
  ((List.range n).map (fun i =>
    let p := r.1.part (r.1.base + i * k) k
    { row := idxRow fmt (leNat p.1), weight := 0, badIndex := !inln && p.2, badWeight := false }), r.2)

end Sys2Proof.Machine
end

