-- ==== Sys2Proof/Machine/Begin.lean ====
section
/-! DEFINITION. How a stream unit runs a command: when it may begin (R139, R386, R390, R399, R403, R406), the contexts
(R383, R384), and the frame of one step of a command's work with held reads and cut-off flows (R326, R487, R488). -/

namespace Sys2Proof.Machine

/-- Opcodes that hold back every later command of their queue until they complete (R386, R390, R403, R406, R408). -/
def holdsQueue (op : Nat) : Bool := op == opBell || op == opWait || op == opFlush || op == opFence || op == opAcquire

/-- The command begins only when every earlier command of its queue has completed (R139, R386, R403, R406). -/
def Flow.beginsLast (f : Flow) : Bool := f.ordered || f.opcode == opBell || f.opcode == opFlush || f.opcode == opAcquire

namespace Block

/-- The flow may begin now. A RELEASE command holds its effects back and may begin at once; it takes no context before an
earlier command, for which its effects wait and which needs one too (R399, log 7). -/
def mayBegin (b : Block) (f : Flow) : Bool :=
  let e := b.earlier f
  (!f.beginsLast || e.isEmpty) && !e.any (fun g => holdsQueue g.opcode) &&
    !(f.release && usesContext f.opcode && e.any (fun g => g.stage == .waiting && usesContext g.opcode))

/-- The wing is in THREAD mode (R383). -/
def threaded (b : Block) (w : Wing) : Bool := b.od' (match w with | .north => 0x2101 | .south => 0x2181) 1 == 1

/-- Flows that hold a context of a stream unit, the current one of THREAD mode first. -/
def holders (b : Block) (su : Nat) : List Nat :=
  (b.contexts.filter (fun c => c.1 == su && ((b.flow? c.2).map Flow.running).getD false)).map (·.2)

/-- The context whose command runs: the earliest dispatched in SEQ mode (R384). -/
def currentContext (b : Block) (su : Nat) : Option Nat :=
  let h := b.holders su
  if b.threaded (wingOf su) then h.head?
  else h.foldl (fun (acc : Option Nat) i => some (match acc with | none => i | some j => min i j)) none

/-- Contexts of a stream unit (R383). -/
def contextLimit (b : Block) (su : Nat) : Nat := if b.threaded (wingOf su) then 8 else 1

/-- A command may take a context now. -/
def contextFree (b : Block) (f : Flow) : Bool := (b.holders f.su).length < b.contextLimit f.su

/-- A command takes a context; contexts of flows that no longer run are given up. -/
def takeContext (b : Block) (f : Flow) : Block :=
  { b with contexts := b.contexts.filter (fun c => ((b.flow? c.2).map Flow.running).getD false) ++ [(f.su, f.id)] }

/-- The flow of a command whose work may run in this step: dispatched under the opcode that the row names, its stream
unit in service, begun or able to begin, and with no request held at its sender (R327). -/
def startable (b : Block) (id : Nat) (is : Flow → Bool) : Option Flow :=
  match b.flow? id with
  | none => none
  | some f =>
    if b.ready && f.stream.isNone && is f && f.stage != .closing && b.suUp f.su && (f.stage != .waiting || b.mayBegin f) &&
        (f.stage != .waiting || !usesContext f.opcode || b.contextFree f) && !b.senderHeld id then some f
    else none

/-- The command has begun (R130), with its context. One whose lookups acquire counts an acquire (R402, R413). -/
def begun (b : Block) (f : Flow) : Block :=
  if f.stage != .waiting then b
  else
    let b1 := (b.modFlow f.id (fun g => { g with stage := .running, since := b.time })).count 0x2506 1
      (b2n (usesContext f.opcode && f.acquires))
    if usesContext f.opcode then b1.takeContext f else b1

/-- The command's context, where it needs one, is its stream unit's current one. -/
def mayWork (b : Block) (id : Nat) : Bool :=
  match b.flow? id with
  | none => false
  | some f => !usesContext f.opcode || !f.running || b.currentContext f.su == some id

/-- The read at which a flow's last step waited would still be held: by a row operation, an ordered retrain, a share
window, the host link, or a victim that has not been written back (R324, R326, R332, R349, R488). -/
def readWaits (b : Block) (f : Flow) : Bool :=
  match f.waitsOn with
  | none => false
  | some (a, len) =>
    if isHost a then b.hostHolds
    else b.rowOpAhead a len || b.stackHeld a || !b.shareRoom a (readCost a len) || (linesOf a len).any b.fillWaits

/-! ### The timetable at a held stack or bulk channel (R324, R378) -/

/-- Flows that wait with an access at a share key, the longest wait first, and flow `id` after them. -/
def shareClaims (b : Block) (key id : Nat) : List Flow :=
  let ws := (b.agents.shareWaits.filter (fun w => w.1 == key)).map (·.2)
  (if ws.contains id then ws else ws ++ [id]).filterMap b.flow?

/-- Share keys at which bytes moved between b and c. -/
def movedKeys (b c : Block) : List Nat :=
  (List.range 32).filter (fun k => mapGet c.agents.moved 0 k != mapGet b.agents.moved 0 k)

/-- The timetable lets an access of flow `id` at a share key go before the accesses that wait there (R378, R380). -/
def shareTurn (b c : Block) (id key : Nat) : Option Block :=
  let fs := b.shareClaims key id
  if fs.length < 2 then some c
  else (c.grant (512 + key) fs).bind (fun g => if g.1.id == id then some g.2 else none)

/-- The timetable lets every access that the step from b to c made for flow `id` go now; the flow then waits nowhere. The
answer without it: the first share key that refuses. -/
def shareTurns (b c : Block) (id : Nat) : Except Nat Block :=
  ((b.movedKeys c).foldl (fun (acc : Except Nat Block) k =>
    match acc with
    | .error e => .error e
    | .ok c => match b.shareTurn c id k with
      | none => .error k
      | some d => .ok d) (.ok c)).map (fun d =>
    { d with agents := { d.agents with shareWaits := d.agents.shareWaits.filter (fun w => w.2 != id) } })

end Block

/-- A step of a flow that waits: the state as it was, but for what shows the wait (R324, R332, R378, R383, R488). -/
def waitStep (s : State) (id : Nat) (c : Block) : Out :=
  .next { s with blk := (s.blk.waited c (some id)).modFlow id (fun g =>
    { g with held := ((c.flow? id).map (·.held)).getD g.held, waitsOn := c.agents.heldRange }) }

/-- How a step of a flow's work ends. One with a read that waits, or with an access whose turn has not come, leaves the
state as it was, so that the flow goes on once it can; a flow cut off under R487 ends with what it had done before this
step, by `ended`. -/
def workStep (s : State) (id : Nat) (c : Block) (ended : Block) : Out :=
  let was := ((s.blk.flow? id).map (·.cut)).getD false
  if c.blocked then waitStep s id c
  else if ((c.flow? id).map (·.cut)).getD was && !was then finish s ended
  else match s.blk.shareTurns c id with
    | .error k => waitStep s id { s.blk with agents := { s.blk.agents with heldAt := some k } }
    | .ok d => finish s (d.modFlow id (fun f => { f with waitsOn := none }))

/-- One step of a command's work. -/
def flowStep (s : State) (id : Nat) (is : Flow → Bool) (work : Memory → Block → Flow → Block) : Out :=
  match s.blk.startable id is with
  | none => .next s
  | some f =>
    let b0 := s.blk.begun f
    if b0.mayWork id then
      match b0.flow? id with
      | none => .next s
      | some f0 => workStep s id (work s.mem b0 f0) ((b0.cutFlow id).endFlow id stOrphaned)
    else finish s b0

/-- The command has an opcode. -/
def isOp (op : Nat) (f : Flow) : Bool := f.opcode == op
/-- The command is a STREAM_ARM with an ACTION. -/
def isArm (action : Nat) (f : Flow) : Bool := f.opcode == opArm && f.armAction == action

end Sys2Proof.Machine
end

