-- ==== Sys2Proof/Machine/Chain.lean ====
section
/-! DEFINITION. Chain programs of the vector engine (09_vector_engine.md): layout, checks, operand vectors, and the
evaluation of a program over the lanes of a tile row (R262 to R279). -/

namespace Sys2Proof.Machine

/-- A chain program: header, operand descriptors, stage words (R268 to R271). -/
structure Program where
  header : Nat
  ops : List Nat
  stages : List Nat
  deriving DecidableEq, Repr

def pgStages (h : Nat) : Nat := bits h 4 0
def pgOps (h : Nat) : Nat := bits h 7 5
def pgOut (h : Nat) : Nat := bits h 9 8

/-- Bytes of a program from its header to its last stage (R267). -/
def pgBytes (h : Nat) : Nat := 8 + 16 * pgOps h + 8 * pgStages h

/-- The program at the start of a run of bytes. -/
def parseProgram (bs : Bytes) : Program :=
  let h := leNat (slice bs 0 8)
  { header := h
    ops := (List.range (pgOps h)).map (fun o => leNat (slice bs (8 + 16 * o) 16))
    stages := (List.range (pgStages h)).map (fun t => leNat (slice bs (8 + 16 * pgOps h + 8 * t) 8)) }

def ovAddr (o : Nat) : Nat := bits o 51 0
def ovFmt (o : Nat) : Nat := bits o 55 52
def ovColStride (o : Nat) : Nat := bits o 87 64
def ovRowStride (o : Nat) : Nat := bits o 127 96
/-- Element size of an operand vector. -/
def ovSize (o : Nat) : Nat := fmtBits (ovFmt o) / 8

def stOp (w : Nat) : Nat := bits w 5 0
def stDst (w : Nat) : Nat := bits w 7 6
def stA (w : Nat) : Nat := bits w 9 8
def stB (w : Nat) : Nat := bits w 11 10
def stC (w : Nat) : Nat := bits w 13 12
def stBSrc (w : Nat) : Nat := bits w 17 16
def stCSrc (w : Nat) : Nat := bits w 19 18
def stBVec (w : Nat) : Nat := bits w 21 20
def stCVec (w : Nat) : Nat := bits w 23 22
def stImm (w : Nat) : Nat := bits w 63 32

/-- A format that R269 allows. -/
def ovFmtOk (f : Nat) : Bool := f ≤ 2 || f == 8 || f == 9

/-- R269, R279: an operand descriptor that the engine refuses. DESIGN CHOICE (log 54): a format code 0xF here is a format
not allowed by R269 and gives BAD_CHAIN alone; R67 speaks of the format fields of a command. -/
def ovBad (o : Nat) : Bool :=
  bits o 63 56 != 0 || bits o 95 88 != 0 || !ovFmtOk (ovFmt o) || !aligned (ovAddr o) (ovSize o) ||
    !aligned (ovRowStride o) (ovSize o)

/-- R275: k outside the range of a cross-lane stage. -/
def crossBad (w : Nat) : Bool :=
  let k := stImm w
  match stOp w with
  | 0x20 | 0x21 | 0x22 | 0x23 => k == 0 || 511 < k
  | 0x24 | 0x25 => 511 < k
  | _ => false

/-- OP is defined (R273, R275). -/
def opDefined (op : Nat) : Bool := op ≤ 0x13 || (0x20 ≤ op && op ≤ 0x28)

/-- R277: PERM without an integer operand vector. -/
def permBad (p : Program) (w : Nat) : Bool :=
  stOp w == 0x26 && (stBSrc w != 2 ||
    (match p.ops[stBVec w]? with | none => true | some o => !(ovFmt o == 8 || ovFmt o == 9)))

/-- R279: a stage that the engine refuses. The vector numbers are judged where a source selects a vector. -/
def stageBad (p : Program) (w : Nat) : Bool :=
  !opDefined (stOp w) || bits w 15 14 != 0 || bits w 31 24 != 0 || stBSrc w == 3 || stCSrc w == 3 ||
    (stBSrc w == 2 && p.ops.length ≤ stBVec w) || (stCSrc w == 2 && p.ops.length ≤ stCVec w) || crossBad w ||
    permBad p w

/-- R279 for a command's program of `slots` inline entries; no entries, no program. -/
def chainBad (f : Flow) (slots : Nat) : Bool :=
  if slots == 0 then false
  else
    let bs := f.chainBytes slots
    let p := parseProgram bs
    let h := p.header
    pgStages h == 0 || 16 < pgStages h || 4 < pgOps h || 64 * slots < pgBytes h || bits h 63 10 != 0 ||
      p.ops.any ovBad || p.stages.any (stageBad p)

/-! ### Operand vectors (R270) -/

/-- Address of element (i, j) of an operand vector. -/
def ovElem (o i j : Nat) : Nat := ovAddr o + i * ovRowStride o + j * ovColStride o * ovSize o

/-- Lines fetched for operand vectors: line address, bytes, poison. -/
abbrev LineBag := List (Nat × Bytes × Bool)

/-- One value for the whole command: both strides 0 (R270). -/
def ovScalar (o : Nat) : Bool := ovColStride o == 0 && ovRowStride o == 0

/-- The distinct lines that a tile's rows i0.., columns j0.. read of some operand vectors. -/
def ovLines (ops : List Nat) (i0 rows j0 cols : Nat) : List Nat :=
  (ops.flatMap (fun o => (List.range rows).flatMap (fun i => (List.range cols).map (fun j =>
    lineAddr (ovElem o (i0 + i) (j0 + j)))))).dedup

/-- Lines read through the row cache with hint KEEP (R270). -/
def fetchLines (m : Memory) (b : Block) (id : Nat) (acquire : Bool) (ls : List Nat) : LineBag × Block :=
  ls.foldl (fun (acc : LineBag × Block) a =>
    let r := acc.2.cachedRead m id a 256 acquire
    (acc.1 ++ [(a, r.1, r.2.1)], r.2.2)) ([], b)

/-- Element (i, j) of an operand vector: raw code and poison. -/
def ovRaw (bag : LineBag) (o i j : Nat) : Nat × Bool :=
  let a := ovElem o i j
  match bag.find? (fun l => l.1 == lineAddr a) with
  | none => (0, false)
  | some l => (leNat (slice l.2.1 (a % 256) (ovSize o)), l.2.2)

/-- An operand element as the FP32 value a stage reads (R270). -/
def ovNum (bag : LineBag) (o i j : Nat) : Num × Bool :=
  let r := ovRaw bag o i j
  (rnd32 ((decodeCode (ovFmt o) r.1 0).getD .nan), r.2)

/-! ### Evaluation (R272 to R278) -/

/-- One lane: the registers v0 to v3 of its element, and the element's poison mark (R272, R278). -/
abbrev Lane := List Num × Bool

/-- A register of a lane. -/
def laneReg (l : Lane) (r : Nat) : Num := l.1.getD r Num.zero

/-- Per-element operation (R273). -/
def elemOp (op : Nat) (a b c : Num) : Num :=
  match op with
  | 0x00 => b
  | 0x01 => fadd a b
  | 0x02 => fsub a b
  | 0x03 => fmul a b
  | 0x04 => ffma a b c
  | 0x05 => fdiv a b
  | 0x06 => fmin a b
  | 0x07 => fmax a b
  | 0x08 => a.abs
  | 0x09 => a.neg
  | 0x0A => fsqrt a
  | 0x0B => frsqrt a
  | 0x0C => fexp a
  | 0x0D => flog a
  | 0x0E => fsigmoid a
  | 0x0F => ftanh a
  | 0x10 => fmax a Num.zero
  | 0x11 => fmin (fmax a b) c
  | 0x12 => if Num.zero.lt a then b else c
  | _ => fgelu a

/-- Operands that an operation reads: A, B, C (R273). -/
def elemReads (op : Nat) : Bool × Bool × Bool :=
  match op with
  | 0x00 => (false, true, false)
  | 0x01 | 0x02 | 0x03 | 0x05 | 0x06 | 0x07 => (true, true, false)
  | 0x04 | 0x11 | 0x12 => (true, true, true)
  | _ => (true, false, false)

/-- The operand vectors that the stages of a program read: B and C of per-element operations that use them, and the
indices of PERM (R271, R273, R277). -/
def usedVectors (p : Program) : List Nat :=
  (p.stages.flatMap (fun w =>
    let u := elemReads (stOp w)
    (if stBSrc w == 2 && (stOp w == 0x26 || (stOp w < 0x20 && u.2.1)) then [stBVec w] else []) ++
      (if stCSrc w == 2 && stOp w < 0x20 && u.2.2 then [stCVec w] else []))).dedup.filterMap (fun k => p.ops[k]?)

/-- Operand B or C of a stage in a lane: a register, IMM, or an element of an operand vector with its poison. -/
def stageSource (p : Program) (bag : LineBag) (w i j src reg vec : Nat) (l : Lane) : Num × Bool :=
  if src == 0 then (laneReg l reg, false)
  else if src == 1 then (ofF32 (stImm w), false)
  else ovNum bag (p.ops.getD vec 0) i j

/-- One per-element stage in one lane: the result, and whether an element read was poisoned (R272, R278). -/
def elemStage (p : Program) (bag : LineBag) (w i j : Nat) (l : Lane) : Num × Bool :=
  let b := stageSource p bag w i j (stBSrc w) (stB w) (stBVec w) l
  let c := stageSource p bag w i j (stCSrc w) (stC w) (stCVec w) l
  let u := elemReads (stOp w)
  (elemOp (stOp w) (laneReg l (stA w)) b.1 c.1, (u.2.1 && b.2) || (u.2.2 && c.2))

/-- Register A of lane l of a segment, with the mark of its element, or the identity (R275). -/
def laneA (seg : List Lane) (w l : Nat) (identity : Num) : Num × Bool :=
  match seg[l]? with
  | none => (identity, false)
  | some x => (laneReg x (stA w), x.2)

/-- One cross-lane stage in lane l: the result, and whether a lane or an index read is marked (R275, R276, R278). -/
def crossStage (p : Program) (bag : LineBag) (w i j0 : Nat) (seg : List Lane) (l : Nat) : Num × Bool :=
  let n := seg.length
  let k := stImm w
  let half := (n + 1) / 2
  let two := fun (f : Num → Num → Num) (identity : Num) =>
    let own := laneA seg w l Num.zero
    let o := laneA seg w (l ^^^ k) identity
    (f own.1 o.1, own.2 || o.2)
  match stOp w with
  | 0x20 => two fadd (.fin true 0 0)
  | 0x21 => two fmax (.inf true)
  | 0x22 => two fmin (.inf false)
  | 0x23 => laneA seg w (l ^^^ k) Num.zero
  | 0x24 => laneA seg w ((l + k) % max n 1) Num.zero
  | 0x25 => laneA seg w k Num.zero
  | 0x26 =>
    let o := p.ops.getD (stBVec w) 0
    let r := ovRaw bag o i (j0 + l)
    let x := sext (fmtBits (ovFmt o)) r.1
    let a := if 0 ≤ x && x < n then laneA seg w x.toNat Num.zero else (Num.zero, false)
    (a.1, a.2 || r.2)
  | 0x27 => laneA seg w (if l < half then 2 * l else 2 * (l - half) + 1) Num.zero
  | _ => laneA seg w (if l % 2 == 0 then l / 2 else half + (l - 1) / 2) Num.zero

/-- One stage over the lanes of a tile row. An element that is marked stays marked (R278). -/
def stageRow (p : Program) (bag : LineBag) (i j0 : Nat) (seg : List Lane) (w : Nat) : List Lane :=
  (seg.zip (List.range seg.length)).map (fun x =>
    let r := if stOp w < 0x20 then elemStage p bag w i (j0 + x.2) x.1 else crossStage p bag w i j0 seg x.2
    (x.1.1.set (stDst w) r.1, x.1.2 || r.2))

/-- A program over one tile row: values and marks in, values and marks out (R272, R278). -/
def runRow (p : Program) (bag : LineBag) (i j0 : Nat) (row : List (Num × Bool)) : List (Num × Bool) :=
  let seg : List Lane := row.map (fun v => ([v.1, Num.zero, Num.zero, Num.zero], v.2))
  (p.stages.foldl (stageRow p bag i j0) seg).map (fun l => (laneReg l (pgOut p.header), l.2))

/-- Segment width of a tile of w columns (R262). -/
def segWidth (w : Nat) : Nat := 2 ^ ceilLog2 10 w

end Sys2Proof.Machine
end

