-- ==== Sys2Proof/Machine/Satchels.lean ====
section
/-! DEFINITION. Satchel queues at work (12_streams_timetable.md R364 to R377, 08_dense_array.md R252 to R257,
14_seryo_fabric.md R436, R437): the checks on a queue that a flow names, claims, grants, arrivals, takes and releases,
and tiles that leave for another package. -/

namespace Sys2Proof.Machine

/-- A tile that leaves for another package. -/
def GrantClaim.leaves (c : GrantClaim) : Bool := c.tile.isSome && c.remote.isSome

/-- The flow number that Seryo messages carry (R436). -/
def wireFlow (id : Nat) : Nat := id % 65536

namespace Block

/-! ### The satchel graph (R372 to R374) -/

/-- A queue exists (R372). -/
def queueOk (b : Block) (n : Nat) : Bool := n < b.od' 0x2600 2 && (b.queue? n).isSome

/-- NEXT of a queue. -/
def nextOf (b : Block) (n : Nat) : Option Nat := (b.queue? n).bind SatQueue.next

/-- The walk of R373 from a queue: the queues met, oldest first, and where it ended: some of a queue met before, or
none at an end. `fuel` counts the links; the Bool says that it ran out. -/
def walk (b : Block) : Nat → Nat → List Nat → List Nat × Option Nat × Bool
  | fuel, n, seen =>
    if seen.contains n then (seen, some n, false)
    else
      match b.nextOf n with
      | none => (seen ++ [n], none, false)
      | some k =>
        match fuel with
        | 0 => (seen ++ [n], none, true)
        | fuel + 1 => walk b fuel k (seen ++ [n])

/-- The queues of the cycle that a walk from n meets. -/
def cycleFrom (b : Block) (n : Nat) : List Nat :=
  let w := b.walk 64 n []
  match w.2.1 with
  | none => []
  | some k => w.1.dropWhile (· != k)

/-- SATCHEL_CYCLE for a flow that names queue n (R373). -/
def cycleBad (b : Block) (n : Nat) : Bool :=
  (b.walk 64 n []).2.2 || (b.cycleFrom n).any (fun k => ((b.queue? k).map SatQueue.reserve).getD 0 == 0)

/-- Queues p and q lie on one cycle. -/
def sameCycle (b : Block) (p q : Nat) : Bool := (b.cycleFrom q).contains p && (b.cycleFrom q).contains q

/-! ### Claims and grants (R369, R374, R376) -/

/-- The flow holds, as input, a satchel of a queue on a cycle through q (R374). -/
def holdsOnCycle (b : Block) (id q : Nat) : Bool :=
  b.streams.queues.any (fun p => b.sameCycle p.number q &&
    p.sats.any (fun x => x.state == .held && x.holder == some id))

/-- A claim may be granted a free satchel now (R371, R374). -/
def claimFits (b : Block) (q : SatQueue) (c : GrantClaim) : Bool :=
  q.reserve < q.freeCount ||
    (0 < q.freeCount && c.remote.isNone && ((c.tile.map (fun t => b.holdsOnCycle t.flow q.number)).getD false))

/-- The stand-in flow by which the timetable ranks a producer on another package: D is +∞ (R437). -/
def guestFlow (c : GrantClaim) : Flow :=
  { Flow.blank (2 ^ 64 + (c.remote.map (·.2.1)).getD 0 + (c.remote.map (·.1)).getD 0 * 2 ^ 32) 0 0 0 0 0 c.since 0 none with
    intoQ := some c.queue }

/-- The flow that a claim stands for. -/
def claimFlow (b : Block) (c : GrantClaim) : Option Flow :=
  match c.remote, c.tile with
  | some _, none => some (guestFlow c)
  | none, some t => b.flow? t.flow
  | _, _ => none

/-- Claims of a queue that could be granted, the first of each flow, in the order they began to wait. -/
def openClaims (b : Block) (q : SatQueue) : List (GrantClaim × Flow) :=
  (b.streams.claims.foldl (fun (acc : List (GrantClaim × Flow)) c =>
    if c.queue == q.number && !c.leaves then
      match b.claimFlow c with
      | none => acc
      | some f => if acc.any (fun x => x.2.id == f.id) then acc else acc ++ [(c, f)]
    else acc) []).filter (fun x => b.claimFits q x.1)

/-- Satchels of a queue that may go to a claim now: the free ones, less the reserve where the claim has no right to it
(R371, R374). -/
def freeFor (b : Block) (q : SatQueue) (c : GrantClaim) : Nat :=
  if c.remote.isNone && ((c.tile.map (fun t => b.holdsOnCycle t.flow q.number)).getD false) then q.freeCount
  else q.freeCount - q.reserve

/-- A new claim of a local queue must wait: the claims that the timetable serves before it take the satchels it could have,
or an earlier tile of its own flow waits (R369, R376, R380). -/
def claimWaits (b : Block) (q : SatQueue) (c : GrantClaim) : Bool :=
  match b.claimFlow c with
  | none => false
  | some f =>
    b.freeFor q c ≤ ((b.openClaims q).filter (fun x => x.2.id != f.id && b.before x.2 f)).length ||
      b.streams.claims.any (fun x => x.queue == q.number && !x.leaves && (b.claimFlow x).map (·.id) == some f.id)

/-- A tile for another package must wait for its grant: no answer to a GRANT_REQ of its flow is at hand (R256, R376). -/
def leaverWaits (b : Block) (c : GrantClaim) : Bool :=
  match c.tile, c.remote with
  | some t, some (peer, _, _, _) =>
    !b.rollRefuses peer && (b.peer? peer).isSome &&
      ((b.flow? t.flow).map (fun f => f.remote.all (fun r => !(r.kind == mtGrantReq && r.answered)))).getD false
  | _, _ => false

/-- A claim put last; its buffer wait, when it has one, begins and counts (R376, R392). -/
def addClaim (b : Block) (c : GrantClaim) : Block :=
  let waits := if c.leaves then b.leaverWaits c
    else ((b.queue? c.queue).map (fun q => b.claimWaits q c)).getD false
  ({ b with
    streams := { b.streams with claims := b.streams.claims ++ [c] } } : Block).count 0x2603 7 (b2n waits)

/-- A finished tile asks for a satchel of a local queue (R369). -/
def claimLocal (b : Block) (q : Nat) (t : Tile) : Block :=
  b.addClaim { queue := q, tile := some t, remote := none, since := b.time }

/-- The satchel of a granted claim (R367, R368). -/
def grantedSatchel (c : GrantClaim) : Satchel :=
  match c.tile with
  | some t => { state := .granted, holder := some t.flow, remote := none, producer := some (none, t.flow), order := t.index,
                rows := t.rows, cols := t.cols, fmt := t.fmt, pitch := t.pitch, data := t.data, poison := t.poison, err := [] }
  | none => { Satchel.empty with
      state := .granted, remote := c.remote.map (fun r => (r.1, r.2.2.2)),
      producer := c.remote.map (fun r => (some r.1, r.2.2.2)) }

/-- The body of a GRANT (R436). -/
def grantBody (q sat flow : Nat) : Bytes := natLE 16 (pack [(0, q), (24, sat), (32, flow)])

/-- Rows of a tile whose words are written with two inverted check bits; one access a row (R524, log 33). -/
def tileErrs (b : Block) (w : Wing) (rows : Nat) : List Nat × Block :=
  (List.range rows).foldl (fun (acc : List Nat × Block) i =>
    let x := acc.2.injected (0x20 + wingNo w) 2
    if x.1 then (acc.1 ++ [i], x.2) else (acc.1, (x.2.injected (0x20 + wingNo w) 1).2)) ([], b)

/-- TILE_UE for the rows of a satchel whose words hold a double-bit error, as they are read (R501). -/
def foundTile (b : Block) (q : SatQueue) (k : Nat) : Block :=
  match q.sats[k]? with
  | none => b
  | some x => x.err.foldl (fun b _ => b.found 4 (if q.south then 0x21 else 0x20) 0 true) b

/-- SATCHEL_GRANT: a free satchel of the queue goes to the claim that the timetable puts first (R369, R380). -/
def grantNext (b : Block) (n : Nat) : Block :=
  match b.queue? n with
  | none => b
  | some q =>
    let cs := b.openClaims q
    match b.grant (2 ^ 16 + n) (cs.map (·.2)) with
    | none => b
    | some (f, b1) =>
      match cs.find? (fun x => x.2.id == f.id), q.sats.findIdx? (fun x => x.state == .free) with
      | some (c, _), some k =>
        let b2 : Block := { b1 with streams := { b1.streams with claims := b1.streams.claims.erase c } }
        let x := b2.tileErrs (if q.south then .south else .north) ((c.tile.map (·.rows)).getD 0)
        let b3 := x.2.modQueue n (fun q => { q with sats := q.sats.set k { grantedSatchel c with err := x.1 } })
        match c.remote with
        | none => b3
        | some (p, txn, port, flow) => b3.reply port p mtGrant 0 txn (grantBody n k flow)
      | _, _ => b

/-! ### Arrival, take, release (R368 to R370, R379) -/

/-- The granted satchel that may arrive next: its tile written, and no earlier tile of its flow outstanding here. -/
def readyToArrive (q : SatQueue) : Option Nat :=
  q.sats.findIdx? (fun x => x.state == .granted && x.holder.isSome && x.rows * x.pitch ≤ x.data.length &&
    q.sats.all (fun y => !(y.state == .granted && y.holder == x.holder && y.order < x.order)))

/-- Satchel k of a queue arrives. -/
def arriveSatchel (b : Block) (n k : Nat) : Block :=
  let id := ((b.queue? n).bind (fun q => q.sats[k]?)).bind (·.holder)
  let b1 := b.modQueue n (fun q =>
    { q with sats := q.sats.modify k (fun x => { x with state := .arrived, holder := none, order := q.count }),
             count := q.count + 1 })
  match id with
  | none => b1
  | some i => b1.modFlow i (fun f => { f with tilesDone := f.tilesDone + 1 })

/-- The arrived satchel that the consumer takes next: the earliest arrival. -/
def nextArrived (q : SatQueue) : Option Nat :=
  let best := q.sats.foldl (fun (acc : Option Nat) x =>
    if x.state == .arrived then some (match acc with | none => x.order | some o => min o x.order) else acc) none
  best.bind (fun o => q.sats.findIdx? (fun x => x.state == .arrived && x.order == o))

/-- The take interval of R379 at a take. -/
def takeInterval (q : SatQueue) (now : Nat) : Nat :=
  match q.lastTake with
  | none => q.interval
  | some t => ((q.interval : Int) + Int.fdiv ((now - t : Nat) - (q.interval : Int)) 8).toNat

/-- The consumer takes the next satchel; a satchel with poisoned rows shows in POISON_SEEN. -/
def takeSatchel (b : Block) (n id : Nat) : Block :=
  match b.queue? n with
  | none => b
  | some q =>
    match nextArrived q with
    | none => b
    | some k =>
      (b.foundTile q k).modQueue n (fun q =>
        { q with sats := q.sats.modify k (fun x => { x with
                   state := .held, holder := some id, err := [],
                   poison := (x.poison.zip (List.range x.poison.length)).map (fun p => p.1 || x.err.contains p.2) }),
                 interval := takeInterval q b.time, lastTake := some b.time })

/-- The satchels a flow holds as input, in the order it took them: arrival order. -/
def heldBy (b : Block) (n id : Nat) : List Satchel :=
  match b.queue? n with
  | none => []
  | some q => (q.sats.filter (fun x => x.state == .held && x.holder == some id)).insertionSort (fun x y => x.order ≤ y.order)

/-- The satchels that a flow holds of a queue return to FREE (R253, R370). -/
def releaseHeld (b : Block) (n id : Nat) : Block :=
  b.modQueue n (fun q =>
    { q with sats := q.sats.map (fun x => if x.state == .held && x.holder == some id then Satchel.empty else x) })

/-! ### Tiles that leave for another package (R256, R257, R437) -/

/-- Requests for grants of a flow, so far: waiting or granted, refused (kept as GRANT), and used for a tile. -/
def asked (f : Flow) : Nat :=
  (f.remote.filter (fun r => r.kind == mtGrantReq || r.kind == mtGrant || r.kind == mtTile)).length
/-- Tiles of a flow sent so far: TILE_SEQ of the next (R436, log 37). -/
def tilesSent (f : Flow) : Nat := (f.remote.filter (fun r => r.kind == mtTile)).length
/-- Grant requests of a flow that await an answer. -/
def askedOpen (f : Flow) : Nat := (f.remote.filter (fun r => r.kind == mtGrantReq && !r.answered)).length

/-- The body of a GRANT_REQ (R436). -/
def grantReqBody (q rows bytes flow : Nat) : Bytes := natLE 16 (pack [(0, q), (24, rows), (32, bytes), (64, flow)])

/-- A remote operation is refused now: the peer absent, or its roll call (R257, R444). -/
def peerGone (b : Block) (p : Nat) : Bool := (b.peer? p).isNone

/-- GRANT_REQ for the tile of a pass that begins, with at most 2 outstanding per flow (R437). -/
def askGrant (b : Block) (id peer q rows bytes : Nat) : Block :=
  match b.flow? id with
  | none => b
  | some f =>
    if 2 ≤ askedOpen f || b.peerGone peer || b.rollRefuses peer || b.effectsHeld f then b
    else
      let r := b.sendMsg peer mtGrantReq 0 (grantReqBody q rows bytes (wireFlow id))
      match r.1 with
      | none => b
      | some txn =>
        r.2.modFlow id (fun f => { f with remote := f.remote ++
          [{ kind := mtGrantReq, peer := peer, table := q, row := rows, txn := txn, answered := false, status := 0,
             data := [] }] })

/-- The body of one TILE part (R436). -/
def tileBody (q sat last flow seq : Nat) (t : Tile) (off : Nat) : Bytes :=
  let d := slice t.data off (min 4096 (t.rows * t.pitch - off))
  natLE 48 (pack [(0, q), (24, sat), (30, last), (32, flow), (64, seq), (96, t.rows), (104, t.cols), (114, t.fmt),
    (128, t.pitch), (144, off), (162, d.length)] +
      ((t.poison.zip (List.range t.poison.length)).map (fun p => (b2n p.1) <<< (192 + p.2))).sum) ++ d

/-- The TILE parts of a tile sent; the answer: the TXN of the last (R437). -/
def sendTile (b : Block) (peer q sat : Nat) (t : Tile) : Nat × Block :=
  let n := max 1 (ceilDiv (t.rows * t.pitch) 4096)
  (List.range n).foldl (fun (acc : Nat × Block) k =>
    let r := acc.2.sendMsg peer mtTile (wireFlow t.flow * 2 ^ 20 + 4096 * k)
      (tileBody q sat (b2n (k + 1 == n)) (wireFlow t.flow) t.index t (4096 * k))
    (r.1.getD acc.1, r.2)) (0, b)

/-- A TILE with RETURN: the grant is given back (R437), but to no mismatched peer (R444). -/
def returnGrant (b : Block) (peer q sat flow : Nat) : Block :=
  if b.rollRefuses peer then b
  else (b.sendMsg peer mtTile (flow * 2 ^ 20) (natLE 48 (pack [(0, q), (24, sat), (31, 1), (32, flow)]))).2

/-- A tile that waits at its claim is counted as poisoned (R257). -/
def loseTile (b : Block) (c : GrantClaim) (t : Tile) : Block :=
  ({ b with streams := { b.streams with claims := b.streams.claims.erase c } } : Block).modFlow t.flow (fun f => lostTile f t)

/-- A leaving tile goes as far as it can: refused or departed, it is counted as poisoned; granted, it is sent. -/
def moveTile (b : Block) (c : GrantClaim) : Block :=
  match c.tile, c.remote with
  | some t, some (peer, _, _, _) =>
    match b.flow? t.flow with
    | none => b
    | some f =>
      if b.effectsHeld f then b
      else if b.rollRefuses peer then (b.loseTile c t).note t.flow stEpochMismatch
      else if b.peerGone peer then b.loseTile c t
      else
        match f.remote.find? (fun r => r.kind == mtGrantReq && r.answered) with
        | none => if asked f ≤ t.index then b.askGrant t.flow peer c.queue t.rows (t.rows * t.pitch) else b
        | some r =>
          let drop := fun (g : Flow) => { g with remote := g.remote.erase r }
          if r.status != 0 then
            (b.modFlow t.flow (fun g => { g with
              remote := updFirst (fun x => x == r) (fun x => { x with kind := mtGrant }) g.remote })).loseTile c t
          else
            let b1 := (b.modFlow t.flow drop)
            let s := b1.sendTile peer c.queue (leNat r.data) { t with index := tilesSent f }
            ({ s.2 with streams := { s.2.streams with claims := s.2.streams.claims.erase c } } : Block).modFlow t.flow
              (fun g => { g with remote := g.remote ++
                [{ kind := mtTile, peer := peer, table := c.queue, row := t.rows, txn := s.1, answered := false,
                   status := 0, data := [] }] })
  | _, _ => b

/-- Every leaving tile of a flow moved on, in order. -/
def moveTiles (b : Block) (id : Nat) : Block :=
  (b.streams.claims.filter (fun c => c.leaves && (c.tile.map (·.flow)) == some id)).foldl moveTile b

/-- Every leaving tile moved on, as when a RELEASE command no longer holds its transactions (R399). -/
def moveAllTiles (b : Block) : Block :=
  (((b.streams.claims.filter GrantClaim.leaves).filterMap (fun c => c.tile.map (·.flow))).eraseDups).foldl moveTiles b

/-- A finished tile asks for a satchel of a queue of another package (R256). -/
def claimRemote (b : Block) (q peer : Nat) (t : Tile) : Block :=
  (b.addClaim { queue := q, tile := some t, remote := some (peer, 0, 0, 0), since := b.time }).moveTiles t.flow

/-- A tile of the flow has not yet arrived in its queue. -/
def tileOpen (b : Block) (id : Nat) : Bool :=
  b.streams.claims.any (fun c => (c.tile.map (·.flow)) == some id) ||
    b.streams.queues.any (fun q => q.sats.any (fun x => x.state == .granted && x.holder == some id))

end Block

end Sys2Proof.Machine
end

