-- ==== Sys2Proof/Machine/Output.lean ====
section
/-! DEFINITION. Output of commands (06_gather_pooling.md R183 to R191): layouts, conversion of finished rows, poisoned
rows, whole 4 KiB blocks with their CRC words (R340), poison maps, tiles for satchel queues. -/

namespace Sys2Proof.Machine

/-- A format with group scales. -/
def isScaled (f : Nat) : Bool := fmtGroup f != 0

/-- R183: OUT_STRIDE fits the format and the row length. -/
def strideOk (fmt dim stride : Nat) : Bool :=
  if isScaled fmt then stride % 2 == 0 && packedMin fmt dim ≤ stride && stride ≤ 4096
  else dim * (fmtBits fmt / 8) ≤ stride && aligned stride 64

/-- Address of output row i (R183). -/
def outRowAddr (fmt out stride i : Nat) : Nat := if isScaled fmt then placeRow out stride i else out + i * stride

/-- A finished row converted to an output format (R185). -/
def convertRow (fmt conv : Nat) (vals : List Num) : Enc :=
  encodeRow { fmt := fmt, conv := conv, sideFmt := 0, cap := 0 } vals

/-- Contents of a poisoned PACKED row (R189). -/
def poisonRow (fmt dim : Nat) : Bytes :=
  let e : Enc := { Enc.empty with
    codes := List.replicate dim (if fmt ≤ 2 then ((fmtFloat fmt).nanCode).getD 0 else 0)
    scales := List.replicate (fmtGroups fmt dim) (nanScale fmt) }
  packRow fmt dim e

/-- Contents of a poisoned row of a stored layout: as above, with STORED_POISON for a HEADED row (R189). -/
def poisonShape (r : RowShape) : Bytes :=
  patch (patch (zeros r.stride) r.codesOff (poisonRow r.fmt r.dim)) 0 (if r.headed then natLE 8 (2 ^ 9) else [])

/-- A run of output bytes, with the mark that it belongs to a poisoned row. -/
structure OutBytes where
  addr : Nat
  data : Bytes
  poison : Bool
  deriving DecidableEq, Repr

/-- Bytes p laid over a block that starts at base. -/
def overlay (base : Nat) (blk : Bytes) (p : OutBytes) : Bytes :=
  if base ≤ p.addr then patch blk (p.addr - base) p.data else patch blk 0 (p.data.drop (base - p.addr))

/-- A run touches the 4 KiB block at base. -/
def OutBytes.inBlock (p : OutBytes) (base : Nat) : Bool := p.addr < base + 4096 && base < p.addr + p.data.length

namespace Block

/-- Saturations, escapes and NaN groups of a conversion added to a flow's tallies (R89, R103). -/
def tally (b : Block) (id : Nat) (e : Enc) : Block :=
  b.modFlow id (fun f => { f with sat := f.sat + e.sat, esc := f.esc + e.esc, nanGroups := f.nanGroups + e.nanGroups })

/-- A write split among the owners of its 4 KiB units (R320, R325). -/
def writeOut (b : Block) (id : Nat) (a : Nat) (data : Bytes) : Block :=
  (cutPages a data.length).foldl (fun b p => b.requestWrite (some id) p.1 (slice data (p.1 - a) p.2) none) b

/-- One whole block written with its CRC word, marked when it is poisoned (R184, R189, R340). -/
def writeBlock (b : Block) (id base : Nat) (data : Bytes) (poison : Bool) : Block :=
  match b.crcWord id base with
  | none => (b.requestWrite (some id) base data none).count 0x2504 0x0F 1
  | some w => b.requestWrite (some id) base data (some (w, if poison then crc32c data ^^^ 0xFFFF_FFFF else crc32c data))

/-- An output area written in whole blocks from its 4 KiB aligned start to the block of its last byte (R184). -/
def writeArea (b : Block) (id out stop : Nat) (runs : List OutBytes) : Block :=
  (List.range (ceilDiv (stop - out) 4096)).foldl (fun b k =>
    let base := out + 4096 * k
    let here := runs.filter (fun p => p.inBlock base)
    b.writeBlock id base (here.foldl (overlay base) (zeros 4096)) (here.any (·.poison))) b

/-- The poison map (R190): one bit per output row, whole 64-byte runs. -/
def writeMap (b : Block) (id addr : Nat) (marks : List Bool) : Block :=
  if addr == 0 then b
  else b.writeOut id addr (packCodes 1 (roundUp (ceilDiv marks.length 8) 64) (marks.map b2n))

end Block

/-- The pieces of one output row in column order, as one run of values, and the row's poison. -/
def rowValues (f : Flow) (row : Nat) : List Num × Bool :=
  let ps := (f.out.filter (fun p => p.row == row)).insertionSort (fun x y => x.col ≤ y.col)
  (ps.flatMap (·.vals), ps.any (·.poison))

/-- How a command writes its results. -/
structure OutSpec where
  fmt : Nat
  conv : Nat
  rows : Nat
  dim : Nat
  out : Nat
  stride : Nat
  /-- 0 memory, 1 local satchel queue, 2 queue of another package. -/
  kind : Nat
  peer : Nat
  map : Nat
  /-- Rows all of whose elements are +0 codes with zero scales: padding positions (R193, R222). -/
  blank : List Nat
  deriving DecidableEq, Repr

namespace Block

/-- One finished row as bytes of its output format (R185, R189). -/
def rowBytes (b : Block) (f : Flow) (o : OutSpec) (row : Nat) : OutBytes × Block :=
  let v := rowValues f row
  let a := outRowAddr o.fmt o.out o.stride row
  if v.2 then (⟨a, poisonRow o.fmt o.dim, true⟩, b)
  else if o.blank.contains row then (⟨a, zeros (packRow o.fmt o.dim Enc.empty).length, false⟩, b)
  else
    let e := convertRow o.fmt o.conv v.1
    (⟨a, packRow o.fmt o.dim e, false⟩, b.tally f.id e)

/-- Every row of a command's memory output, its blocks, its poison map and its poison counts (R184, R189 to R191). -/
def writeRows (b : Block) (f : Flow) (o : OutSpec) : Block :=
  let r := (List.range o.rows).foldl (fun (acc : List OutBytes × Block) i =>
    let x := acc.2.rowBytes f o i
    (acc.1 ++ [x.1], x.2)) ([], b)
  let stop := (r.1.map (fun p => p.addr + p.data.length)).foldl max o.out
  let bad := (r.1.filter (·.poison)).length
  let b1 := (r.2.writeArea f.id o.out stop r.1).writeMap f.id o.map (r.1.map (·.poison))
  if 0 < bad then b1.addPoison f.id bad else b1

/-- Bytes from one row of a tile to the next: OUT_STRIDE (R186), brought to a multiple of 64 (R367). -/
def tilePitch (o : OutSpec) : Nat := roundUp o.stride 64

/-- A tile claims a satchel of its queue, on this package or another (R186, R256). -/
def claimTile (b : Block) (o : OutSpec) (t : Tile) : Block :=
  if o.kind == 1 then b.claimLocal (o.out % 2 ^ 24) t else b.claimRemote (o.out % 2 ^ 24) o.peer t

/-- One finished tile handed to a satchel queue (R186, R254, R256): rows row0.., columns col0... -/
def handTile (b : Block) (f : Flow) (o : OutSpec) (ps : List OutPiece) (index : Nat) : Block :=
  let cols := (ps.head?.map (fun p => p.vals.length)).getD 0
  let r := ps.foldl (fun (acc : Bytes × Block) p =>
    let row :=
      if p.poison then (poisonRow o.fmt cols, acc.2)
      else if o.blank.contains p.row then (zeros (packRow o.fmt cols Enc.empty).length, acc.2)
      else
        let e := convertRow o.fmt o.conv p.vals
        (packRow o.fmt cols e, acc.2.tally f.id e)
    (acc.1 ++ fit (tilePitch o) row.1, row.2)) ([], b)
  r.2.claimTile o { flow := f.id, index := index, rows := ps.length, cols := cols, fmt := o.fmt, pitch := tilePitch o,
                    data := r.1, poison := ps.map (·.poison) }

/-- The pieces of row group g in column group c, each with the poison of its whole row. -/
def groupPieces (f : Flow) (g c : Nat) : List OutPiece :=
  let here := f.out.filter (fun p => 128 * g ≤ p.row && p.row < 128 * g + 128)
  let bad := (here.filter (·.poison)).map (·.row)
  (here.filter (fun p => p.col == c)).map (fun p => { p with poison := bad.contains p.row })

/-- The tiles of a row group handed to a satchel queue in column order. They leave once every column group is finished,
since a column group may poison rows of them all (R189, R255, R278; log 56). -/
def handGroup (b : Block) (f : Flow) (o : OutSpec) (g : Nat) : Block :=
  let n := ceilDiv o.dim 512
  (List.range n).foldl (fun b c => b.handTile f o (groupPieces f g c) (g * n + c)) b

/-- A finished tile of a flow: its pieces kept, and, with the last column group of its row group, handed to its queue. -/
def addPieces (b : Block) (id : Nat) (o : OutSpec) (ps : List OutPiece) (g c : Nat) : Block :=
  let b1 := b.modFlow id (fun f => { f with out := f.out ++ ps, tilesFormed := f.tilesFormed + 1 })
  if o.kind == 0 || c + 1 < ceilDiv o.dim 512 then b1
  else match b1.flow? id with
    | none => b1
    | some f => b1.handGroup f o g

end Block

end Sys2Proof.Machine
end

