-- ==== Sys2Proof/Machine/Array.lean ====
section
/-! DEFINITION. The dense arrays and vector engines as every family uses them: terms per step (R176, R234), cell
arithmetic (R177 to R179, R234, R235), passes and blocks given to a wing, panel slots (R247 to R251), chains with
program slots (R262 to R267, R272). -/

namespace Sys2Proof.Machine

/-! ### Terms per step -/

/-- Twice p of one format (R176). -/
def twiceTerms (f : Nat) : Nat :=
  match f with
  | 0 | 8 | 9 => 1
  | 1 | 2 => 2
  | 3 | 4 | 10 => 4
  | _ => 8

/-- Twice p of a pair: that of the format with the smaller p (R233). -/
def twicePair (f g : Nat) : Nat := min (twiceTerms f) (twiceTerms g)

/-- Array steps for n terms; the shortest pass takes one (R260). -/
def stepsFor (p2 n : Nat) : Nat := max 1 (ceilDiv (2 * n) p2)

/-- Terms that enter an accumulator together. -/
def termsTogether (p2 : Nat) : Nat := max 1 (p2 / 2)

/-- Both formats accumulate in INT32 (R234). -/
def intPair (f g : Nat) : Bool := isPlainInt f && isPlainInt g

/-- One cell: FP32 or INT32 accumulation of products, p at a time (R177, R234, R235). A poisoned operand, decoded as
NaN, makes its cell NaN (R238). -/
def cell (int : Bool) (p2 : Nat) (products : List Num) : Num × Bool :=
  if int && products.any Num.isNan then (Num.nan, false)
  else if int then
    let r := accumulateInt (termsTogether p2) (products.map toIntExact)
    (Num.ofInt r.1, r.2)
  else (accumulate (termsTogether p2) products, false)

/-- A cell of PANEL mode: row operand times column operand in rising k. -/
def panelCell (int : Bool) (p2 : Nat) (x y : List Num) : Num × Bool := cell int p2 (List.zipWith Num.mul x y)

/-- Column group c of a row of values. -/
def columnGroup (c : Nat) (xs : List Num) : List Num := (xs.drop (512 * c)).take 512

/-- Rows of row group g among n (R176, R246). -/
def groupRows (n g : Nat) : List Nat := span (128 * g) (min n (128 * g + 128))

/-- Row groups of n rows, column groups of n columns. -/
def rowGroups128 (n : Nat) : Nat := ceilDiv n 128
def colGroups (n : Nat) : Nat := ceilDiv n 512

/-- A pass or block with nothing in it yet. -/
def Pass.at (flow group col steps : Nat) : Pass :=
  { flow := flow, group := group, col := col, left := steps, a := [], b := [] }

/-- The elements of an operand row as the feeders decode it: NaN for a poisoned one (R238). -/
def operandRow (s : RowShape) (data : Bytes) (poison : Bool) : List Num :=
  if poison || s.poisoned data then List.replicate s.dim Num.nan else s.decode data

/-! ### Row copies -/

/-- A row copy as it stands: none while its request awaits an answer; poisoned by a bad answer (R168, R169, R430,
R432). -/
def copyNow (f : Flow) (c : RowCopy) : Option RowCopy :=
  match c.asked with
  | none => some c
  | some (p, t) =>
    match f.remote.find? (fun r => r.peer == p && r.txn == t) with
    | none => some { c with poison := true }
    | some r => if r.answered then some { c with data := r.data, poison := c.poison || r.status != 0 } else none

/-- The copy that serves a row in a window. -/
def copyFor (f : Flow) (window row : Nat) : Option RowCopy :=
  (f.rows.find? (fun c => c.window == window && c.row == row)).bind (copyNow f)

/-- The copy of a window exists, answered or not. -/
def hasCopy (f : Flow) (window row : Nat) : Bool := f.rows.any (fun c => c.window == window && c.row == row)

/-- The row of a window has been fetched or asked for (R202). -/
def wasFetched (f : Flow) (window row : Nat) : Bool :=
  f.rows.any (fun c => c.window == window && c.row == row && c.room != 0)

/-- The row's copy is poisoned, by its answer, its length (R432) or its own bytes (R36). -/
def copyBad (r : RowShape) (c : RowCopy) : Bool := c.poison || c.data.length != r.stride || r.poisoned c.data

namespace Block

/-- Copies marked as consumed (R170). -/
def consume (b : Block) (id : Nat) (p : RowCopy → Bool) : Block :=
  b.modFlow id (fun f => { f with rows := f.rows.map (fun c => if p c then { c with used := true } else c) })

/-- The first copy of each row among some copies. -/
def firstCopies (l : List RowCopy) : List RowCopy :=
  l.foldl (fun acc c => if acc.any (fun x => x.row == c.row && x.window == c.window) then acc else acc ++ [c]) []

/-- Provisional copies of a flow: its rows, the keys of its RECALL passes that have not begun (R209), the weights of its
passes that have not begun and of the slices that it fetched (R248). -/
def provisionalCopies (b : Block) (f : Flow) : List RowCopy :=
  let e := b.engine (wingOf f.su)
  let waiting := (e.ready.filter (fun p => p.flow == f.id)).flatMap (·.b)
  let slices := if f.opcode == opProject then (e.slots.filter (fun s => s.users.head? == some f.id)).flatMap (·.cols) else []
  (f.rows ++ firstCopies (slices ++ waiting)).filter (fun c => !c.used)

/-- Bytes of provisional copies of a stream unit (R171). -/
def provisional (b : Block) (su : Nat) : Nat :=
  (((b.flows.filter (fun f => f.su == su)).flatMap b.provisionalCopies).map (·.room)).sum

/-- The run-ahead space of a stream unit takes n more bytes (R171, R202). -/
def aheadRoom (b : Block) (su n : Nat) : Bool := b.provisional su + n ≤ b.od' 0x2602 1 * 1024

/-- Copies just fetched for the work that a flow's wing takes next. DESIGN CHOICE (log 57): what the run-ahead space does
not take enters the feeders at once, consumed. -/
def settleCopies (b : Block) (su : Nat) (cs : List RowCopy) : List RowCopy :=
  (cs.foldl (fun (acc : List RowCopy × Nat) c =>
    if b.od' 0x2602 1 * 1024 < acc.2 + c.room then (acc.1 ++ [{ c with used := true }], acc.2)
    else (acc.1 ++ [c], acc.2 + c.room)) ([], b.provisional su)).1

/-! ### Work given to a wing -/

/-- A pass whose operands are at the feeders. -/
def givePass (b : Block) (w : Wing) (p : Pass) : Block :=
  let e := b.engine w
  (b.setEngine w { e with ready := e.ready ++ [p] }).modFlow p.flow (fun f => { f with formed := f.formed + 1 })

/-- A block of the direct feed (R265). -/
def giveBlock (b : Block) (w : Wing) (p : Pass) : Block :=
  let e := b.engine w
  (b.setEngine w { e with feed := e.feed ++ [p] }).modFlow p.flow (fun f => { f with formed := f.formed + 1 })

/-- Index of the counters of a wing: North or South (R259, R284). -/
def arrayOd (w : Wing) : Nat := match w with | .north => 0x2110 | .south => 0x2190
def vectorOd (w : Wing) : Nat := match w with | .north => 0x2111 | .south => 0x2191

/-- The tiles of a command are built: its context is given up. -/
def builtAll (b : Block) (id : Nat) : Block :=
  b.modFlow id (fun f => if f.stage == .running then { f with stage := .built } else f)

/-! ### Chains -/

/-- A program brought into a slot; a load counts (R267). -/
def loadProgram (b : Block) (w : Wing) (bytes : Bytes) : Block :=
  let e := b.engine w
  if e.programs.contains bytes then b.setEngine w { e with programs := e.programs.filter (· != bytes) ++ [bytes] }
  else
    let kept := if e.programs.length < Config.programSlots then e.programs else e.programs.tail
    (b.setEngine w { e with programs := kept ++ [bytes] }).count (vectorOd w) 4 1

/-- Lane-operations and busy steps of s stages over rows of a tile (R262, R263, R284). -/
def countChain (b : Block) (w : Wing) (s rows cols : Nat) : Block :=
  (b.count (vectorOd w) 1 (s * rows * cols)).count (vectorOd w) 2 (s * ceilDiv (rows * segWidth cols) 2048)

/-- Operand lines that hold a scalar, read once for the whole command and kept with it (R270). -/
def chainScalars (m : Memory) (b : Block) (f : Flow) (p : Program) : LineBag × Block :=
  let ls := (((usedVectors p).filter ovScalar).map (fun o => lineAddr (ovAddr o))).dedup
  let r := fetchLines m b f.id f.acquires (ls.filter (fun a => f.scalars.all (fun s => s.1 != a)))
  let all := f.scalars ++ r.1
  (all, if r.1.isEmpty then r.2 else r.2.modFlow f.id (fun g => { g with scalars := all }))

/-- A tile's rows through the command's chain program: output row numbers, values and poison in and out (R272, R278).
Without a program the values pass unchanged. -/
def runChain (m : Memory) (b : Block) (w : Wing) (f : Flow) (slots col : Nat)
    (rows : List (Nat × List Num × Bool)) : List OutPiece × Block :=
  if slots == 0 then (rows.map (fun r => { row := r.1, col := col, vals := r.2.1, poison := r.2.2 }), b)
  else
    let bytes := f.chainBytes slots
    let p := parseProgram bytes
    let b1 := b.loadProgram w (bytes.take (pgBytes p.header))
    let cols := ((rows.head?).map (fun r => r.2.1.length)).getD 0
    let j0 := 512 * col
    let once := chainScalars m b1 f p
    let vs := (usedVectors p).filter (fun o => !ovScalar o)
    let ls := ((rows.flatMap (fun r => ovLines vs r.1 1 j0 cols)).dedup).filter (fun a => once.1.all (fun s => s.1 != a))
    let bag := fetchLines m once.2 f.id f.acquires ls
    let out := rows.map (fun r =>
      let x := runRow p (once.1 ++ bag.1) r.1 j0 (r.2.1.map (fun v => (rnd32 v, r.2.2)))
      ({ row := r.1, col := col, vals := x.map (·.1), poison := r.2.2 || x.any (·.2) } : OutPiece))
    (out, bag.2.countChain w p.stages.length rows.length cols)

end Block

end Sys2Proof.Machine
end

