-- ==== Sys2Proof/Machine/Checks.lean ====
section
/-! DEFINITION. What the front end checks of a command at its dispatch, as far as several opcodes share it: the table
descriptor copy (R28, R30, R44), format fields (R67, R84), satchel queues (R372, R373, R513); and reading a row through
the row cache for a flow (R165). -/

namespace Sys2Proof.Machine

namespace Block

/-- Every status whose condition holds is raised once. -/
def refuseIf (b : Block) (id : Nat) (l : List (Bool × Nat)) : Block :=
  l.foldl (fun b x => if x.1 then b.note id x.2 else b) b

/-- The descriptor of a command's table copied at dispatch, as copy 0, and its shard map as copy 1 (R30, R44, R46); a
poisoned beat is a descriptor that fails. -/
def checkTable (m : Memory) (b : Block) (f : Flow) (t : Nat) : Nat × Block :=
  let r := b.tableBeat m f.id t f.acquires
  match r.1 with
  | none => (0, r.2.2.note f.id stBadTable)
  | some d =>
    let bad := r.2.1 || tableBad d
    let map := if bad || bit d 512 then []
      else [(⟨tdMap d, r.2.2.peek m (tdMap d) (16 * tdShards d) f.acquires⟩ : Store)]
    let b1 := r.2.2.modFlow f.id (fun g =>
      { g with copies := ⟨b.od' 0x2300 1 + 64 * t, natLE 65 d⟩ :: map, poisonSeen := g.poisonSeen || r.2.1 })
    (d, b1.refuseIf f.id [(bad, stBadTable)])

/-- The two descriptor beats of a command's desk copied at dispatch, desk then class (R47, R50). -/
def checkDesk (m : Memory) (b : Block) (f : Flow) (n : Nat) : Nat × Nat × Block :=
  let r := b.deskRead m f.id n f.acquires
  let b1 := r.2.2.2.2.modFlow f.id (fun g =>
    { g with copies := [⟨b.deskAddr n, natLE 32 r.1⟩, ⟨0, natLE 32 r.2.1⟩], poisonSeen := g.poisonSeen || r.2.2.2.1 })
  (r.1, r.2.1, b1.refuseIf f.id [(r.2.2.1, stBadDesk)])

/-- Local satchel queues that a command or stream names: into which it produces tiles of `bytes`, and from which it
holds `held` satchels at once (R372, R373, R513). -/
def checkQueues (b : Block) (id : Nat) (into src : Option Nat) (bytes held : Nat) : Block :=
  let qs := src.toList ++ into.toList
  let bad := qs.any (fun q => !b.queueOk q) ||
    into.any (fun q => decide (((b.queue? q).map SatQueue.size).getD 0 < bytes)) ||
    src.any (fun q => decide (((b.queue? q).map SatQueue.depth).getD 0 < held) ||
      into.any (fun k => b.nextOf q != some k))
  let gone := qs.any (fun q => ((b.queue? q).map (fun x => b.wingFenced (if x.south then .south else .north))).getD false)
  (b.refuseIf id [(bad, stBadSatchel), (!bad && qs.any b.cycleBad, stSatchelCycle), (gone, stFencedUnit)]).modFlow id
    (fun f => { f with intoQ := into, fromQ := src })

/-- The satchel queue of a command's output: number and tile bytes. -/
def checkOut (b : Block) (id out rows stride : Nat) (queue : Bool) : Block :=
  if queue then b.checkQueues id (some (out % 2 ^ 24)) none (min 128 rows * stride) 0 else b

/-- The end of a command's rows: written to memory with their poison map, or counted where they went into satchels
(R184, R189 to R191, R257); the answer: poisoned rows. -/
def endRows (b : Block) (f : Flow) (o : OutSpec) : Nat × Block :=
  let marks := (List.range o.rows).map (fun i => (rowValues f i).2)
  let bad := (marks.filter (fun x => x)).length
  (bad, if o.kind == 0 then b.writeRows f o else (if 0 < bad then b.addPoison f.id bad else b).writeMap f.id o.map marks)

/-- Lines of a local row or structure read for a flow with a hint (R165, R319). -/
def rowLines (m : Memory) (b : Block) (a len hint : Nat) (flow : Option Nat) (acquire : Bool) : Bytes × Bool × Block :=
  if b.absentRange a len then tierRead m b a len else lookupSpan m b a len hint flow acquire

/-- An operand run read for a flow through the row cache, its 4 KiB blocks checked where the command asks (R330, R341);
host memory enters no cache. -/
def readCached (m : Memory) (b : Block) (id a len hint : Nat) (acquire crc : Bool) : Bytes × Bool × Block :=
  if isHost a then
    let r := readInput m b id a len crc
    (r.1.data, r.1.bad.any (fun x => x), r.2)
  else if crc then
    (cutPages a len).foldl (fun (acc : Bytes × Bool × Block) p =>
      let base := p.1 / 4096 * 4096
      let r := acc.2.2.rowLines m base 4096 hint (some id) acquire
      let c := r.2.2.checkCrc m id base r.1
      (acc.1 ++ slice r.1 (p.1 - base) p.2, acc.2.1 || r.2.1 || c.1, c.2)) ([], false, b)
  else b.rowLines m a len hint (some id) acquire

end Block

/-- R183 for a command's rows: a tile of a satchel queue holds at most 512 columns (log 24). -/
def outStrideOk (queue : Bool) (fmt dim stride : Nat) : Bool :=
  strideOk fmt (if queue then min 512 dim else dim) stride

end Sys2Proof.Machine
end

