-- ==== Sys2Proof/Machine/Gather.lean ====
section
/-! DEFINITION. GATHER_POOL and GATHER_RAW (06_gather_pooling.md R158 to R196): their checks at dispatch, intake with
the dedupe window, row sources and run-ahead, the values of pooling passes, and the end of their output. -/

namespace Sys2Proof.Machine

/-! ### Body fields (R174, R192) -/

namespace Flow
def gIdxFmt (f : Flow) : Nat := f.fld 83 83
def gInline (f : Flow) : Bool := f.flag 84
def gCrc (f : Flow) : Bool := f.flag 90
def gOutQueue (f : Flow) : Bool := f.flag 91
def gOutFmt (f : Flow) : Nat := f.fld 95 92
def gConv (f : Flow) : Nat := f.fld 99 96
def gChain (f : Flow) : Nat := f.fld 102 100
def gCount (f : Flow) : Nat := f.fld 159 128
def gIdx (f : Flow) : Nat := f.fld 243 192
def gOut (f : Flow) : Nat := f.fld 435 384
def gStride (f : Flow) : Nat := f.fld 471 448
def gMap (f : Flow) : Nat := f.fld 511 472 * 4096
/-- GATHER_RAW. -/
def isRaw (f : Flow) : Bool := f.opcode == opGatherRaw
def gVerbatim (f : Flow) : Bool := f.isRaw && f.flag 80
def gTranspose (f : Flow) : Bool := f.isRaw && f.flag 81
def gOffsets (f : Flow) : Nat := f.fld 307 256
def gWeights (f : Flow) : Nat := f.fld 371 320
def gWgtFmt (f : Flow) : Nat := f.fld 87 86
def gBagLen (f : Flow) : Nat := f.fld 127 112
/-- Bags of a pooled gather; a raw one has an output row for each position. -/
def gBags (f : Flow) : Nat := if f.isRaw then f.gCount else f.fld 191 160
/-- The descriptor copy of its table. -/
def gTable (f : Flow) : Nat := f.copyAt 0
end Flow

/-- Pooling of a gather: 1 sum, 2 mean, 3 weighted, 4 max; 0 for a raw one (R174). -/
def poolOf (f : Flow) (d : Nat) : Nat :=
  if f.isRaw then 0 else if f.fld 82 80 == 0 then tdPool d + 1 else f.fld 82 80

/-- The cache hint of a gather, 1 to 3 (R167). -/
def hintOf (f : Flow) (d : Nat) : Nat := if f.fld 89 88 == 0 then tdHint d + 1 else f.fld 89 88

/-- Bytes of a weight. -/
def wgtBytes (fmt : Nat) : Nat := if fmt == 0 then 4 else 2

/-- The exact value of a weight (R177). -/
def wgtValue (fmt w : Nat) : Num := if fmt == 0 then ofF32 w else if fmt == 1 then ofBf16 w else fp16Fmt.decode w

/-- An array address misaligned for its use (R175). -/
def arrayBad (crc : Bool) (a size : Nat) : Bool := !aligned a (if crc then 4096 else size)

/-- What R175 asks of both gathers. -/
def gatherBad (f : Flow) (d : Nat) : Bool :=
  f.gCount == 0 || (!f.gInline && (f.gIdx == 0 || arrayBad f.gCrc f.gIdx (idxBytes f.gIdxFmt))) ||
    f.slots < (if f.gInline then idxSlots f.gIdxFmt f.gCount else 0) + f.gChain ||
    (!f.gOutQueue && !aligned f.gOut 4096) ||
    (!f.gVerbatim && !f.gTranspose && !outStrideOk f.gOutQueue f.gOutFmt (tdDim d) f.gStride)

/-- What R175 asks of GATHER_POOL beyond that. -/
def poolBad (f : Flow) (d : Nat) : Bool :=
  let n := f.fld 191 160
  4 < f.fld 82 80 || f.gWgtFmt == 3 || n == 0 || 16777216 < n ||
    (!f.flag 85 && (f.gBagLen == 0 || f.gCount != n * f.gBagLen)) ||
    (f.flag 85 && (f.gOffsets == 0 || arrayBad f.gCrc f.gOffsets 4)) ||
    (poolOf f d == 3 && (f.gWeights == 0 || arrayBad f.gCrc f.gWeights (wgtBytes f.gWgtFmt)))

/-- What R196 asks of GATHER_RAW beyond that. -/
def rawBad (f : Flow) (d : Nat) : Bool :=
  (f.gVerbatim && (f.gOutFmt != 0 || f.gConv != 0 || f.gChain != 0 || f.gTranspose)) ||
    (f.gVerbatim && (f.gStride < tdStride d || 4096 < f.gStride)) ||
    (f.gTranspose && (isScaled f.gOutFmt || f.gStride < f.gCount * (fmtBits f.gOutFmt / 8) || !aligned f.gStride 64))

namespace Block

/-- Checks of GATHER_POOL at its dispatch (R175, R279, R372). -/
def checkGatherPool (m : Memory) (b : Block) (f : Flow) : Block :=
  let r := b.checkTable m f (f.fld 79 64)
  (r.2.refuseIf f.id [(f.gOutFmt == 15 || !convOk f.gConv, stBadFormat), (gatherBad f r.1 || poolBad f r.1, stBadGather),
    (chainBad f f.gChain, stBadChain)]).checkOut f.id f.gOut f.gBags f.gStride f.gOutQueue

/-- Checks of GATHER_RAW at its dispatch (R175, R196, R279, R372). -/
def checkGatherRaw (m : Memory) (b : Block) (f : Flow) : Block :=
  let r := b.checkTable m f (f.fld 79 64)
  (r.2.refuseIf f.id [(f.gOutFmt == 15 || !convOk f.gConv, stBadFormat), (gatherBad f r.1 || rawBad f r.1, stBadGather),
    (chainBad f f.gChain, stBadChain)]).checkOut f.id f.gOut f.gBags f.gStride f.gOutQueue

end Block

/-! ### Bags and windows -/

/-- The end of the last well-formed bag among some bags (R162). -/
def bagEnd (bags : List Bag) : Nat := ((bags.filter (fun g => !g.ill)).map (·.stop)).foldl max 0

/-- The bags between the offsets o, each with its poison, after well-formed bags that end at `start` (R162). -/
def offsetBags (count start : Nat) (o : List (Nat × Bool)) : List Bag :=
  ((o.zip o.tail).foldl (fun (acc : List Bag × Nat) p =>
    if p.1.2 || p.2.2 || p.2.1 < p.1.1 || count < p.2.1 || p.1.1 < acc.2 then (acc.1 ++ [⟨acc.2, acc.2, true⟩], acc.2)
    else (acc.1 ++ [⟨p.1.1, p.2.1, false⟩], p.2.1)) ([], start)).1

namespace Block

/-- The next bags of a gather: those of one more pass group from the offsets array, which is read as the stream advances
(R162); without one, all of them (R161). -/
def gatherBags (m : Memory) (b : Block) (f : Flow) : Block :=
  let put := fun (b : Block) (bags : List Bag) =>
    (b.modFlow f.id (fun g => { g with bags := g.bags ++ bags })).refuseIf f.id [(bags.any (·.ill), stBadBag)]
  if f.isRaw then put b ((List.range f.gCount).map (fun i => ⟨i, i + 1, false⟩))
  else if f.flag 85 then
    let k := f.bags.length
    let n := min 128 (f.gBags - k)
    let a := f.gOffsets + 4 * k
    let r := readInput m b f.id a (4 * (n + 1)) f.gCrc
    put r.2 (offsetBags f.gCount (bagEnd f.bags) ((List.range (n + 1)).map (fun i =>
      let p := r.1.part (a + 4 * i) 4
      (leNat p.1, p.2))))
  else put b ((List.range f.gBags).map (fun i => ⟨i * f.gBagLen, i * f.gBagLen + f.gBagLen, false⟩))

/-- The next window of positions with their weights (R158, R163, R188). -/
def gatherWindow (m : Memory) (b : Block) (f : Flow) : Block :=
  let w0 := f.positions.length
  let n := min Config.window (f.gCount - w0)
  let r := readIndices m b f f.gIdxFmt f.gIdx f.gInline f.gCrc w0 n
  let k := wgtBytes f.gWgtFmt
  if poolOf f f.gTable == 3 then
    let q := readInput m r.2 f.id (f.gWeights + w0 * k) (n * k) f.gCrc
    let ps := (r.1.zip (List.range n)).map (fun x =>
      let p := q.1.part (q.1.base + x.2 * k) k
      { x.1 with weight := leNat p.1, badWeight := p.2 })
    q.2.modFlow f.id (fun g => { g with positions := g.positions ++ ps })
  else r.2.modFlow f.id (fun g => { g with positions := g.positions ++ r.1 })

/-! ### Row sources (R165, R168) -/

/-- One lookup of a blackboard line of a remote row: the parity of its set is checked, a single-bit error is corrected, a
line with a double-bit error is dropped (R335, R336). -/
def boardLine (b : Block) (a : Nat) : Option Bytes × Block :=
  let b1 := b.parityCheck (b.half a) (setOf a)
  match b1.line? a with
  | none => (none, b1)
  | some l =>
    if l.err == 2 then (none, (b1.dropLine l).count 0x2504 6 1)
    else (some l.data, if l.err == 1 then (b1.putLine { l with err := 0 }).count 0x2504 5 1 else b1)

/-- A remote row held in the blackboard (R60). -/
def boardRow (b : Block) (table row stride : Nat) : Option Bytes × Block :=
  let r := (List.range (ceilDiv stride 256)).foldl (fun (acc : Option Bytes × Block) k =>
    let x := acc.2.boardLine (remoteKey table row + 256 * k)
    (acc.1.bind (fun d => x.1.map (fun e => d ++ e)), x.2)) (some [], b)
  (r.1.map (fun d => slice d 0 stride), r.2)

/-- The body of an RGATHER (R431). -/
def rgatherBody (table row bb version : Nat) : Bytes := natLE 16 (pack [(0, table), (16, row), (56, bb), (64, version)])

/-- A request for a row of the table with descriptor d sent to a peer for a flow (R168); none where no route leads
there. -/
def askRow (b : Block) (id peer table row bb d : Nat) : Option Nat × Block :=
  let s := b.sendMsg peer mtRgather (table * 2 ^ 40 + row) (rgatherBody table row bb (tdVersion d))
  match s.1 with
  | none => (none, s.2)
  | some txn =>
    (some txn, s.2.modFlow id (fun f => { f with remote := f.remote ++
      [{ kind := mtRgather, peer := peer, table := table, row := row, txn := txn, answered := false, status := 0,
         data := natLE 2 (tdStride d) }] }))

/-- A row copy without data: poisoned. -/
def noRow (window row : Nat) : RowCopy :=
  { window := window, row := row, addr := none, asked := none, data := [], poison := true, used := false, room := 0 }

/-- A row copy joins its flow. -/
def addRow (b : Block) (id : Nat) (c : RowCopy) : Block := b.modFlow id (fun g => { g with rows := g.rows ++ [c] })

/-- A row of a remote shard (R141, R168). With ACQUIRE, a row that the blackboard holds is fetched again, and the answer
replaces its lines (R402). A RELEASE command sends no request before the earlier commands of its queue complete (R399). -/
def remoteRow (b : Block) (f : Flow) (window row peer : Nat) : Block :=
  let table := f.fld 79 64
  if !f.mayRemote then (b.note f.id stRemoteDenied).addRow f.id (noRow window row)
  else
    let stride := tdStride f.gTable
    let held := b.boardRow table row stride
    match if f.acquires then none else held.1 with
    | some d =>
      (held.2.addRow f.id { noRow window row with data := d, poison := false, room := stride }).count 0x2504 8
        (ceilDiv stride 256)
    | none =>
      if held.2.rollRefuses peer then (held.2.note f.id stEpochMismatch).addRow f.id (noRow window row)
      else if held.2.effectsHeld f then { held.2 with blocked := true }
      else
        let r := held.2.askRow f.id peer table row (b2n held.1.isSome) f.gTable
        match r.1 with
        | none => r.2.addRow f.id (noRow window row)
        | some txn =>
          (r.2.addRow f.id { noRow window row with asked := some (peer, txn), poison := false, room := stride }).count 0x2602
            6 1

/-- A distinct row of a window from its source (R43, R165, R167). -/
def gatherRow (m : Memory) (b : Block) (f : Flow) (window row : Nat) : Block :=
  let d := f.gTable
  let p := b.resolve m f.id d row f.acquires
  match p.1 with
  | .beyond => (p.2.note f.id stRowRange).addRow f.id (noRow window row)
  | .bad => (p.2.note f.id stBadShard).addRow f.id (noRow window row)
  | .remote peer => p.2.remoteRow f window row peer
  | .local a =>
    let r := p.2.rowLines m a (tdStride d) (hintOf f d) (some f.id) f.acquires
    r.2.2.addRow f.id { noRow window row with addr := some a, data := r.1, poison := r.2.1, room := tdStride d }

end Block

/-- A position that some well-formed bag holds (R162). -/
def Flow.inBag (f : Flow) (i : Nat) : Bool := f.bags.any (fun g => !g.ill && g.first ≤ i && i < g.stop)

/-- The next position of a gather taken in (R158, R159, R163, R188). -/
def Block.takePosition (m : Memory) (b : Block) (f : Flow) : Block :=
  let i := f.taken
  let b1 := (b.modFlow f.id (fun g => { g with taken := i + 1 })).count 0x2602 2 1
  match f.positions[i]? with
  | none => b1
  | some p =>
    match p.row with
    | none => b1
    | some r =>
      if p.badIndex || !f.inBag i then b1
      else if hasCopy f (i / Config.window) r then b1.count 0x2602 3 (b2n (wasFetched f (i / Config.window) r))
      else b1.gatherRow m f (i / Config.window) r

/-! ### Pass groups (R176) -/

/-- Column passes of a gather. -/
def Flow.gCols (f : Flow) : Nat := colGroups (tdDim f.gTable)
/-- Bags of pass group g. -/
def Flow.groupBags (f : Flow) (g : Nat) : List Bag := (f.bags.drop (128 * g)).take 128
/-- Pass groups given so far. -/
def Flow.groupsGiven (f : Flow) : Nat := f.formed / max 1 f.gCols
/-- Pass groups of a gather. -/
def Flow.groups (f : Flow) : Nat := rowGroups128 f.gBags
/-- Positions that pass group g needs: those before this one. -/
def Flow.groupStop (f : Flow) (g : Nat) : Nat := ((f.groupBags g).map (·.stop)).foldl max 0

/-- The copies that the positions of some bags use, by window and row. -/
def Flow.needs (f : Flow) (bags : List Bag) : List (Nat × Nat) :=
  (bags.filter (fun g => !g.ill)).flatMap (fun g => (span g.first g.stop).filterMap (fun i =>
    (f.positions[i]?).bind (fun p => if p.badIndex then none else p.row.map (fun r => (i / Config.window, r)))))

/-- Every row of pass group g is at hand. -/
def Flow.groupReady (f : Flow) (g : Nat) : Bool :=
  min f.gBags (128 * g + 128) ≤ f.bags.length && f.groupStop g ≤ f.taken && (f.needs (f.groupBags g)).all (fun n => (copyFor f n.1 n.2).isSome)

/-- A gather's results come from the array: sum, mean and weighted pooling (R176). -/
def Flow.onArray (f : Flow) : Bool := !f.isRaw && poolOf f f.gTable != 4

/-- Most non-padding positions among some bags (R201). -/
def Flow.longest (f : Flow) (bags : List Bag) : Nat := (bags.map (fun g => (f.needs [g]).length)).foldl max 0

namespace Block

/-- The row copies of a flow that serve some positions are consumed (R170). -/
def consumeRows (b : Block) (id : Nat) (l : List (Nat × Nat)) : Block := b.consume id (fun c => l.contains (c.window, c.row))

/-- The passes or direct-feed blocks of pass group g given to the wing. VERBATIM rows go straight to the output. -/
def giveGroup (b : Block) (f : Flow) (g : Nat) : Block :=
  let w := wingOf f.su
  let steps := stepsFor (twiceTerms (tdFmt f.gTable)) (f.longest (f.groupBags g))
  if f.gVerbatim then
    (b.consumeRows f.id (f.needs (f.groupBags g))).modFlow f.id (fun h => { h with formed := h.formed + f.gCols })
  else (List.range f.gCols).foldl (fun b c =>
    if f.onArray then b.givePass w (Pass.at f.id g c steps) else b.giveBlock w (Pass.at f.id g c 0)) b

/-- Every pass group whose rows are at hand is given, in order; `fuel` bounds them. -/
def giveGroups : Nat → Block → Nat → Block
  | 0, b, _ => b
  | fuel + 1, b, id =>
    match b.flow? id with
    | none => b
    | some f =>
      let g := f.groupsGiven
      if g < f.groups && f.groupReady g then giveGroups fuel (b.giveGroup f g) id else b

/-- Bytes of run-ahead space that the next position of a gather needs (R171). -/
def nextRoom (f : Flow) : Nat :=
  match f.positions[f.taken]? with
  | none => 0
  | some p =>
    match p.row with
    | none => 0
    | some r => if p.badIndex || !f.inBag f.taken || hasCopy f (f.taken / Config.window) r then 0 else tdStride f.gTable

/-- Room made for n more bytes. While nothing of a flow is outstanding at its wing, the rows fetched for the pass group
that it fills enter the feeders, consumed, when the run-ahead space is full (R170, R171; DESIGN CHOICE, log 57). -/
def makeRoom (b : Block) (f : Flow) (n : Nat) (outstanding : Bool) (group : Nat) : Block :=
  if outstanding || b.aheadRoom f.su n then b else b.consumeRows f.id (f.needs (f.groupBags group))

/-- Intake of a gather as far as it goes: bags, windows, then position by position until the run-ahead space is full
(R158, R162, R163, R171); `fuel` bounds it. -/
def intake (m : Memory) : Nat → Block → Nat → Block
  | 0, b, _ => b
  | fuel + 1, b, id =>
    match b.flow? id with
    | none => b
    | some f =>
      if b.blocked || f.cut then b
      else if f.bags.length < f.gBags && bagEnd f.bags ≤ f.taken then
        intake m fuel (giveGroups 1 (b.gatherBags m f) id) id
      else if f.gCount ≤ f.taken then b
      else if f.positions.length ≤ f.taken then intake m fuel (b.gatherWindow m f) id
      else
        let b1 := b.makeRoom f (nextRoom f) (!f.gVerbatim && f.tilesFormed < f.formed) f.groupsGiven
        if b1.aheadRoom f.su (nextRoom f) then
          intake m fuel (giveGroups 1 (b1.takePosition m ((b1.flow? id).getD f)) id) id
        else b

end Block

/-! ### Values (R176 to R182, R188, R189) -/

/-- One non-padding position of a bag: its weight, its row's elements and its poison; a poisoned row is decoded as NaN
(R188, R238). -/
def gatherTerm (f : Flow) (i : Nat) : Option (Num × List Num × Bool) :=
  let s := tdShape f.gTable
  let bad : Num × List Num × Bool := (Num.one, List.replicate s.dim Num.nan, true)
  match f.positions[i]? with
  | none => none
  | some p =>
    if p.badIndex then some bad
    else match p.row with
      | none => none
      | some r =>
        match copyFor f (i / Config.window) r with
        | none => some bad
        | some c =>
          if p.badWeight || copyBad s c then some bad
          else some ((if poolOf f f.gTable == 3 then wgtValue f.gWgtFmt p.weight else Num.one), s.decode c.data, false)

/-- The non-padding positions of a bag in list order; the Bool says that one is poisoned or the bag is ill. -/
def bagTerms (f : Flow) (g : Bag) : List (Num × List Num) × Bool :=
  if g.ill then ([], true)
  else
    let l := (span g.first g.stop).filterMap (gatherTerm f)
    (l.map (fun t => (t.1, t.2.1)), l.any (·.2.2))

/-- Pooling of weighted rows over column group c of `dim` columns: the accumulators and which of them saturated (R177,
R234). -/
def pooledRow (int : Bool) (p2 dim c : Nat) (terms : List (Num × List Num)) : List (Num × Bool) :=
  let xs := terms.map (fun t => (t.1, columnGroup c t.2))
  (List.range (min 512 (dim - 512 * c))).map (fun e =>
    cell int p2 (xs.map (fun t => Num.mul t.1 (t.2.getD e Num.zero))))

/-- Sum, mean and weighted pooling of a bag (R177 to R179, R182). -/
def poolCells (f : Flow) (c : Nat) (terms : List (Num × List Num)) : List (Num × Bool) :=
  let d := f.gTable
  pooledRow (isPlainInt (tdFmt d) && poolOf f d == 1 && tdScale d == 0x3F80_0000) (twiceTerms (tdFmt d)) (tdDim d) c terms

/-- The tile of a pooling pass (R176). -/
def poolTile (f : Flow) (g c : Nat) : EngineTile :=
  let rows := (f.groupBags g).map (fun bag =>
    let t := bagTerms f bag
    (poolCells f c t.1, t.2))
  { flow := f.id, group := g, col := c, cells := rows.map (fun r => r.1.map (·.1)), poison := rows.map (·.2),
    keyPoison := [], sat := (rows.map (fun r => (r.1.filter (·.2)).length)).sum }

/-- One row of a direct-feed block: the row of a raw gather, or the largest elements of a bag (R181, R182, R193). -/
def feedRow (f : Flow) (c : Nat) (g : Bag) : List Num × Bool :=
  let t := bagTerms f g
  let n := min 512 (tdDim f.gTable - 512 * c)
  let xs := t.1.map (fun x => columnGroup c x.2)
  match xs with
  | [] => (List.replicate n Num.zero, t.2)
  | x :: rest =>
    if f.isRaw then (x, t.2)
    else ((List.range n).map (fun e => (rest.map (fun r => rnd32 (r.getD e Num.zero))).foldl fmax (rnd32 (x.getD e Num.zero))),
      t.2)

/-- How a gather writes its results. -/
def gatherOut (f : Flow) : OutSpec :=
  { fmt := f.gOutFmt, conv := f.gConv, rows := f.gBags, dim := tdDim f.gTable, out := f.gOut, stride := f.gStride,
    kind := b2n f.gOutQueue, peer := 0, map := f.gMap,
    blank := if f.isRaw then (List.range f.gCount).filter (fun i =>
      ((f.positions[i]?).map (fun p => p.row.isNone && !p.badIndex)).getD false) else [] }

namespace Block

/-- Output row i of a VERBATIM gather: its bytes as stored, and its poison (R189, R193, R194). -/
def verbatimRow (f : Flow) (i : Nat) : Bytes × Bool :=
  let s := tdShape f.gTable
  match f.positions[i]? with
  | none => (zeros s.stride, false)
  | some p =>
    if p.badIndex then (poisonShape s, true)
    else match p.row with
      | none => (zeros s.stride, false)
      | some r => match copyFor f (i / Config.window) r with
        | none => (poisonShape s, true)
        | some c => if copyBad s c then (poisonShape s, true) else (c.data, false)

/-- The tiles of a VERBATIM gather for a satchel queue: up to 128 stored rows each, at the pitch of the output (R186,
R192, R194; log 23). -/
def verbatimTiles (b : Block) (f : Flow) (rows : List (Bytes × Bool)) : Block :=
  let o := gatherOut f
  (List.range f.groups).foldl (fun b g =>
    let rs := (rows.drop (128 * g)).take 128
    b.claimTile o { flow := f.id, index := g, rows := rs.length, cols := o.dim, fmt := tdFmt f.gTable, pitch := tilePitch o,
                    data := rs.flatMap (fun r => fit (tilePitch o) r.1), poison := rs.map (·.2) }) b

/-- The end of a VERBATIM output: rows copied as stored, placed with OUT_STRIDE (R194), or handed to a satchel queue. -/
def writeVerbatim (b : Block) (f : Flow) : Block :=
  let rows := (List.range f.gCount).map (verbatimRow f)
  let bad := (rows.filter (·.2)).length
  let runs := (rows.zip (List.range f.gCount)).map (fun r => (⟨placeRow f.gOut f.gStride r.2, r.1.1, r.1.2⟩ : OutBytes))
  let stop := (runs.map (fun p => p.addr + p.data.length)).foldl max f.gOut
  let b0 := if f.gOutQueue then b.verbatimTiles f rows else b.writeArea f.id f.gOut stop runs
  let b1 := b0.writeMap f.id f.gMap (rows.map (·.2))
  (if 0 < bad then b1.addPoison f.id bad else b1).count 0x2602 5 bad

/-- The end of a TRANSPOSE output: element e of position i at OUT + e * OUT_STRIDE + i * w (R195). -/
def writeTransposed (b : Block) (f : Flow) : Block :=
  let o := gatherOut f
  let w := fmtBits o.fmt / 8
  let r := (List.range f.gCount).foldl (fun (acc : List OutBytes × List Bool × Block) i =>
    let x := acc.2.2.rowBytes f o i
    (acc.1 ++ (List.range o.dim).map (fun e => ⟨o.out + e * o.stride + i * w, slice x.1.data (e * w) w, x.1.poison⟩),
      acc.2.1 ++ [x.1.poison], x.2)) ([], [], b)
  let bad := (r.2.1.filter (fun x => x)).length
  let b1 := (r.2.2.writeArea f.id o.out (o.out + o.dim * o.stride) r.1).writeMap f.id o.map r.2.1
  (if 0 < bad then b1.addPoison f.id bad else b1).count 0x2602 5 bad

/-- The end of a gather whose tiles are all finished (R184, R190, R191). -/
def endGather (b : Block) (id : Nat) : Block :=
  match b.flow? id with
  | none => b
  | some f =>
    let o := gatherOut f
    let b1 :=
      if f.gVerbatim then b.writeVerbatim f
      else if f.gTranspose && !f.gOutQueue then b.writeTransposed f
      else
        let r := b.endRows f o
        r.2.count 0x2602 5 r.1
    b1.close id

/-- Tiles of a gather. -/
def gatherTiles (f : Flow) : Nat := f.groups * f.gCols

/-- A finished tile of a gather: its rows kept for the output, and handed to a satchel queue (R185, R186). -/
def gatherPieces (b : Block) (f : Flow) (ps : List OutPiece) (g c : Nat) : Block :=
  let b1 := b.addPieces f.id (gatherOut f) ps g c
  if gatherTiles f ≤ f.tilesFormed + 1 then b1.endGather f.id else b1

/-- The vector engine takes a tile of pooled bags: the mean division, then the chain (R180, R185). -/
def poolTake (m : Memory) (b : Block) (w : Wing) (f : Flow) (t : EngineTile) : Block :=
  let mean := poolOf f f.gTable == 2
  let bags := f.groupBags t.group
  let rows := (List.range t.cells.length).map (fun k =>
    let n := (f.needs ((bags.drop k).take 1)).length
    let xs := t.cells.getD k []
    (128 * t.group + k, (if mean && n != 0 then xs.map (fun x => fdiv x (Num.ofNat n)) else xs), t.poison.getD k false))
  let cols := ((t.cells.head?).map List.length).getD 0
  let b1 := if mean then b.countChain w 1 rows.length cols else b
  let r := runChain m b1 w f f.gChain t.col rows
  r.2.gatherPieces f r.1 t.group t.col

/-- The vector engine takes a direct-feed block of a gather (R181, R185, R193). -/
def feedTake (m : Memory) (b : Block) (w : Wing) (f : Flow) (p : Pass) : Block :=
  let bags := f.groupBags p.group
  let b0 := b.consumeRows f.id (f.needs bags)
  let rows := (bags.zip (List.range bags.length)).map (fun x =>
    let v := feedRow f p.col x.1
    (128 * p.group + x.2, v.1, v.2))
  let cols := min 512 (tdDim f.gTable - 512 * p.col)
  let b1 := if f.isRaw then b0 else b0.countChain w 1 (f.needs bags).length cols
  let r := runChain m b1 w f f.gChain p.col rows
  r.2.gatherPieces f r.1 p.group p.col

/-- One step of a gather's work on its stream unit. -/
def gatherWork (m : Memory) (b : Block) (f : Flow) : Block :=
  if f.stage != .running then b
  else
    let b1 := giveGroups f.groups (intake m (2 * f.gCount + f.gBags + 2) b f.id) f.id
    match b1.flow? f.id with
    | none => b1
    | some g =>
      if f.gCount ≤ g.taken && g.groups ≤ g.groupsGiven then
        if f.gVerbatim then b1.endGather f.id else b1.builtAll f.id
      else b1

/-! ### Provisional copies and later writes (R172) -/

/-- n provisional copies of the row at a are discarded and fetched again from its agent, the cached lines replaced: the
new bytes and poison. -/
def refetch (m : Memory) (b : Block) (a len n : Nat) : Bytes × Bool × Block :=
  let b1 := (b.count 0x2602 4 n).forceBack a len
  let d := agentView m b1 a len
  (d, b1.absentRange a len || !(b1.badUnits a len).isEmpty, (b1.charge a (n * readCost a len)).replaceCopies a d)

/-- Every provisional copy of some flows changed: their rows, those of their passes that have not begun, and those of the
panel slots that they use. -/
def mapCopies (b : Block) (ids : List Nat) (g : RowCopy → RowCopy) : Block :=
  let upd := fun (e : WingEngine) =>
    { e with ready := e.ready.map (fun p => if ids.contains p.flow then { p with b := p.b.map g } else p),
             slots := e.slots.map (fun x => if x.users.any ids.contains then { x with cols := x.cols.map g } else x) }
  { b with flows := b.flows.map (fun f => if ids.contains f.id then { f with rows := f.rows.map g } else f),
           north := upd b.north, south := upd b.south }

/-- Provisional copies of some flows. -/
def copiesOf (b : Block) (ids : List Nat) : List RowCopy :=
  (b.flows.filter (fun f => ids.contains f.id)).flatMap b.provisionalCopies

/-- The address range of a copy of memory. -/
def copySpan (c : RowCopy) : Option (Nat × Nat) := c.addr.map (fun a => (a, max 1 c.data.length))

/-- A write of len bytes at a falls in a line of the copy x (R172). -/
def inLines (x : Nat × Nat) (a len : Nat) : Bool := lineAddr x.1 < a + len && a < lineAddr (x.1 + x.2 - 1) + 256

/-- A write by a flow reaches memory: provisional copies that later commands of its queue hold of a line it touches are
fetched again (R172). Writes of other queues are not tracked (R173). -/
def writeSeen (m : Memory) (b : Block) (writer : Option Nat) (a len : Nat) : Block :=
  match writer.bind b.flow? with
  | none => b
  | some wf =>
    if wf.stream.isSome then b
    else
      let ids := ((b.inFlight wf.ring).filter (fun g => wf.id < g.id)).map (·.id)
      let spans := ((b.copiesOf ids).filterMap copySpan).filter (fun x => inLines x a len)
      spans.dedup.foldl (fun b x =>
        let r := b.refetch (land m b.posted) x.1 x.2 (spans.count x)
        r.2.2.mapCopies ids (fun c =>
          if !c.used && copySpan c == some x then { c with data := r.1, poison := r.2.1 } else c)) b

end Block

/-- GATHER_POOL: the stream unit works on a pooled gather (R158 to R191). -/
def execGatherPool (flow : Nat) (s : State) : Out := flowStep s flow (isOp opGatherPool) Block.gatherWork

/-- GATHER_RAW: the stream unit works on a raw gather (R192 to R196). -/
def execGatherRaw (flow : Nat) (s : State) : Out := flowStep s flow (isOp opGatherRaw) Block.gatherWork

end Sys2Proof.Machine
end

