-- ==== Sys2Proof/Machine/Copy.lean ====
section
/-! DEFINITION. COPY (06_gather_pooling.md R197 to R200). -/

namespace Sys2Proof.Machine

namespace Flow
def cpSrcCrc (f : Flow) : Bool := f.flag 64
def cpDstCrc (f : Flow) : Bool := f.flag 65
def cpInline (f : Flow) : Bool := f.flag 66
def cpLength (f : Flow) : Nat := f.fld 127 96
def cpRows (f : Flow) : Nat := f.fld 159 128
def cpSrc (f : Flow) : Nat := f.fld 211 160
def cpDst (f : Flow) : Nat := f.fld 275 224
def cpSrcPitch (f : Flow) : Nat := f.fld 319 288
def cpDstPitch (f : Flow) : Nat := f.fld 351 320
end Flow

/-- R199. -/
def copyRefused (f : Flow) : Bool :=
  let whole := fun (a pitch : Nat) => aligned a 4096 && aligned pitch 4096 && aligned f.cpLength 4096
  f.cpLength == 0 || f.cpRows == 0 ||
    (1 < f.cpRows && (f.cpDstPitch < f.cpLength || (!f.cpInline && f.cpSrcPitch < f.cpLength))) ||
    (f.cpSrcCrc && !whole f.cpSrc f.cpSrcPitch) || (f.cpDstCrc && !whole f.cpDst f.cpDstPitch) ||
    (f.cpInline && (1 < f.cpRows || 64 * f.slots < f.cpLength))

namespace Block

/-- Checks of COPY at its dispatch. -/
def checkCopy (_ : Memory) (b : Block) (f : Flow) : Block := b.refuseIf f.id [(copyRefused f, stBadCopy)]

/-- Destination blocks that receive bytes of poisoned source blocks: the 4 KiB blocks of dst + k for such a byte k. -/
def copyBlocks (i : Input) (len dst : Nat) : List Nat :=
  (cutPages dst len).filterMap (fun p =>
    if (i.part (i.base + (p.1 - dst)) p.2).2 then some (p.1 / 4096) else none)

/-- Row r of a COPY (R198, R200): the poisoned destination blocks so far, and the block. -/
def copyRow (m : Memory) (f : Flow) (acc : List Nat × Block) (r : Nat) : List Nat × Block :=
  let dst := f.cpDst + r * f.cpDstPitch
  let len := f.cpLength
  let s :=
    if f.cpInline then ((⟨0, slice f.inline 0 len, []⟩ : Input), acc.2)
    else readInput m acc.2 f.id (f.cpSrc + r * f.cpSrcPitch) len f.cpSrcCrc
  let bad := copyBlocks s.1 len dst
  let b :=
    if f.cpDstCrc then
      (cutPages dst len).foldl (fun b p =>
        b.writeBlock f.id p.1 (slice s.1.data (p.1 - dst) 4096) (bad.contains (p.1 / 4096))) s.2
    else s.2.writeOut f.id dst s.1.data
  (acc.1 ++ bad, b)

/-- The work of a COPY: every row, then its end (R198, R200). DESIGN CHOICE (log 58): where source and destination overlap,
which R199 forbids to software and R5 leaves unpredictable, every row is read as it stood before the COPY's first write. -/
def copyWork (m : Memory) (b : Block) (f : Flow) : Block :=
  if f.stage != .running then b
  else
    let r := (List.range f.cpRows).foldl (copyRow m f) ([], b)
    let n := r.1.dedup.length
    (if 0 < n then r.2.addPoison f.id n else r.2).close f.id

end Block

/-- COPY: the stream unit moves the rows (R197 to R200). -/
def execCopy (flow : Nat) (s : State) : Out := flowStep s flow (isOp opCopy) Block.copyWork

end Sys2Proof.Machine
end

