-- ==== Sys2Proof/Machine/Dense.lean ====
section
/-! DEFINITION. PROJECT (08_dense_array.md R243 to R257): its checks at dispatch, weight slices in panel slots and
across the wing bridge, activations from memory or satchels, its passes, tiles and output. -/

namespace Sys2Proof.Machine

/-! ### Body fields (R244) -/

namespace Flow
def pjAFmt (f : Flow) : Nat := f.fld 67 64
def pjWFmt (f : Flow) : Nat := f.fld 71 68
def pjOutFmt (f : Flow) : Nat := f.fld 75 72
def pjConv (f : Flow) : Nat := f.fld 79 76
def pjFromQueue (f : Flow) : Bool := f.flag 80
def pjOutKind (f : Flow) : Nat := f.fld 82 81
def pjShare (f : Flow) : Bool := f.flag 83
/-- W_HINT, 1 to 3; 0 selects KEEP. -/
def pjHint (f : Flow) : Nat := if f.fld 85 84 == 0 then 1 else f.fld 85 84
def pjCrc (f : Flow) : Bool := f.flag 86
def pjChain (f : Flow) : Nat := f.fld 89 87
def pjPeer (f : Flow) : Nat := f.fld 95 90
def pjK (f : Flow) : Nat := f.fld 111 96
def pjN (f : Flow) : Nat := f.fld 127 112
def pjM (f : Flow) : Nat := f.fld 159 128
def pjA (f : Flow) : Nat := f.fld 211 160
def pjW (f : Flow) : Nat := f.fld 275 224
def pjOut (f : Flow) : Nat := f.fld 339 288
def pjAStride (f : Flow) : Nat := f.fld 375 352
def pjWStride (f : Flow) : Nat := f.fld 399 376
def pjOutStride (f : Flow) : Nat := f.fld 423 400
def pjMap (f : Flow) : Nat := f.fld 487 448 * 4096
/-- Row groups and column groups. -/
def pjRows (f : Flow) : Nat := rowGroups128 f.pjM
def pjCols (f : Flow) : Nat := colGroups f.pjN
/-- Satchels of one row group. -/
def pjSatchels (f : Flow) : Nat := ceilDiv f.pjK 512
end Flow

/-- Row-outer order (R246). -/
def Flow.rowOuter (f : Flow) : Bool := f.pjFromQueue || f.pjOutKind != 0

/-- Row group and column group of pass number k (R246). -/
def Flow.pjOrder (f : Flow) (k : Nat) : Nat × Nat :=
  if f.rowOuter then (k / max 1 f.pjCols, k % max 1 f.pjCols)
  else (k % max 1 f.pjRows, k / max 1 f.pjRows)

/-- R31 for the rows of a matrix that is not placed under R37: an even stride that holds a PACKED row. -/
def matrixBad (fmt dim stride : Nat) : Bool := stride % 2 == 1 || stride < packedMin fmt dim

/-- R245. -/
def projectBad (b : Block) (f : Flow) : Bool :=
  let k := f.pjOutKind
  f.pjK == 0 || 16384 < f.pjK || f.pjN == 0 || f.pjM == 0 || k == 3 || (k == 2 && (!f.mayRemote || f.pjPeer == b.package)) ||
    (!f.pjFromQueue && (matrixBad f.pjAFmt f.pjK f.pjAStride || !aligned f.pjA 64)) ||
    matrixBad f.pjWFmt f.pjK f.pjWStride || !aligned f.pjW 64 || (k == 0 && !aligned f.pjOut 4096) ||
    !outStrideOk (k != 0) f.pjOutFmt f.pjN f.pjOutStride ||
    (f.pjCrc && (!aligned f.pjW 4096 || !aligned f.pjWStride 4096 ||
      (!f.pjFromQueue && (!aligned f.pjA 4096 || !aligned f.pjAStride 4096)))) ||
    f.slots < f.pjChain

namespace Block

/-- Checks of PROJECT at its dispatch (R245, R279, R372). -/
def checkProject (_ : Memory) (b : Block) (f : Flow) : Block :=
  let b1 := b.refuseIf f.id
    [(f.pjAFmt == 15 || f.pjWFmt == 15 || f.pjOutFmt == 15 || !convOk f.pjConv, stBadFormat),
     (projectBad b f, stBadProject), (chainBad f f.pjChain, stBadChain)]
  let src := if f.pjFromQueue then some (f.pjA % 2 ^ 24) else none
  let into := if f.pjOutKind == 1 then some (f.pjOut % 2 ^ 24) else none
  if src.isNone && into.isNone then b1
  else b1.checkQueues f.id into src (min 128 f.pjM * f.pjOutStride) f.pjSatchels

/-! ### Weight slices (R246 to R251) -/

/-- Columns of column group c. -/
def pjColumns (f : Flow) (c : Nat) : List Nat := span (512 * c) (min f.pjN (512 * c + 512))

/-- The slice of column group c as R249 identifies it, without its data. -/
def sliceKey (f : Flow) (c : Nat) : Nat × Nat × Nat × Nat × Nat :=
  (f.pjW + 512 * c * f.pjWStride, f.pjWStride, f.pjWFmt, f.pjK, (pjColumns f c).length)

/-- The identity of a held slice. -/
def heldKey (s : Slice) : Nat × Nat × Nat × Nat × Nat := (s.addr, s.stride, s.fmt, s.k, s.cols.length)

/-- A slice fits a panel slot (R247). -/
def sliceFits (f : Flow) (c : Nat) : Bool :=
  let n := (pjColumns f c).length
  n * codesBytes f.pjWFmt f.pjK ≤ 2097152 && n * scalesBytes f.pjWFmt f.pjK ≤ 131072

/-- A slice put into a wing's panel slots, the least recently used making room (R247). -/
def holdSlice (b : Block) (w : Wing) (s : Slice) : Block :=
  let e := b.engine w
  let rest := e.slots.filter (fun x => !(heldKey x == heldKey s && x.stale == s.stale))
  b.setEngine w { e with slots := (if rest.length < 2 then rest else rest.tail) ++ [s] }

/-- A slice fetched column by column under W_HINT, through run-ahead (R171, R248). -/
def fetchSlice (m : Memory) (b : Block) (f : Flow) (c : Nat) : List RowCopy × Block :=
  (pjColumns f c).foldl (fun (acc : List RowCopy × Block) j =>
    let a := f.pjW + j * f.pjWStride
    let r := acc.2.readCached m f.id a (packedMin f.pjWFmt f.pjK) f.pjHint f.acquires f.pjCrc
    (acc.1 ++ [{ window := 0, row := j, addr := if isHost a then none else some a, asked := none, data := r.1,
                 poison := r.2.1, used := false, room := r.1.length }], r.2.2)) ([], b)

/-- A South command with SHARE may join North's copy of the slice (R249, R251). -/
def mayJoin (b : Block) (f : Flow) (w : Wing) : Bool :=
  w == .south && f.pjShare && b.od' 0x2100 1 == 1 && b.wingUp .north && (b.earlier f).isEmpty

/-- A slot that a command may use for a slice: one that holds it for a command in flight and that no acquire has covered,
or one that the command uses already (R247, R249, R401). -/
def slotFor (e : WingEngine) (key : Nat × Nat × Nat × Nat × Nat) (id : Nat) : Option Slice :=
  (e.slots.find? (fun s => heldKey s == key && s.users.contains id)).orElse
    (fun _ => e.slots.find? (fun s => heldKey s == key && !s.users.isEmpty && !s.stale))

/-- A fetch of the slice is in progress in North: a PROJECT there waits at a read of it (R249). -/
def northFetches (b : Block) (key : Nat × Nat × Nat × Nat × Nat) : Bool :=
  b.flows.any (fun g => g.stream.isNone && g.opcode == opProject && g.running && wingOf g.su == .north &&
    g.waitsOn.isSome && sliceKey g (g.pjOrder g.formed).2 == key)

/-- The columns of column group c: from a slot, from North across the bridge, or from memory (R247, R249, R401). A slice
whose fetch is in progress in North is waited for. -/
def getSlice (m : Memory) (b : Block) (f : Flow) (c : Nat) : List RowCopy × Block :=
  let w := wingOf f.su
  let key := sliceKey f c
  match slotFor (b.engine w) key f.id with
  | some s => (s.cols, b.holdSlice w { s with users := if s.users.contains f.id then s.users else s.users ++ [f.id] })
  | none =>
    match (if b.mayJoin f w then slotFor b.north key f.id else none) with
    | some s => (s.cols, ((b.holdSlice .south { s with users := [f.id] }).count 0x2110 5 1).count 0x2190 5 1)
    | none =>
      if b.mayJoin f w && b.northFetches key then ([], { b with blocked := true })
      else
        let r := b.fetchSlice m f c
        let b1 := r.2.count (arrayOd w) 4 1
        let cols := b.settleCopies f.su r.1
        let s : Slice := { addr := key.1, stride := f.pjWStride, fmt := f.pjWFmt, k := f.pjK, cols := cols,
                           users := [f.id], stale := false }
        (cols, if sliceFits f c then b1.holdSlice w s else b1)

/-! ### Activations (R243, R252) -/

/-- The rows of row group g read from memory. -/
def pjMemoryRows (m : Memory) (b : Block) (f : Flow) (g : Nat) : List (Bytes × Bool) × Block :=
  (groupRows f.pjM g).foldl (fun (acc : List (Bytes × Bool) × Block) i =>
    let r := readInput m acc.2 f.id (f.pjA + i * f.pjAStride) (packedMin f.pjAFmt f.pjK) f.pjCrc
    (acc.1 ++ [(r.1.data, r.1.bad.any (fun x => x))], r.2)) ([], b)

/-- Chunks of a row of one format, in order, as one PACKED row: their codes, then their scales. -/
def joinChunks (fmt : Nat) (cs : List (Nat × Bytes)) : Bytes :=
  cs.flatMap (fun c => slice c.2 0 (codesBytes fmt c.1)) ++
    cs.flatMap (fun c => slice c.2 (codesBytes fmt c.1) (scalesBytes fmt c.1))

/-- The rows of row group g of an input of `rows` rows by `cols` columns, from the satchels that hold its chunks. A
satchel that disagrees with the shape, or that carries poison, poisons the row group (R252, R255, log 25). -/
def satchelRows (fmt rows cols g : Nat) (sats : List Satchel) : List (Bytes × Bool) :=
  let rs := groupRows rows g
  let widths := (List.range sats.length).map (fun c => min 512 (cols - 512 * c))
  let bad := (sats.zip widths).any (fun x => x.1.rows != rs.length || x.1.cols != x.2 || x.1.poison.any (fun p => p))
  (List.range rs.length).map (fun i =>
    (joinChunks fmt ((sats.zip widths).map (fun x => (x.2, slice x.1.data (i * x.1.pitch) x.1.pitch))), bad))

/-- The satchels of the next row group are held, and their row group is the one to be given. -/
def pjHeld (b : Block) (f : Flow) : List Satchel := ((f.fromQ.map (fun q => b.heldBy q f.id)).getD [])

/-- Passes of a flow that its wing has begun. -/
def passesBegun (b : Block) (f : Flow) : Nat :=
  f.formed - ((b.engine (wingOf f.su)).ready.filter (fun p => p.flow == f.id)).length

/-- The slice of the next pass may be fetched: the wing has started the passes of the column group before it, and, while
work of the command is outstanding, the run-ahead space takes the slice (R171, R248). -/
def mayFetch (b : Block) (f : Flow) : Bool :=
  let n := if f.rowOuter then 1 else max 1 f.pjRows
  let v := f.formed / n
  let c := (f.pjOrder f.formed).2
  let held := (slotFor (b.engine (wingOf f.su)) (sliceKey f c) f.id).isSome
  f.formed % n != 0 || v == 0 || ((v - 1) * n < b.passesBegun f &&
    (held || b.passesBegun f == f.formed || b.aheadRoom f.su ((pjColumns f c).length * packedMin f.pjWFmt f.pjK)))

/-- The activation rows of row group g for column group c: from satchels, or from memory, where the row-outer order reads
them once (R246). -/
def pjActs (m : Memory) (b : Block) (f : Flow) (g c : Nat) : List (Bytes × Bool) × Block :=
  if f.pjFromQueue then (satchelRows f.pjAFmt f.pjM f.pjK g (b.pjHeld f), b)
  else if f.rowOuter && c != 0 then (f.acts, b)
  else
    let r := b.pjMemoryRows m f g
    (r.1, if f.rowOuter then r.2.modFlow f.id (fun h => { h with acts := r.1 }) else r.2)

/-- Pass number `formed` of a PROJECT given to the wing, when its operands can be had. -/
def givePanel (m : Memory) (b : Block) (f : Flow) : Option Block :=
  let k := f.pjOrder f.formed
  let w := wingOf f.su
  let steps := stepsFor (twicePair f.pjAFmt f.pjWFmt) f.pjK
  let ready := !f.pjFromQueue || (k.1 == f.taken && f.pjSatchels ≤ (b.pjHeld f).length)
  if f.pjRows * f.pjCols ≤ f.formed || !ready || !b.mayFetch f then none
  else
    let a := b.pjActs m f k.1 k.2
    let s := a.2.getSlice m f k.2
    some (s.2.givePass w { Pass.at f.id k.1 k.2 steps with a := a.1, b := s.1 })

/-- Every pass that can be given; `fuel` bounds them. -/
def givePanels (m : Memory) : Nat → Block → Nat → Block
  | 0, b, _ => b
  | fuel + 1, b, id =>
    match b.flow? id with
    | none => b
    | some f =>
      if b.blocked || f.cut then b
      else match b.givePanel m f with
        | none => b
        | some c => givePanels m fuel c id

/-- One step of a PROJECT's work on its stream unit. -/
def projectWork (m : Memory) (b : Block) (f : Flow) : Block :=
  if f.stage != .running then b
  else
    let b1 := givePanels m (f.pjRows * f.pjCols) b f.id
    match b1.flow? f.id with
    | none => b1
    | some g => if f.pjRows * f.pjCols ≤ g.formed then b1.builtAll f.id else b1

end Block

/-! ### Tiles and output (R254, R255) -/

/-- The tile of a PANEL pass of a PROJECT (R234, R237, R255). -/
def projectTile (f : Flow) (p : Pass) : EngineTile :=
  let sa := packedShape f.pjAFmt f.pjK 0
  let sw := packedShape f.pjWFmt f.pjK 0
  let int := intPair f.pjAFmt f.pjWFmt
  let p2 := twicePair f.pjAFmt f.pjWFmt
  let kp := p.b.map (fun c => c.poison || sw.poisoned c.data)
  let bad := kp.any (fun x => x)
  let cols := p.b.map (fun c => operandRow sw c.data c.poison)
  let rows := p.a.map (fun r =>
    let x := operandRow sa r.1 r.2
    cols.map (fun y => panelCell int p2 x y))
  { flow := f.id, group := p.group, col := p.col, cells := rows.map (fun r => r.map (·.1)),
    poison := p.a.map (fun r => bad || r.2 || sa.poisoned r.1), keyPoison := kp,
    sat := (rows.map (fun r => (r.filter (·.2)).length)).sum }

/-- How a PROJECT writes its results. -/
def projectOut (f : Flow) : OutSpec :=
  { fmt := f.pjOutFmt, conv := f.pjConv, rows := f.pjM, dim := f.pjN, out := f.pjOut, stride := f.pjOutStride,
    kind := f.pjOutKind, peer := f.pjPeer, map := f.pjMap, blank := [] }

namespace Block

/-- A poisoned weight column poisons every output row (R255): the mark is carried to every row of memory output. In a
queue's row groups each row meets the column in its own pass. -/
def spreadColumns (f : Flow) (ps : List OutPiece) (bad : Bool) : List OutPiece :=
  if bad && f.pjOutKind == 0 then
    ps ++ (List.range f.pjM).map (fun i => { row := i, col := f.pjCols, vals := [], poison := true })
  else ps

/-- The vector engine takes a tile of a PROJECT (R254). -/
def projectTake (m : Memory) (b : Block) (w : Wing) (f : Flow) (t : EngineTile) : Block :=
  let rows := (List.range t.cells.length).map (fun k =>
    (128 * t.group + k, t.cells.getD k [], t.poison.getD k false))
  let r := runChain m b w f f.pjChain t.col rows
  let o := projectOut f
  let b1 := r.2.addPieces f.id o (spreadColumns f r.1 (t.keyPoison.any (fun x => x))) t.group t.col
  if f.tilesFormed + 1 < f.pjRows * f.pjCols then b1
  else match b1.flow? f.id with
    | none => b1
    | some g => (b1.endRows g o).2.close f.id

/-- A drained tile of a PROJECT that takes satchels: with the last column group its row group's satchels are released
(R253). -/
def drainSatchels (b : Block) (f : Flow) (t : EngineTile) : Block :=
  match f.fromQ with
  | none => b
  | some q =>
    if t.col + 1 == f.pjCols then (b.releaseHeld q f.id).modFlow f.id (fun g => { g with taken := g.taken + 1 }) else b

end Block

/-- PROJECT: the stream unit gives the passes whose operands it can have (R243 to R252). -/
def execProject (flow : Nat) (s : State) : Out := flowStep s flow (isOp opProject) Block.projectWork

end Sys2Proof.Machine
end

