-- ==== Sys2Proof/Machine/RowOps.lean ====
section
/-! DEFINITION. The arithmetic of row operations (10_training_updates.md R292, R293, R302, R310 with R112), as channel
agents and the combine units of the row cache share it, and what performing one does around it. -/

namespace Sys2Proof.Machine

/-- The elements of a wire row, decoded exactly (R292, R302). -/
def Wire.values (w : Wire) : List Num := (packedShape w.fmt w.n 0).decodeExact w.data

/-- Element e lies in the wire segment. -/
def Wire.covers (w : Wire) (e : Nat) : Bool := w.elem0 ≤ e && e < w.elem0 + w.n

/-- The conversion of R112: AMAX, OVF_INF clear, CAPTURE set where the table has side lists. -/
def RowShape.rewrite (s : RowShape) : ConvSpec := s.conv (if 0 < s.sideCap then 2 else 0)

/-- A row re-encoded with new values, other areas kept (R112). -/
def reencode (s : RowShape) (row : Bytes) (vals : List Num) : Bytes × Enc :=
  let e := encodeRow s.rewrite vals
  (s.putEnc row e, e)

/-- One element of an add: the sum, and whether it saturated INT32 (R292, R293). -/
def addElem (int : Bool) (old new : Num) : Num × Bool :=
  if int then
    let r := sat32 (toIntExact old + toIntExact new)
    (Num.ofInt r.1, r.2)
  else (rnd32 (Num.add old new), false)

/-- A row with an add performed: the row, its encoding, and the INT32 elements that saturated (R292, R293). -/
def addedRow (s : RowShape) (row : Bytes) (w : Wire) : Bytes × Enc × Nat :=
  let new := w.values
  let int := isPlainInt s.fmt
  let rs := ((s.decodeExact row).zip (List.range s.dim)).map (fun x =>
    if w.covers x.2 then addElem int x.1 (new.getD (x.2 - w.elem0) Num.zero) else (x.1, false))
  let r := reencode s row (rs.map (·.1))
  (r.1, r.2, if s.fmt == 8 then (rs.filter (·.2)).length else 0)

/-! ### Optimisers (R301, R302) -/

/-- State vectors of an optimiser; none where it is reserved. -/
def optVectors (opt : Nat) : Option Nat :=
  match opt with
  | 0 => some 0
  | 1 | 2 => some 1
  | 3 | 4 => some 2
  | 5 => some 3
  | _ => none

/-- The ADAM lines up to s2: s1 and s2 (R302). -/
def adamMoments (p : OptParams) (g s1 s2 : Num) : Num × Num :=
  let q := fmul g g
  (ffma (ofF32 p.beta1) (fsub s1 g) g, ffma (ofF32 p.beta2) (fsub s2 q) q)

/-- sqrt(s * C2) + EPS (R302). -/
def adamRoot (p : OptParams) (s : Num) : Num := fadd (fsqrt (fmul s (ofF32 p.c2))) (ofF32 p.eps)

/-- One element of an optimiser step: g, w and the state elements to the new w and state (R302). -/
def optElem (p : OptParams) (g w : Num) (st : List Num) : Num × List Num :=
  let nlr := (ofF32 p.lr).neg
  let wd := ofF32 p.wd
  let s1 := st.getD 0 Num.zero
  let s2 := st.getD 1 Num.zero
  let s3 := st.getD 2 Num.zero
  match p.opt with
  | 0 => (ffma nlr (ffma wd w g) w, [])
  | 1 =>
    let t1 := ffma (ofF32 p.beta1) s1 (ffma wd w g)
    (ffma nlr t1 w, [t1])
  | 2 =>
    let t1 := ffma g g s1
    (ffma nlr (fdiv g (fadd (fsqrt t1) (ofF32 p.eps))) w, [t1])
  | 3 =>
    let t := adamMoments p g s1 s2
    (ffma nlr (fdiv t.1 (adamRoot p t.2)) w, [t.1, t.2])
  | 4 =>
    let t := adamMoments p g s1 s2
    (ffma nlr (ffma wd w (fdiv t.1 (adamRoot p t.2))) w, [t.1, t.2])
  | _ =>
    let t := adamMoments p g s1 s2
    let t3 := fmax s3 t.2
    (ffma nlr (fdiv t.1 (adamRoot p t3)) w, [t.1, t.2, t3])

/-- A row with an optimiser step performed: the row, its encoding, and saturations of its state (R302). -/
def steppedRow (s : RowShape) (row : Bytes) (p : OptParams) (w : Wire) : Bytes × Enc × Nat :=
  let g := w.values
  let k := (optVectors p.opt).getD 0
  let old := (List.range k).map (s.optVector row)
  let rs := ((s.decodeExact row).zip (List.range s.dim)).map (fun x =>
    let st := old.map (fun v => v.getD x.2 Num.zero)
    if w.covers x.2 then optElem p (g.getD (x.2 - w.elem0) Num.zero) x.1 st else (x.1, st))
  let row1 := (List.range k).foldl (fun row j =>
    s.putOptVector row j (rs.map (fun x => x.2.getD j Num.zero))) row
  let sats := ((List.range k).map (fun j =>
    (rs.filter (fun x => (toFloatElem s.optFmt false 0 (x.2.getD j Num.zero)).sat)).length)).sum
  let r := reencode s row1 (rs.map (·.1))
  (r.1, r.2, sats)

/-! ### Commits (R310, R312) -/

/-- A commit needs the current row (R310). -/
def needsCurrent (s : RowShape) (monotonic : Bool) (optState : Nat) : Bool :=
  monotonic || (optState == 0 && 0 < s.optCount)

/-- The committed row from the current row and the source (R310). -/
def committedRow (s : RowShape) (cur src : Bytes) (optState stamp : Nat) : Bytes :=
  let src1 := slice src 0 s.stride
  let h := s.header src1
  let hd := pack [(0, bits h 3 0), (8, bits h 8 8), (16, bits h 27 16), (32, stamp)]
  let r := if s.headed then patch src1 0 (natLE 8 hd) else src1
  let n := s.optCount * s.optVec
  if optState == 0 && 0 < s.optCount then patch r s.optOff (slice cur s.optOff n)
  else if optState == 1 then patch r s.optOff (zeros n)
  else r

/-! ### Around an operation -/

namespace Block

/-- The tallies of an encoding by an agent or a combine unit, with further saturations (R86, R103): to the command's
tallies, or to the block's counters for a remote operation. -/
def tallyRow (b : Block) (flow : Option Nat) (e : Enc) (sats : Nat) : Block :=
  match flow with
  | some id =>
    (b.tally id e).modFlow id (fun f => { f with sat := f.sat + sats, fullCount := f.fullCount + b2n e.full })
  | none =>
    (((b.count 0x2400 1 (e.sat + sats)).count 0x2400 2 e.esc).count 0x2400 3 e.nanGroups).count 0x2400 4 (b2n e.full)

/-- Row operations not performed (R306, R310). -/
def unperformed (b : Block) (flow : Option Nat) (n : Nat) : Block :=
  if n == 0 then b
  else
    let b1 := b.count 0x2303 6 n
    match flow with
    | some id => b1.addPoison id n
    | none => b1

/-- Row operations not performed for another cause than poison: no poison was seen (R305, R306). -/
def missed (b : Block) (flow : Option Nat) (n : Nat) : Block :=
  match flow with
  | some id => (b.count 0x2303 6 n).modFlow id (fun f => { f with poisonCount := f.poisonCount + n })
  | none => b.count 0x2303 6 n

/-- A row operation sent to the agent of its row. -/
def sendRowOp (b : Block) (flow : Option Nat) (op : AgentOp) (a : Nat) (remote : Option RemoteOp) : Block :=
  b.request { port := agentOf a, flow := flow, op := op, remote := remote }

end Block

end Sys2Proof.Machine
end

