-- ==== Sys2Proof/Machine/Vec.lean ====
section
/-! DEFINITION. VEC_CHAIN (09_vector_engine.md R280 to R282): its checks at dispatch, its direct-feed blocks from memory
or satchels, and its output. -/

namespace Sys2Proof.Machine

/-! ### Body fields (R280) -/

namespace Flow
def vcInFmt (f : Flow) : Nat := f.fld 67 64
def vcOutFmt (f : Flow) : Nat := f.fld 71 68
def vcConv (f : Flow) : Nat := f.fld 75 72
def vcFromQueue (f : Flow) : Bool := f.flag 76
def vcOutQueue (f : Flow) : Bool := f.flag 77
def vcCrc (f : Flow) : Bool := f.flag 78
def vcChain (f : Flow) : Nat := f.fld 81 79
/-- HINT, 1 to 3; 0 selects STREAM. -/
def vcHint (f : Flow) : Nat := if f.fld 83 82 == 0 then 2 else f.fld 83 82
def vcCols (f : Flow) : Nat := f.fld 111 96
def vcRows (f : Flow) : Nat := f.fld 159 128
def vcIn (f : Flow) : Nat := f.fld 211 160
def vcOut (f : Flow) : Nat := f.fld 275 224
def vcInStride (f : Flow) : Nat := f.fld 311 288
def vcOutStride (f : Flow) : Nat := f.fld 335 312
def vcMap (f : Flow) : Nat := f.fld 375 336 * 4096
/-- Tiles: row groups times column groups, row-outer. -/
def vcTiles (f : Flow) : Nat := rowGroups128 f.vcRows * colGroups f.vcCols
end Flow

/-- R282. -/
def vecBad (f : Flow) : Bool :=
  f.vcCols == 0 || f.vcRows == 0 || (!f.vcFromQueue && (matrixBad f.vcInFmt f.vcCols f.vcInStride || !aligned f.vcIn 64)) ||
    !outStrideOk f.vcOutQueue f.vcOutFmt f.vcCols f.vcOutStride || (!f.vcOutQueue && !aligned f.vcOut 4096) ||
    (f.vcCrc && !f.vcFromQueue && (!aligned f.vcIn 4096 || !aligned f.vcInStride 4096)) || f.slots < f.vcChain

/-- How a VEC_CHAIN writes its results. -/
def vecOut (f : Flow) : OutSpec :=
  { fmt := f.vcOutFmt, conv := f.vcConv, rows := f.vcRows, dim := f.vcCols, out := f.vcOut, stride := f.vcOutStride,
    kind := b2n f.vcOutQueue, peer := 0, map := f.vcMap, blank := [] }

namespace Block

/-- Checks of VEC_CHAIN at its dispatch (R279, R282, R372). -/
def checkVecChain (_ : Memory) (b : Block) (f : Flow) : Block :=
  let b1 := b.refuseIf f.id
    [(f.vcInFmt == 15 || f.vcOutFmt == 15 || !convOk f.vcConv, stBadFormat), (vecBad f, stBadVec),
     (chainBad f f.vcChain, stBadChain)]
  let src := if f.vcFromQueue then some (f.vcIn % 2 ^ 24) else none
  let into := if f.vcOutQueue then some (f.vcOut % 2 ^ 24) else none
  if src.isNone && into.isNone then b1
  else b1.checkQueues f.id into src (min 128 f.vcRows * f.vcOutStride) (colGroups f.vcCols)

/-- Input rows of row group g read through the row cache (R281, R330). -/
def vecMemoryRows (m : Memory) (b : Block) (f : Flow) (g : Nat) : List (Bytes × Bool) × Block :=
  (groupRows f.vcRows g).foldl (fun (acc : List (Bytes × Bool) × Block) i =>
    let r := acc.2.readCached m f.id (f.vcIn + i * f.vcInStride) (packedMin f.vcInFmt f.vcCols) f.vcHint f.acquires f.vcCrc
    (acc.1 ++ [(r.1, r.2.1)], r.2.2)) ([], b)

/-- The rows of row group g in column group c, from the satchels that hold its chunks. A satchel that disagrees with the
shape poisons its row group (R252); a row poisoned in one chunk is poisoned (R188). -/
def vecSatchelRows (rows cols g c : Nat) (sats : List Satchel) : List (Bytes × Bool) :=
  let n := (groupRows rows g).length
  let bad := (sats.zip (List.range sats.length)).any (fun x => x.1.rows != n || x.1.cols != min 512 (cols - 512 * x.2))
  (List.range n).map (fun i =>
    (((sats[c]?).map (fun x => slice x.data (i * x.pitch) x.pitch)).getD [],
      bad || sats.any (fun x => x.poison.getD i false)))

/-- The blocks of the next row group of a VEC_CHAIN given to the direct feed, when its rows can be had: read from memory,
or in the satchels of all its column groups (R252, R253, R281). -/
def giveVec (m : Memory) (b : Block) (f : Flow) : Option Block :=
  let cs := max 1 (colGroups f.vcCols)
  let g := f.formed / cs
  let w := wingOf f.su
  let give := fun (b : Block) (rows : Nat → List (Bytes × Bool)) =>
    (List.range cs).foldl (fun b c => b.giveBlock w { Pass.at f.id g c 0 with a := rows c }) b
  if f.vcTiles ≤ f.formed then none
  else if f.vcFromQueue then
    let sats := b.pjHeld f
    if f.taken != g || sats.length < cs then none
    else some (give b (fun c => vecSatchelRows f.vcRows f.vcCols g c sats))
  else
    let r := b.vecMemoryRows m f g
    some (give r.2 (fun _ => r.1))

/-- Every block that can be given; `fuel` bounds them. -/
def giveVecs (m : Memory) : Nat → Block → Nat → Block
  | 0, b, _ => b
  | fuel + 1, b, id =>
    match b.flow? id with
    | none => b
    | some f =>
      if b.blocked || f.cut then b
      else match b.giveVec m f with
        | none => b
        | some c => giveVecs m fuel c id

/-- One step of a VEC_CHAIN's work on its stream unit. -/
def vecWork (m : Memory) (b : Block) (f : Flow) : Block :=
  if f.stage != .running then b
  else
    let b1 := giveVecs m f.vcTiles b f.id
    match b1.flow? f.id with
    | none => b1
    | some g => if f.vcTiles ≤ g.formed then b1.builtAll f.id else b1

/-- The values of one row of a block: a whole row of memory cut to its column group, or a satchel's chunk. -/
def vecRow (f : Flow) (c : Nat) (r : Bytes × Bool) : List Num × Bool :=
  let n := if f.vcFromQueue then min 512 (f.vcCols - 512 * c) else f.vcCols
  let s := packedShape f.vcInFmt n 0
  let xs := s.decode r.1
  (if f.vcFromQueue then xs else columnGroup c xs, r.2 || s.poisoned r.1)

/-- The last column group of a row group has left: its satchels are released (R253). -/
def vecRelease (b : Block) (f : Flow) (p : Pass) : Block :=
  match f.fromQ with
  | none => b
  | some q =>
    if p.col + 1 == max 1 (colGroups f.vcCols) then
      (b.releaseHeld q f.id).modFlow f.id (fun g => { g with taken := g.taken + 1 })
    else b

/-- The vector engine takes a block of a VEC_CHAIN: chain, conversion, output (R281); with its row group's last block the
satchels it came in are released. -/
def vecTake (m : Memory) (b : Block) (w : Wing) (f : Flow) (p : Pass) : Block :=
  let rows := (p.a.zip (List.range p.a.length)).map (fun x =>
    let v := vecRow f p.col x.1
    (128 * p.group + x.2, v.1, v.2))
  let r := runChain m b w f f.vcChain p.col rows
  let b1 := (r.2.addPieces f.id (vecOut f) r.1 p.group p.col).vecRelease f p
  if f.tilesFormed + 1 < f.vcTiles then b1
  else match b1.flow? f.id with
    | none => b1
    | some g => (b1.endRows g (vecOut f)).2.close f.id

end Block

/-- VEC_CHAIN: the stream unit gives the blocks whose rows it can have (R280 to R282). -/
def execVecChain (flow : Nat) (s : State) : Out := flowStep s flow (isOp opVecChain) Block.vecWork

end Sys2Proof.Machine
end

