-- ==== Sys2Proof/Machine/Recall.lean ====
section
/-! DEFINITION. RECALL (07_recall.md R205 to R227): its checks at dispatch, the entries searched, scoring, the kept
lists, value gather and pooling, result area and append. -/

namespace Sys2Proof.Machine

/-! ### Body fields (R205) -/

namespace Flow
def rcDesk (f : Flow) : Nat := f.fld 87 64
def rcNq (f : Flow) : Nat := f.fld 95 88
def rcK (f : Flow) : Nat := f.fld 104 96
def rcMetric (f : Flow) : Nat := f.fld 106 105
def rcRet (f : Flow) : Nat := f.fld 108 107
def rcWeight (f : Flow) : Nat := f.fld 110 109
def rcFloorEn (f : Flow) : Bool := f.flag 111
def rcQFmt (f : Flow) : Nat := f.fld 115 112
def rcOutFmt (f : Flow) : Nat := f.fld 119 116
def rcConv (f : Flow) : Nat := f.fld 123 120
def rcChain (f : Flow) : Nat := f.fld 126 124
def rcInline (f : Flow) : Bool := f.flag 127
/-- KEY_HINT, 1 to 3; 0 selects STREAM. -/
def rcKeyHint (f : Flow) : Nat := if f.fld 129 128 == 0 then 2 else f.fld 129 128
/-- VAL_HINT, 1 to 3; 0 selects KEEP. -/
def rcValHint (f : Flow) : Nat := if f.fld 131 130 == 0 then 1 else f.fld 131 130
def rcOutQueue (f : Flow) : Bool := f.flag 132
def rcAppend (f : Flow) : Bool := f.flag 133
def rcQStride (f : Flow) : Nat := 2 * f.fld 155 144
def rcFloor (f : Flow) : Nat := f.fld 191 160
def rcTemp (f : Flow) : Nat := f.fld 207 192
def rcRecent (f : Flow) : Nat := f.fld 231 208
def rcQueries (f : Flow) : Nat := f.fld 307 256
def rcResult (f : Flow) : Nat := f.fld 371 320
def rcOut (f : Flow) : Nat := f.fld 435 384
def rcOutStride (f : Flow) : Nat := f.fld 471 448
def rcSource (f : Flow) : Nat := f.fld 511 472 * 4096
/-- Desk descriptor, keys and values as the dispatch copies give them. -/
def rcDesc (f : Flow) : Nat := f.copyAt 0
/-- Address of the desk descriptor, by the desk base in force at its dispatch (R467). -/
def rcDeskAddr (f : Flow) : Nat := (f.copies.head?.map (·.addr)).getD 0
def rcKey (f : Flow) : RowShape := dcKey (f.copyAt 1)
def rcValue (f : Flow) : RowShape := dcValue (f.copyAt 1)
/-- Scores are INT32 (R213). -/
def rcInt (f : Flow) : Bool := intPair f.rcQFmt f.rcKey.fmt
/-- Output rows: NQ × K raw ones, NQ pooled ones, or none. -/
def rcRows (f : Flow) : Nat := if f.rcRet == 1 then f.rcNq * f.rcK else if f.rcRet == 2 then f.rcNq else 0
/-- Column groups of the values. -/
def rcCols (f : Flow) : Nat := colGroups f.rcValue.dim
/-- What it has found so far. -/
def rcWork (f : Flow) : RecallWork := f.search.getD
  { slots := [], given := 0, next := 0, full := false, newKey := [], newValue := [], appendBad := false, queries := [],
    kept := [], poisonedKeys := 0, nanScores := 0, admitted := 0, phase := 0, appended := false, appendSlot := 0 }
/-- Passes of its scan (R210). -/
def rcScan (f : Flow) : Nat := ceilDiv f.rcWork.slots.length 512
end Flow

/-- R207. -/
def recallBad (f : Flow) (key value : RowShape) : Bool :=
  let t := ofBf16 f.rcTemp
  let soft := f.rcRet == 2 && f.rcWeight == 3
  f.rcNq == 0 || 128 < f.rcNq || f.rcK == 0 || 256 < f.rcK || 1 < f.rcMetric || f.rcRet == 3 ||
    f.rcQStride < packedMin f.rcQFmt key.dim || 4096 < f.rcQStride || (f.rcResult == 0 && f.rcRet == 0) ||
    (!f.rcInline && !aligned f.rcQueries 64) || !aligned f.rcResult 4096 ||
    (f.rcRet != 0 && !f.rcOutQueue && !aligned f.rcOut 4096) ||
    f.slots < (if f.rcInline then ceilDiv (f.rcNq * f.rcQStride) 64 else 0) + f.rcChain ||
    (f.rcFloorEn && !intPair f.rcQFmt key.fmt && (ofF32 f.rcFloor).isNan) ||
    (soft && (!t.isFinite || !Num.zero.lt t)) ||
    (f.rcRet != 0 && !outStrideOk f.rcOutQueue f.rcOutFmt value.dim f.rcOutStride) || (f.rcAppend && f.rcSource == 0)

/-- Checks of RECALL at its dispatch (R47, R50, R207, R279, R372). -/
def Block.checkRecall (m : Memory) (b : Block) (f : Flow) : Block :=
  let r := b.checkDesk m f f.rcDesk
  let key := dcKey r.2.1
  let value := dcValue r.2.1
  (r.2.2.refuseIf f.id [(f.rcQFmt == 15 || f.rcOutFmt == 15 || !convOk f.rcConv, stBadFormat),
    (recallBad f key value, stBadRecall), (chainBad f f.rcChain, stBadChain)]).checkOut f.id f.rcOut
      (if f.rcRet == 1 then f.rcNq * f.rcK else f.rcNq) f.rcOutStride (f.rcRet != 0 && f.rcOutQueue)

/-! ### The search (R208, R209) -/

/-- Age of a slot (R208). -/
def slotAge (d next : Nat) (full : Bool) (s : Nat) : Nat :=
  if full then (next + 2 ^ ddCap d - 1 - s) % 2 ^ ddCap d else next - 1 - s

/-- The searched slots in slot order (R208). -/
def searchedSlots (d next : Nat) (full : Bool) (recent : Nat) : List Nat :=
  let v := if full then 2 ^ ddCap d else next
  let n := if recent == 0 then v else min v recent
  (List.range v).filter (fun s => slotAge d next full s < n)

/-- Query i with its poison (R206). -/
def Block.recallQuery (m : Memory) (b : Block) (f : Flow) (i : Nat) : (Bytes × Bool) × Block :=
  let len := packedMin f.rcQFmt f.rcKey.dim
  let s := packedShape f.rcQFmt f.rcKey.dim 0
  if f.rcInline then
    let d := slice f.inline (i * f.rcQStride) len
    ((d, s.poisoned d), b)
  else
    let r := readInput m b f.id (f.rcQueries + i * f.rcQStride) len false
    ((r.1.data, r.1.bad.any (fun x => x) || s.poisoned r.1.data), r.2)

namespace Block

/-- The search of a flow changed. -/
def modSearch (b : Block) (id : Nat) (g : RecallWork → RecallWork) : Block :=
  b.modFlow id (fun f => { f with search := some (g f.rcWork) })

/-- The start of a RECALL: NEXT and FULL, the queries, the append source (R206, R208, R225). A desk descriptor that is
poisoned at that read fails (R47). -/
def beginRecall (m : Memory) (b : Block) (f : Flow) : Block :=
  let r := cachedRead m b f.id f.rcDeskAddr 32 f.acquires
  let d := leNat r.1
  if r.2.1 then (r.2.2.sawPoison f.id).refuse f.id stBadDesk
  else
  let qs := (List.range f.rcNq).foldl (fun (acc : List (Bytes × Bool) × Block) i =>
    let q := acc.2.recallQuery m f i
    (acc.1 ++ [q.1], q.2)) ([], r.2.2)
  let k := if f.rcAppend then readInput m qs.2 f.id f.rcSource f.rcKey.stride false else (⟨0, [], []⟩, qs.2)
  let v := if f.rcAppend then readInput m k.2 f.id (f.rcSource + 4096) f.rcValue.stride false else (⟨0, [], []⟩, k.2)
  let bad := k.1.bad.any (fun x => x) || v.1.bad.any (fun x => x)
  let b1 := v.2.modFlow f.id (fun g => { g with search := some { f.rcWork with
    slots := searchedSlots f.rcDesc (ddNext d) (ddFull d) f.rcRecent, next := ddNext d, full := ddFull d,
    queries := qs.1, kept := qs.1.map (fun _ => []), newKey := k.1.data, newValue := v.1.data, appendBad := bad } })
  if bad || qs.1.any (·.2) then b1.sawPoison f.id else b1

/-- The next pass of the scan given to the array: 512 keys in slot order (R209, R210). -/
def giveScan (m : Memory) (b : Block) (f : Flow) : Block :=
  let w := f.rcWork
  let run := (w.slots.drop w.given).take 512
  let r := run.foldl (fun (acc : List RowCopy × Block) s =>
    let a := placeRow (ddKeyBase f.rcDesc) f.rcKey.stride s
    let x := acc.2.rowLines m a f.rcKey.stride f.rcKeyHint (some f.id) f.acquires
    (acc.1 ++ [{ window := 0, row := s, addr := some a, asked := none, data := x.1, poison := x.2.1, used := false,
                 room := f.rcKey.stride }], x.2.2)) ([], b)
  (r.2.modSearch f.id (fun w => { w with given := w.given + run.length })).givePass (wingOf f.su)
    { Pass.at f.id 0 (w.given / 512) (stepsFor (twicePair f.rcQFmt f.rcKey.fmt) f.rcKey.dim) with
      a := w.queries, b := r.2.settleCopies f.su r.1 }

/-- Passes of the scan while the run-ahead space takes their keys (R171, R209); `fuel` bounds them. -/
def giveScans (m : Memory) : Nat → Block → Nat → Block
  | 0, b, _ => b
  | fuel + 1, b, id =>
    match b.flow? id with
    | none => b
    | some f =>
      let w := f.rcWork
      let mine := (b.engine (wingOf f.su)).ready.any (fun p => p.flow == id)
      if b.blocked || f.cut || w.slots.length ≤ w.given || (mine && !b.aheadRoom f.su
          (min 512 (w.slots.length - w.given) * f.rcKey.stride)) then b
      else giveScans m fuel (b.giveScan m f) id

end Block

/-! ### Scores (R210 to R213) -/

/-- The key norm of NEG_L2, with a mark where it saturated (R212, R213). -/
def keyNorm (int : Bool) (xs : List Num) : Num × Bool :=
  if int && xs.any Num.isNan then (Num.nan, false)
  else if int then
    let r := accumulateInt 1 (xs.map (fun x => toIntExact x * toIntExact x))
    (Num.ofInt r.1, r.2)
  else (xs.foldl (fun acc x => fadd acc (fmul x x)) Num.zero, false)

/-- The tile of a scoring pass: the products of queries and keys, the keys' poison marks; under NEG_L2 one more row holds
the norms that the vector engine forms of the keys. -/
def scoreTile (f : Flow) (p : Pass) : EngineTile :=
  let sq := packedShape f.rcQFmt f.rcKey.dim 0
  let p2 := twicePair f.rcQFmt f.rcKey.fmt
  let keys := p.b.map (fun c => operandRow f.rcKey c.data (copyBad f.rcKey c))
  let rows := p.a.map (fun q =>
    let x := operandRow sq q.1 q.2
    keys.map (panelCell f.rcInt p2 x)) ++ (if f.rcMetric == 1 then [keys.map (keyNorm f.rcInt)] else [])
  { flow := f.id, group := p.group, col := p.col, cells := rows.map (fun r => r.map (·.1)), poison := p.a.map (·.2),
    keyPoison := p.b.map (copyBad f.rcKey), sat := (rows.map (fun r => (r.filter (·.2)).length)).sum }

/-- The score of a product under NEG_L2 (R212, R213). -/
def l2Score (int : Bool) (dot norm : Num) : Num × Bool :=
  if dot.isNan || norm.isNan then (Num.nan, false)
  else if int then
    let r := sat32 (2 * toIntExact dot - toIntExact norm)
    (Num.ofInt r.1, r.2)
  else (ffma (Num.ofNat 2) dot norm.neg, false)

/-- Entry x stands before entry y (R214). -/
def keptBefore (age : Nat → Nat) (x y : Num × Nat) : Bool := y.1.lt x.1 || (x.1.eqv y.1 && age x.2 < age y.2)

/-- A score offered to a query's list: the list, and whether the score was admitted (R214, R216). -/
def offer (age : Nat → Nat) (k : Nat) (l : List (Num × Nat)) (x : Num × Nat) : List (Num × Nat) × Bool :=
  let above := l.takeWhile (fun y => !keptBefore age x y)
  if k ≤ above.length then (l, false) else ((above ++ x :: l.drop above.length).take k, true)

/-- A score below FLOOR (R205, R214). -/
def belowFloor (f : Flow) (x : Num) : Bool :=
  f.rcFloorEn && x.lt (if f.rcInt then Num.ofInt (sext 32 f.rcFloor) else ofF32 f.rcFloor)

/-- One query tested against the scored keys of a pass: key slots and scores (R214, R216). -/
def testScores (f : Flow) (w : RecallWork) (kept : List (Num × Nat)) (scores : List (Num × Nat)) :
    List (Num × Nat) × Nat × Nat :=
  scores.foldl (fun (acc : List (Num × Nat) × Nat × Nat) x =>
    if x.1.isNan then (acc.1, acc.2.1, acc.2.2 + 1)
    else if belowFloor f x.1 then acc
    else
      let o := offer (slotAge f.rcDesc w.next w.full) f.rcK acc.1 x
      (o.1, acc.2.1 + b2n o.2, acc.2.2)) (kept, 0, 0)

namespace Block

/-- The vector engine takes a tile of scores (R212 to R217). -/
def scoreTake (b : Block) (wing : Wing) (f : Flow) (t : EngineTile) : Block :=
  let w := f.rcWork
  let nq := t.poison.length
  let norms := t.cells.getD nq []
  let slots := (w.slots.drop (512 * t.col)).take 512
  let good := (List.range slots.length).filter (fun j => !t.keyPoison.getD j false)
  let rows := (List.range nq).map (fun i =>
    good.map (fun j =>
      let dot := (t.cells.getD i []).getD j Num.zero
      let s := if f.rcMetric == 1 then l2Score f.rcInt dot (norms.getD j Num.zero) else (dot, false)
      (s, slots.getD j 0)))
  let tests := (List.range rows.length).map (fun i =>
    let kept := w.kept.getD i []
    if t.poison.getD i false then (kept, 0, 0)
    else testScores f w kept ((rows.getD i []).map (fun x => (x.1.1, x.2))))
  let adm := (tests.map (·.2.1)).sum
  let bad := slots.length - good.length
  let sats := (rows.map (fun r => (r.filter (fun x => x.1.2)).length)).sum
  let b1 := b.modFlow f.id (fun g => { g with
    tilesFormed := g.tilesFormed + 1, sat := g.sat + sats,
    search := some { w with kept := tests.map (·.1), admitted := w.admitted + adm, poisonedKeys := w.poisonedKeys + bad,
                            nanScores := w.nanScores + (tests.map (·.2.2)).sum } })
  let b2 := ((b1.count 0x2302 1 good.length).count 0x2302 2 adm).count 0x2302 4 bad
  let b3 := (b2.countChain wing 1 nq good.length).count (vectorOd wing) 1 (8 * adm)
  let b4 := if f.rcMetric == 1 then b3.count (vectorOd wing) 1 (slots.length * f.rcKey.dim) else b3
  if 0 < bad then b4.addPoison f.id bad else b4

/-! ### Values (R221 to R224) -/

/-- The kept entries become a stream of positions in query and rank order, cut into bags (R221 to R223). -/
def beginValues (b : Block) (f : Flow) : Block :=
  let ps := f.rcWork.kept.flatMap (fun l => (List.range f.rcK).map (fun r =>
    ({ row := (l[r]?).map (·.2), weight := 0, badIndex := false, badWeight := false } : Position)))
  let bags :=
    if f.rcRet == 1 then (List.range (f.rcNq * f.rcK)).map (fun i => (⟨i, i + 1, false⟩ : Bag))
    else if f.rcRet == 2 then (List.range f.rcNq).map (fun i => ⟨i * f.rcK, i * f.rcK + f.rcK, false⟩)
    else []
  (b.modFlow f.id (fun g => { g with positions := if f.rcRet == 0 then [] else ps, bags := bags })).modSearch f.id
    (fun w => { w with phase := 1 })

end Block

/-- Row groups of the value output, and those given. -/
def Flow.rcGroups (f : Flow) : Nat := rowGroups128 f.rcRows
def Flow.rcGroupsGiven (f : Flow) : Nat := (f.formed - f.rcScan) / max 1 f.rcCols

namespace Block

/-- A position of the value stream taken in: each distinct slot of a window is fetched once (R221). -/
def takeValue (m : Memory) (b : Block) (f : Flow) : Block :=
  let i := f.taken
  let b1 := b.modFlow f.id (fun g => { g with taken := i + 1 })
  match (f.positions[i]?).bind (·.row) with
  | none => b1
  | some s =>
    if hasCopy f (i / Config.window) s then b1
    else
      let a := placeRow (ddValueBase f.rcDesc) f.rcValue.stride s
      let r := b1.rowLines m a f.rcValue.stride f.rcValHint (some f.id) f.acquires
      r.2.2.addRow f.id { noRow (i / Config.window) s with addr := some a, data := r.1, poison := r.2.1, room := f.rcValue.stride }

/-- The passes or blocks of value group g given to the wing. -/
def giveValues (b : Block) (f : Flow) (g : Nat) : Block :=
  let w := wingOf f.su
  let steps := stepsFor (twiceTerms f.rcValue.fmt) (f.longest (f.groupBags g))
  (List.range f.rcCols).foldl (fun b c =>
    if f.rcRet == 2 then b.givePass w (Pass.at f.id g c steps) else b.giveBlock w (Pass.at f.id g c 0)) b

/-- Bytes of run-ahead space that the next position of the value stream needs (R171). -/
def valueRoom (f : Flow) : Nat :=
  match (f.positions[f.taken]?).bind (·.row) with
  | none => 0
  | some s => if hasCopy f (f.taken / Config.window) s then 0 else f.rcValue.stride

/-- Values fetched and given group by group (R171, R209, R221); `fuel` bounds the steps. -/
def valueIntake (m : Memory) : Nat → Block → Nat → Block
  | 0, b, _ => b
  | fuel + 1, b, id =>
    match b.flow? id with
    | none => b
    | some f =>
      let g := f.rcGroupsGiven
      if b.blocked || f.rcGroups ≤ g then b
      else if f.groupStop g ≤ f.taken then valueIntake m fuel (b.giveValues f g) id
      else
        let b1 := b.makeRoom f (valueRoom f) (f.tilesFormed < f.formed) g
        if b1.aheadRoom f.su (valueRoom f) then valueIntake m fuel (b1.takeValue m ((b1.flow? id).getD f)) id else b

end Block

/-- The weights of a query's kept entries in rank order (R223). -/
def recallWeights (f : Flow) (l : List (Num × Nat)) : List Num :=
  let s := l.map (fun x => rnd32 x.1)
  match f.rcWeight with
  | 2 => s
  | 3 =>
    if s.any (fun x => !x.isFinite) then s.map (fun _ => Num.nan)
    else
      let es := s.map (fun x => fexp (fmul (ofBf16 f.rcTemp) (fsub x (s.headD Num.zero))))
      let sum := es.foldl fadd Num.zero
      es.map (fun e => fdiv e sum)
  | _ => s.map (fun _ => Num.one)

/-- The kept values of bag g in rank order with their weights, a poisoned one decoded as NaN, and whether there is one
(R223, R224, R238). -/
def valueTerms (f : Flow) (g : Bag) (ws : List Num) : List (Num × List Num) × Bool :=
  let copies := (span g.first g.stop).filterMap (fun i =>
    ((f.positions[i]?).bind (·.row)).map (fun s =>
      (ws.getD (i - g.first) Num.one, (copyFor f (i / Config.window) s).filter (fun c => !copyBad f.rcValue c))))
  (copies.map (fun x => (x.1, operandRow f.rcValue ((x.2.map (·.data)).getD []) x.2.isNone)), copies.any (·.2.isNone))

/-- The tile of a value pooling pass (R223). -/
def recallTile (f : Flow) (p : Pass) : EngineTile :=
  let w := f.rcWork
  let rows := (f.groupBags p.group).zip (List.range f.rcNq) |>.map (fun x =>
    let ts := valueTerms f x.1 (recallWeights f (w.kept.getD x.2 []))
    (pooledRow false (twiceTerms f.rcValue.fmt) f.rcValue.dim p.col ts.1,
      ts.2 || (w.queries.getD x.2 ([], false)).2))
  { flow := f.id, group := p.group, col := p.col, cells := rows.map (fun r => r.1.map (·.1)), poison := rows.map (·.2),
    keyPoison := [], sat := 0 }

/-- How a RECALL writes its values (R222 to R224). -/
def recallOut (f : Flow) : OutSpec :=
  { fmt := f.rcOutFmt, conv := f.rcConv, rows := f.rcRows, dim := f.rcValue.dim, out := f.rcOut, stride := f.rcOutStride,
    kind := b2n f.rcOutQueue, peer := 0, map := 0,
    blank := if f.rcRet == 1 then (List.range f.rcRows).filter (fun i =>
      ((f.positions[i]?).map (fun p => p.row.isNone)).getD false) else [] }

namespace Block

/-- The vector engine takes a tile of pooled values: the mean's division, then the chain (R180, R223, R224). -/
def recallTake (m : Memory) (b : Block) (w : Wing) (f : Flow) (t : EngineTile) : Block :=
  let mean := f.rcWeight == 1
  let rows := (List.range t.cells.length).map (fun k =>
    let n := (f.rcWork.kept.getD k []).length
    let xs := t.cells.getD k []
    (k, (if mean && n != 0 then xs.map (fun x => fdiv x (Num.ofNat n)) else xs), t.poison.getD k false))
  let cols := ((t.cells.head?).map List.length).getD 0
  let b1 := if mean then b.countChain w 1 rows.length cols else b
  let r := runChain m b1 w f f.rcChain t.col rows
  r.2.addPieces f.id (recallOut f) r.1 t.group t.col

/-- The vector engine takes a block of raw values (R222). -/
def rawTake (m : Memory) (b : Block) (w : Wing) (f : Flow) (p : Pass) : Block :=
  let bags := f.groupBags p.group
  let b0 := b.consumeRows f.id (f.needs bags)
  let n := min 512 (f.rcValue.dim - 512 * p.col)
  let rows := (bags.zip (List.range bags.length)).map (fun x =>
    let i := 128 * p.group + x.2
    let bad := (f.rcWork.queries.getD (i / max 1 f.rcK) ([], false)).2
    let t := valueTerms f x.1 []
    (i, ((t.1.head?).map (fun v => columnGroup p.col v.2)).getD (List.replicate n Num.zero), t.2 || bad))
  let r := runChain m b0 w f f.rcChain p.col rows
  r.2.addPieces f.id (recallOut f) r.1 p.group p.col

/-! ### Results and append (R218 to R220, R225, R226) -/

/-- The 64-byte summary (R218). -/
def recallSummary (w : RecallWork) : Bytes :=
  natLE 64 (pack [(0, w.slots.length), (32, w.appendSlot), (56, b2n w.appended), (64, w.poisonedKeys), (96, w.nanScores),
    (128, w.admitted)])

/-- One entry of a list (R219). -/
def recallEntry (int : Bool) (x : Option (Num × Nat)) : Bytes :=
  match x with
  | none => zeros 8
  | some (s, slot) =>
    natLE 8 (pack [(0, slot), (31, 1), (32, if int then wrapInt 32 (toIntExact s) else toF32 s)])

/-- The result area: summary and lists (R218, R219). -/
def recallResults (f : Flow) : Bytes :=
  let rb := roundUp (8 * f.rcK) 64
  recallSummary f.rcWork ++ f.rcWork.kept.flatMap (fun l =>
    fit rb ((List.range f.rcK).flatMap (fun r => recallEntry f.rcInt l[r]?)))

/-- The result area written in whole blocks (R220). -/
def writeResults (b : Block) (f : Flow) : Block :=
  if f.rcResult == 0 then b
  else
    let d := recallResults f
    b.writeArea f.id f.rcResult (f.rcResult + d.length) [⟨f.rcResult, d, false⟩]

/-- Values finished: output and results written (R220, R224, R227). -/
def recallResult (b : Block) (f : Flow) : Block :=
  let b1 := if f.rcRet == 0 then b else (b.endRows f (recallOut f)).2
  let b2 := b1.writeResults f
  let marked := !f.poisonOk && (f.rcWork.queries.any (·.2) || (f.rcAppend && f.rcWork.appendBad))
  (b2.refuseIf f.id [(marked, stPoisoned)]).modSearch f.id (fun w => { w with phase := 2 })

/-- The append handed to the agent that owns the desk descriptor (R225); a poisoned source is not appended (R226). -/
def recallAppend (b : Block) (f : Flow) : Block :=
  if !f.rcAppend || f.rcWork.appendBad then b.close f.id
  else
    (b.sendRowOp (some f.id) (.append f.rcDeskAddr f.rcWork.newKey f.rcWork.newValue false) f.rcDeskAddr none).modSearch f.id
      (fun w => { w with phase := 3 })

/-- After the append: APPEND_SLOT and APPENDED written into the summary's block (R225). -/
def recallAppended (b : Block) (f : Flow) : Block :=
  let b1 :=
    if f.rcResult == 0 then b
    else b.writeBlock f.id f.rcResult (fit 4096 (recallResults f)) false
  b1.close f.id

/-- One step of a RECALL's work on its stream unit. -/
def recallWork (m : Memory) (b : Block) (f : Flow) : Block :=
  let b1 := if f.search.isNone then b.beginRecall m f else b
  let b2 := if ((b1.flow? f.id).getD f).search.isNone then b1 else giveScans m ((b1.flow? f.id).getD f).rcScan b1 f.id
  match b2.flow? f.id with
  | none => b2
  | some g =>
    let w := g.rcWork
    if b2.blocked || g.cut || g.stage == .closing then b2
    else if w.phase == 0 then
      if w.slots.length ≤ w.given && g.rcScan ≤ g.tilesFormed then
        let b3 := b2.beginValues g
        valueIntake m (2 * g.rcRows * (g.rcK + 1) + 2) b3 f.id
      else b2
    else if w.phase == 1 then
      let b3 := valueIntake m (2 * g.rcRows * (g.rcK + 1) + 2) b2 f.id
      match b3.flow? f.id with
      | none => b3
      | some h =>
        if h.rcGroupsGiven < h.rcGroups then b3
        else if h.rcScan + h.rcGroups * h.rcCols ≤ h.tilesFormed then (b3.builtAll f.id).recallResult h
        else b3.builtAll f.id
    else if w.phase == 2 then
      if b2.writesWait f.id || b2.tileOpen f.id then b2 else b2.recallAppend g
    else if w.phase == 4 then b2.recallAppended g
    else b2

end Block

/-- RECALL: the stream unit searches its desk (R205 to R227). -/
def execRecall (flow : Nat) (s : State) : Out := flowStep s flow (isOp opRecall) Block.recallWork

end Sys2Proof.Machine
end

