-- ==== Sys2Proof/Machine/Quant.lean ====
section
/-! DEFINITION. QUANTISE and CALIBRATE (04_quantisation_calibration.md): scale modes, the error statistics, calibration
records, drift. -/

namespace Sys2Proof.Machine

/-! ### Body fields (R95) -/

namespace Flow
def qSrcFmt (f : Flow) : Nat := f.fld 67 64
def qDstFmt (f : Flow) : Nat := f.fld 71 68
def qConv (f : Flow) : Nat := f.fld 75 72
def qMode (f : Flow) : Nat := f.fld 78 76
def qDim (f : Flow) : Nat := f.fld 108 96
def qClip (f : Flow) : Nat := f.fld 159 144
def qRows (f : Flow) : Nat := f.fld 191 160
def qSrc (f : Flow) : Nat := f.fld 243 192
def qDst (f : Flow) : Nat := f.fld 307 256
def qStats (f : Flow) : Nat := f.fld 371 320
def qRecord (f : Flow) : Nat := f.fld 435 384

/-- Shape of the source rows. -/
def qSource (f : Flow) : RowShape :=
  { packedShape f.qSrcFmt f.qDim (2 * f.fld 123 112) with
    headed := f.flag 80, sideCap := f.fld 84 81, sideFmt := f.fld 85 85 }

/-- Shape of the destination rows. -/
def qDest (f : Flow) : RowShape :=
  { packedShape f.qDstFmt f.qDim (2 * f.fld 139 128) with
    headed := f.flag 86, sideCap := f.fld 90 87, sideFmt := f.fld 91 91 }
end Flow

/-- R96 for one side list. -/
def sideBad (r : RowShape) : Bool := 8 < r.sideCap || (r.sideCap != 0 && (!r.headed || !isBell r.fmt))

/-- R96 for one stride. -/
def strideBad (r : RowShape) : Bool :=
  r.stride == 0 || 4096 < r.stride || r.stride < r.minStride || (r.headed && !aligned r.stride 8)

/-- The checks of R96 that QUANTISE and CALIBRATE share (R104). -/
def quantBoth (f : Flow) : Bool :=
  f.qDim == 0 || 4096 < f.qDim || f.qRows == 0 || strideBad f.qSource || sideBad f.qSource || sideBad f.qDest ||
    !aligned f.qSrc 4096 || !aligned f.qStats 64 || !aligned f.qRecord 64

/-- A BF16 ratio greater than 0 and at most 1; no NaN (R96). -/
def ratioOk (c : Nat) : Bool := Num.zero.lt (ofBf16 c) && !Num.one.lt (ofBf16 c)

/-- R96 without the record. -/
def quantBad (f : Flow) : Bool :=
  quantBoth f || 3 < f.qMode || (f.qMode == 1 && !ratioOk f.qClip) || strideBad f.qDest || !aligned f.qDst 4096

/-- R104. -/
def calibBad (f : Flow) : Bool := quantBoth f || fmtGroup f.qDstFmt == 0 || f.qRecord == 0

namespace Block

/-- Checks of QUANTISE at its dispatch (R67, R84, R96). -/
def checkQuantise (_ : Memory) (b : Block) (f : Flow) : Block :=
  b.refuseIf f.id [(f.qSrcFmt == 15 || f.qDstFmt == 15 || !convOk f.qConv, stBadFormat), (quantBad f, stBadQuant)]

/-- Checks of CALIBRATE at its dispatch (R67, R84, R104). -/
def checkCalibrate (_ : Memory) (b : Block) (f : Flow) : Block :=
  b.refuseIf f.id [(f.qSrcFmt == 15 || f.qDstFmt == 15 || !convOk f.qConv, stBadFormat), (calibBad f, stBadQuant)]

end Block

/-! ### Calibration records (R106) -/

def crValid (r : Bytes) : Bool := bit (leNat r) 0
def crDrifted (r : Bytes) : Bool := bit (leNat r) 1
def crFmt (r : Bytes) : Nat := bits (leNat r) 11 8
def crDim (r : Bytes) : Nat := bits (leNat r) 28 16
def crNmse (r : Bytes) : Nat := bits (leNat r) 95 64
def crSat (r : Bytes) : Nat := bits (leNat r) 127 96
def crGeneration (r : Bytes) : Nat := bits (leNat r) 159 128
/-- RATIO[j]. -/
def crRatio (r : Bytes) (j : Nat) : Nat := leNat (slice r (64 + 2 * j) 2)

/-- Bytes of a calibration record. -/
def recordBytes : Nat := 320

/-- The record serves a QUANTISE in SCALE_MODE 2 (R106). -/
def recordOk (f : Flow) (r : Bytes) : Bool := crValid r && crFmt r == f.qDstFmt && crDim r == f.qDim

/-! ### Scales (R92 to R94) -/

/-- The candidate ratios of R94 as BF16, largest first: 1, 0.9375, 0.875, 0.8125, 0.75, 0.625, 0.5, 0.375. -/
def candidates : List Nat := [0x3F80, 0x3F70, 0x3F60, 0x3F50, 0x3F40, 0x3F20, 0x3F00, 0x3EC0]

/-- The raw scale of a group under a ratio (R93). A record that software filled may hold a ratio for which R81 states no
scale, one that is infinite or NaN, or one that makes a' of a microscaled group negative: a free value (log 5). -/
def ratioScale (fmt ratio : Nat) (xs : List Num) : Nat :=
  let c := ofBf16 ratio
  let a := Num.mul (amax xs) c
  if !c.isFinite || (isMicro fmt && a.sign && !a.isZero) then (Config.freeLane 6 ratio).toNat % 2 ^ (8 * fmtScaleBytes fmt)
  else defaultScaleOf fmt a

/-! ### Error statistics (R100 to R102) -/

/-- Nothing measured. -/
def Tally.empty : Tally :=
  { count := 0, sse := Num.zero, signal := Num.zero, amax := Num.zero, maxErr := Num.zero, nonfinite := 0 }

/-- The larger of two magnitudes. -/
def larger (a b : Num) : Num := if a.lt b then b else a

/-- One element measured: source value and destination value, both FP32 (R100, R101). -/
def Tally.element (t : Tally) (x q : Num) : Tally :=
  if x.isFinite && q.isFinite then
    let e := fsub x q
    { t with count := t.count + 1, sse := fadd t.sse (fmul e e), signal := fadd t.signal (fmul x x),
             amax := larger t.amax x.abs, maxErr := larger t.maxErr e.abs }
  else { t with nonfinite := t.nonfinite + 1 }

/-- A group's sums added into a total (R101). -/
def Tally.add (t g : Tally) : Tally :=
  { count := t.count + g.count, sse := fadd t.sse g.sse, signal := fadd t.signal g.signal,
    amax := larger t.amax g.amax, maxErr := larger t.maxErr g.maxErr, nonfinite := t.nonfinite + g.nonfinite }

/-- Values of a side-list entry. -/
def sideNum (sideFmt w : Nat) : Num := if sideFmt == 0 then ofBf16 w else ofF32 w

/-- The decoded FP32 values of codes under a raw scale, escapes taking side-list entries from number k on (R100). -/
def groupValues (c : ConvSpec) (scale : Nat) (side : List Nat) (codes : List Nat) (k : Nat) : List Num × Nat :=
  codes.foldl (fun (acc : List Num × Nat) code =>
    match decodeCode c.fmt code scale with
    | some v => (acc.1 ++ [rnd32 v], acc.2)
    | none => (acc.1 ++ [sideNum c.sideFmt (side.getD acc.2 0)], acc.2 + 1)) ([], k)

/-- One group converted after `acc`, and what it measures (R100). DESIGN CHOICE (log 60): a source or decoded value beyond
the FP32 range rounds to an infinity, and so counts in NONFINITE. -/
def measureGroup (c : ConvSpec) (acc : Enc) (scale : Nat) (xs : List Num) : Enc × Tally :=
  let e := encGroup c acc (scale, xs)
  let written := if fmtGroup c.fmt == 0 then scale else e.scales.getLastD scale
  let q := (groupValues c written e.side (e.codes.drop acc.codes.length) acc.side.length).1
  (e, ((xs.map rnd32).zip q).foldl (fun t p => t.element p.1 p.2) Tally.empty)

/-- SEARCH: the candidate with the smallest squared error after `acc`, the larger one on equal error (R92, R94). -/
def bestRatio (c : ConvSpec) (acc : Enc) (xs : List Num) : Nat :=
  (candidates.foldl (fun (best : Option (Nat × Num)) r =>
    let s := (measureGroup c acc (ratioScale c.fmt r xs) xs).2.sse
    match best with
    | none => some (r, s)
    | some (k, t) => if s.lt t then some (r, s) else some (k, t)) none).elim 0x3F80 (·.1)

/-- Where the ratio of group j comes from (R92). -/
def groupRatio (f : Flow) (cal : Bytes) (c : ConvSpec) (acc : Enc) (j : Nat) (xs : List Num) : Nat :=
  match f.qMode with
  | 1 => f.qClip
  | 2 => crRatio cal j
  | 3 => bestRatio c acc xs
  | _ => 0x3F80

/-- A row converted under ratios that a function gives group by group; its group sums are added, in group order, into
the command's total (R101). -/
def convertRatios (c : ConvSpec) (ratio : Enc → Nat → List Num → Nat) (xs : List Num) (total : Tally) : Enc × Tally :=
  let gs := rowGroups c.fmt xs
  (gs.zip (List.range gs.length)).foldl (fun (acc : Enc × Tally) g =>
    let r := measureGroup c acc.1 (ratioScale c.fmt (ratio acc.1 g.2 g.1) g.1) g.1
    (r.1, acc.2.add r.2)) (Enc.empty, total)

/-! ### What a command measures -/

/-- Nothing measured. -/
def Measured.empty : Measured :=
  { tally := Tally.empty, sat := 0, esc := 0, nanGroups := 0, fullRows := 0, poisonedRows := 0 }

/-- A converted row added. -/
def Measured.row (t : Measured) (r : Enc × Tally) : Measured :=
  { t with tally := r.2, sat := t.sat + r.1.sat, esc := t.esc + r.1.esc, nanGroups := t.nanGroups + r.1.nanGroups,
           fullRows := t.fullRows + b2n r.1.full }

/-- A count of the statistics record stops at 2^32 - 1 (R102). -/
def stop32 (n : Nat) : Nat := min n (2 ^ 32 - 1)

/-- n ÷ d exceeds a bound, the quotient unrounded (R108). -/
def quotExceeds (n d bound : Num) : Bool :=
  if n.isFinite && d.isFinite && !d.isZero && bound.isFinite then (Num.mul bound d).lt n else bound.lt (fdiv n d)

/-- SSE / SIGNAL as FP32. -/
def Measured.nmse (t : Measured) : Num := fdiv t.tally.sse t.tally.signal
/-- SATURATIONS / COUNT as FP32. -/
def Measured.satFraction (t : Measured) : Num := fdiv (Num.ofNat t.sat) (Num.ofNat t.tally.count)

/-- The 64-byte statistics record (R102). -/
def Measured.record (t : Measured) (drift : Bool) : Bytes :=
  let mse := if t.tally.count == 0 then 0 else toF32 (fdiv t.tally.sse (Num.ofNat t.tally.count))
  natLE 64 (pack [(0, t.tally.count), (64, toF32 t.tally.sse), (96, toF32 t.tally.signal), (128, mse),
    (160, toF32 t.tally.amax), (192, toF32 t.tally.maxErr), (224, stop32 t.sat), (256, stop32 t.esc),
    (288, stop32 t.nanGroups), (320, stop32 t.fullRows), (352, stop32 t.tally.nonfinite), (384, stop32 t.poisonedRows),
    (416, b2n drift)])

/-- Source row i: its bytes and whether it is poisoned (R36, R97). -/
def sourceRow (m : Memory) (b : Block) (f : Flow) (i : Nat) : Bytes × Bool × Block :=
  let s := f.qSource
  let r := b.readFor m f.id (placeRow f.qSrc s.stride i) s.stride
  (r.1, r.2.1 || s.poisoned r.1, r.2.2)

namespace Block

/-- Row i of a QUANTISE converted and written (R91 to R98, R100); a poisoned source row becomes a poisoned row (R97).
The areas of the row are written, unused side-list room as zeros (log 21). -/
def quantiseRow (m : Memory) (f : Flow) (cal : Bytes) (acc : Measured × Block) (i : Nat) : Measured × Block :=
  let d := f.qDest
  let a := placeRow f.qDst d.stride i
  let s := sourceRow m acc.2 f i
  if s.2.1 then
    ({ acc.1 with poisonedRows := acc.1.poisonedRows + 1 },
      s.2.2.writeOut f.id a ((poisonShape d).take d.minStride))
  else
    let c := d.conv f.qConv
    let xs := f.qSource.decode s.1
    let r := convertRatios c (groupRatio f cal c) xs acc.1.tally
    (acc.1.row r,
      s.2.2.writeOut f.id a ((d.putEnc (zeros d.stride) r.1).take d.minStride))

/-- What a finished measurement leaves in the flow: its tallies, its poisoned rows, its full rows (R98, R103). -/
def measuredIn (b : Block) (id : Nat) (t : Measured) : Block :=
  let b1 := b.modFlow id (fun f => { f with
    sat := f.sat + t.sat, esc := f.esc + t.esc, nanGroups := f.nanGroups + t.nanGroups,
    fullCount := f.fullCount + t.fullRows })
  if 0 < t.poisonedRows then b1.addPoison id t.poisonedRows else b1

/-- The statistics record, where the command names one. -/
def writeStats (b : Block) (f : Flow) (t : Measured) (drift : Bool) : Block :=
  if f.qStats == 0 then b else b.writeOut f.id f.qStats (t.record drift)

/-- The two tests of R108; quotients, product and sum stand unrounded. -/
def driftTests (b : Block) (cal : Bytes) (t : Measured) : Bool × Bool :=
  let judged := b.od' 0x2401 1 == 1 && b.od' 0x2401 4 ≤ t.tally.count
  (judged && !t.tally.signal.isZero &&
      quotExceeds t.tally.sse t.tally.signal (Num.mul (ofF32 (crNmse cal)) (ofF32 (b.od' 0x2401 2))),
    judged && quotExceeds (Num.ofNat t.sat) (Num.ofNat t.tally.count)
      (Num.add (ofF32 (crSat cal)) (ofF32 (b.od' 0x2401 3))))

/-- The payload of CALIBRATION_DRIFT (R110). -/
def driftPayload (f : Flow) (cal : Bytes) (t : Measured) (d : Bool × Bool) : Nat :=
  pack [(0, f.ring), (32, f.tag), (64, f.qRecord), (128, crGeneration cal), (160, toF32 t.nmse),
    (192, toF32 t.satFraction), (224, b2n d.1), (225, b2n d.2)]

/-! ### The wing's quantiser (R99, R378) -/

/-- A tile or block of the flow is converted to an output format as it leaves the vector engine; a tile of scores is
not. -/
def tileConverts (f : Flow) : Bool := f.opcode != opRecall || f.rcScan ≤ f.tilesFormed

/-- Flows whose conversions are ready for a wing's quantiser: its QUANTISE and CALIBRATE commands at work, and what its
vector engine may take next (R99, R378). -/
def converting (b : Block) (w : Wing) : List Flow :=
  let e := b.engine w
  let tiles := (((e.tileQueue.take 1).map (·.flow) ++ e.feed.map (·.flow)).eraseDups).filterMap b.flow?
  (b.flows.filter (fun f => (f.opcode == opQuantise || f.opcode == opCalibrate) && f.stream.isNone && f.running &&
    wingOf f.su == w && b.mayWork f.id) ++ tiles.filter tileConverts).filter (fun f => !b.readWaits f)

/-- The timetable grants the wing's quantiser to a flow now (R99, R378). DESIGN CHOICE (log 59): one grant covers the groups
of a row of a QUANTISE, the groups of a tile, or a whole CALIBRATE. -/
def quantiserTurn (b : Block) (f : Flow) : Option Block :=
  let fs := b.converting (wingOf f.su)
  (b.grant (4 + wingNo (wingOf f.su)) (if fs.any (fun g => g.id == f.id) then fs else fs ++ [f])).bind (fun r =>
    if r.1.id == f.id then some r.2 else none)

/-- The start of a QUANTISE: in SCALE_MODE 2 its record is read (R96, R106, R107). A poisoned record is no valid one
(log 28). -/
def beginQuantise (m : Memory) (b : Block) (f : Flow) : Block :=
  let r := if f.qMode == 2 then b.readFor m f.id f.qRecord recordBytes else ([], false, b)
  if f.qMode == 2 && (r.2.1 || !recordOk f r.1) then r.2.2.refuse f.id stBadQuant
  else r.2.2.modFlow f.id (fun g => { g with quant := some { cal := r.1, measured := Measured.empty } })

/-- The end of a QUANTISE: statistics, drift, tallies (R98, R102, R103, R108, R109). -/
def endQuantise (b : Block) (f : Flow) (w : QuantWork) : Block :=
  let t := w.measured
  let d := if f.qMode == 2 then b.driftTests w.cal t else (false, false)
  let drift := d.1 || d.2
  let b1 := ((b.measuredIn f.id t).writeStats f t drift).count 0x2400 5 ((f.qRows - t.poisonedRows) * f.qDim)
  (if drift then
      b1.sendRowOp (some f.id) (.record f.qRecord (natLE 32 (driftPayload f w.cal t d)) true) f.qRecord none
    else b1).close f.id

/-- Rows of a QUANTISE, each under a grant of the quantiser, until a read waits or the grant goes elsewhere; `fuel` bounds
them. What has been converted stays; `gone` says that this step has converted a row. -/
def quantiseRows (m : Memory) (id : Nat) : Nat → Bool → Block → Block
  | 0, _, b => b
  | fuel + 1, gone, b =>
    match b.flow? id with
    | none => b
    | some f =>
      match f.quant with
      | none => b
      | some w =>
        if f.qRows ≤ f.taken then b.endQuantise f w
        else match b.quantiserTurn f with
          | none => if gone then b else { b with blocked := true }
          | some b1 =>
            let r := quantiseRow m f w.cal (w.measured, b1) f.taken
            if r.2.blocked then (if gone then b else r.2)
            else if ((r.2.flow? id).map (·.cut)).getD false then r.2
            else quantiseRows m id fuel true (r.2.modFlow id (fun g =>
              { g with taken := g.taken + 1, quant := some { w with measured := r.1 } }))

/-- The work of a QUANTISE (R96 to R99, R106 to R109). -/
def quantiseWork (m : Memory) (b : Block) (f : Flow) : Block :=
  if f.stage != .running then b
  else
    let b1 := if f.quant.isNone then b.beginQuantise m f else b
    if b1.blocked then b1 else quantiseRows m f.id (f.qRows + 1) false b1

/-! ### CALIBRATE (R104 to R107) -/

/-- The elements of the source rows that are not poisoned, in row order, and how many are (R97, R105). -/
def calibrationRows (m : Memory) (b : Block) (f : Flow) : List (List Num) × Nat × Block :=
  (List.range f.qRows).foldl (fun (acc : List (List Num) × Nat × Block) i =>
    let s := sourceRow m acc.2.2 f i
    if s.2.1 then (acc.1, acc.2.1 + 1, s.2.2) else (acc.1 ++ [f.qSource.decode s.1], acc.2.1, s.2.2)) ([], 0, b)

end Block

/-- The squared error of a candidate over group j of every row, the whole side list free (R105). -/
def candidateSum (c : ConvSpec) (groups : List (List Num)) (ratio : Nat) : Num :=
  groups.foldl (fun s xs => fadd s (measureGroup c Enc.empty (ratioScale c.fmt ratio xs) xs).2.sse) Num.zero

/-- The candidate kept for a group index (R105). -/
def calibrateGroup (c : ConvSpec) (groups : List (List Num)) : Nat :=
  (candidates.foldl (fun (best : Option (Nat × Num)) r =>
    let s := candidateSum c groups r
    match best with
    | none => some (r, s)
    | some (k, t) => if s.lt t then some (r, s) else some (k, t)) none).elim 0x3F80 (·.1)

/-- The calibration record, its GENERATION left to the agent that writes it (R106, R107); REF_SAT of no element at all is a free value (log 5). -/
def calibrationRecord (f : Flow) (ratios : List Nat) (t : Measured) (rows : Nat) (free : Nat) : Bytes :=
  let nmse := if t.tally.signal.isZero then 0 else toF32 t.nmse
  let sat := if t.tally.count == 0 then free else toF32 t.satFraction
  let head := pack [(0, 1), (8, f.qDstFmt), (12, f.qConv), (16, f.qDim), (32, ratios.length),
    (40, f.qDest.sideCap), (64, nmse), (96, sat), (192, rows)]
  natLE 64 head ++ fit 256 (ratios.flatMap (natLE 2))

namespace Block

/-- The work of a CALIBRATE: ratios by group index, statistics under them, and the record asked of its agent (R105,
R107). -/
def calibrateWork (m : Memory) (b : Block) (f : Flow) : Block :=
  if f.stage != .running then b
  else match b.quantiserTurn f with
  | none => { b with blocked := true }
  | some b0 =>
    let rs := b0.calibrationRows m f
    let c := f.qDest.conv f.qConv
    let ratios := (List.range (fmtGroups f.qDstFmt f.qDim)).map (fun j =>
      calibrateGroup c (rs.1.map (fun xs => (rowGroups c.fmt xs).getD j [])))
    let ratio := fun (_ : Enc) (j : Nat) (_ : List Num) => ratios.getD j 0x3F80
    let t0 := rs.1.foldl (fun (t : Measured) xs => t.row (convertRatios c ratio xs t.tally))
      Measured.empty
    let t := { t0 with poisonedRows := rs.2.1 }
    let n := rs.2.2.fresh
    let cal := calibrationRecord f ratios t rs.1.length (Config.freeBits n.1).toNat
    (((n.2.measuredIn f.id t).writeStats f t false).sendRowOp (some f.id) (.record f.qRecord cal false) f.qRecord none).close
      f.id

/-- A record with GENERATION one above that of the record it replaces (R106, R107). -/
def nextGeneration (now d : Bytes) : Bytes := patch d 16 (natLE 4 (crGeneration now + 1))

/-- A drift mark changes the record: GENERATION is the command's, and DRIFTED is 0 (R109). -/
def marks (now d : Bytes) : Bool := crGeneration now == bits (leNat d) 159 128 && !crDrifted now

/-- A RECORD request performed by the agent that owns the record: the whole record of a CALIBRATE (R107), or a drift
mark, set only while GENERATION is the command's, with its event when it changes DRIFTED (R109, R110). -/
def performRecord (m : Memory) (b : Block) (a : Nat) (d : Bytes) (mark : Bool) : Block :=
  let now := memRead (land m b.posted) a 64
  if !mark then b.tierWrite a (nextGeneration now d)
  else if b.absentRange a 64 || b.stackOut a then b.tierWrite a (slice now 0 1)
  else if marks now d then
    ((b.tierWrite a (natLE 1 (leNat (slice now 0 1) + 2))).event 4 (leNat d)).count32 0x2401 5 1
  else b

end Block

/-- QUANTISE (R95 to R103, R106 to R109). -/
def execQuantise (flow : Nat) (s : State) : Out := flowStep s flow (isOp opQuantise) Block.quantiseWork
/-- CALIBRATE (R104 to R107). -/
def execCalibrate (flow : Nat) (s : State) : Out := flowStep s flow (isOp opCalibrate) Block.calibrateWork

end Sys2Proof.Machine
end

