-- ==== Sys2Proof/Machine/Sync.lean ====
section
/-! DEFINITION. Acquires, FLUSH, FENCE (13_ordering_visibility.md R399 to R409), bells, signal words and their commands
(12_streams_timetable.md R385 to R391), NOP, and the end of a stream generation (R357), which a ringing bell causes. -/

namespace Sys2Proof.Machine

/-! ### Body fields (R385, R388, R389, R404, R405, R407) -/

namespace Flow
def blNo (f : Flow) : Nat := f.fld 71 64
def blParties (f : Flow) : Nat := f.fld 87 72
/-- TIMEOUT_US of a BELL, WAIT or FENCE. -/
def timeoutUs (f : Flow) : Nat := f.fld 111 96
def sgOp (f : Flow) : Nat := f.fld 65 64
def sgNo (f : Flow) : Nat := f.fld 91 80
def sgValue (f : Flow) : Nat := f.fld 191 128
def wtBase (f : Flow) : Nat := f.fld 243 192
def wtPages (f : Flow) : Nat := f.fld 287 256
def flBase (f : Flow) : Nat := f.fld 115 64
def flPages (f : Flow) : Nat := f.fld 159 128
def flAll (f : Flow) : Bool := f.flag 160
def flInvalidate (f : Flow) : Bool := f.flag 161
def aqAll (f : Flow) : Bool := f.flag 352
/-- Range k of an ACQUIRE: base and pages. -/
def aqRange (f : Flow) (k : Nat) : Nat × Nat := (f.fld (115 + 96 * k) (64 + 96 * k), f.fld (159 + 96 * k) (128 + 96 * k))
def fnScope (f : Flow) : Nat := f.fld 65 64
def fnStreams (f : Flow) : Bool := f.flag 66
end Flow

namespace Block

/-! ### Checks at dispatch (R391, R409) -/

/-- R391 for a BELL. -/
def checkBell (_ : Memory) (b : Block) (f : Flow) : Block := b.refuseIf f.id [(f.blParties == 0, stBadSync)]
/-- R391 for a SIGNAL. -/
def checkSignal (_ : Memory) (b : Block) (f : Flow) : Block := b.refuseIf f.id [(f.sgOp == 3, stBadSync)]
/-- R391 for a WAIT. -/
def checkWait (_ : Memory) (b : Block) (f : Flow) : Block :=
  b.refuseIf f.id [(f.sgOp == 3 || (f.acquires && (f.wtPages == 0 || !aligned f.wtBase 4096)), stBadSync)]
/-- R409 for a FLUSH. -/
def checkFlush (_ : Memory) (b : Block) (f : Flow) : Block :=
  b.refuseIf f.id [(!aligned f.flBase 4096 || (f.flAll && (f.flBase != 0 || f.flPages != 0)) ||
    (!f.flAll && f.flPages == 0), stBadOrder)]
/-- R409 for an ACQUIRE. -/
def checkAcquire (_ : Memory) (b : Block) (f : Flow) : Block :=
  let rs := (List.range 3).map f.aqRange
  b.refuseIf f.id [(rs.any (fun r => !aligned r.1 4096) || (f.aqAll && rs.any (fun r => r.1 != 0 || r.2 != 0)) ||
    (!f.aqAll && rs.all (fun r => r.2 == 0)), stBadOrder)]

/-! ### Acquires (R401, R413) -/

/-- A column of the slice shares a byte with a range; the gaps between columns are no part of the slice. -/
def sliceTouches (s : Slice) (r : Option (Nat × Nat)) : Bool :=
  match r with
  | none => true
  | some (base, pages) => (List.range s.cols.length).any (fun j =>
      let a := s.addr + s.stride * j
      a < base + 4096 * pages && base < a + packedMin s.fmt s.k)

/-- Panel slots of one wing marked stale, and how many (R401). -/
def staleSlots (e : WingEngine) (r : Option (Nat × Nat)) : WingEngine × Nat :=
  ({ e with slots := e.slots.map (fun s => if sliceTouches s r then { s with stale := true } else s) },
    (e.slots.filter (fun s => !s.stale && sliceTouches s r)).length)

/-- Panel slots of both wings marked stale and counted. -/
def staleBoth (b : Block) (r : Option (Nat × Nat)) : Block :=
  let n := staleSlots b.north r
  let s := staleSlots b.south r
  ({ b with north := n.1, south := s.1 } : Block).count 0x2506 5 (n.2 + s.2)

/-- The write-backs of a range belong to a flow, which completes after them (R401, R406); it waits for the flows to
which others belong. -/
def ownBacks (b : Block) (id : Nat) (r : Option (Nat × Nat)) : Block :=
  let hit := fun (q : AgentReq) => match q.op with
    | .writeBack a _ _ => (match r with | none => true | some (base, pages) => base ≤ a && a < base + 4096 * pages)
    | _ => false
  let others := (b.agents.queue.filter hit).filterMap (·.flow)
  ({ b with agents := { b.agents with
    queue := b.agents.queue.map (fun q => if hit q && q.flow.isNone then { q with flow := some id } else q) } } :
      Block).modFlow id (fun f => { f with snapshot := f.snapshot ++ others.filter (· != id) })

/-- Pages and whole-cache operations counted (R413). -/
def countRange (b : Block) (r : Option (Nat × Nat)) : Block :=
  (b.count 0x2506 2 (pagesOf r)).count 0x2506 4 (b2n r.isNone)

/-- An acquire over one range, or over the whole row cache (R401). -/
def acquireRange (m : Memory) (b : Block) (id : Nat) (r : Option (Nat × Nat)) : Block :=
  (((b.invalidate m r).staleBoth r).countRange r).ownBacks id r

/-- The blackboard lines of one remote row fetched again from its holder for a flow, or dropped where no request for it
can be sent (R334, R401, R431). A RELEASE command sends none before its effects may go (R399). -/
def refetchRow (m : Memory) (b : Block) (id : Nat) (row : Nat × Nat) : Block :=
  let t := b.tableBeat m id row.1 false
  match t.1 with
  | none => t.2.2.refreshRemote row.1 row.2 none
  | some d =>
    if t.2.1 || tableBad d then t.2.2.refreshRemote row.1 row.2 none
    else
      let p := t.2.2.resolve m id d row.2 false
      match p.1 with
      | .remote peer =>
        if p.2.rollRefuses peer then p.2.refreshRemote row.1 row.2 none
        else if p.2.holdsBack id then { p.2 with blocked := true }
        else
          let r := p.2.askRow id peer row.1 row.2 1 d
          if r.1.isNone then r.2.refreshRemote row.1 row.2 none else r.2
      | _ => p.2.refreshRemote row.1 row.2 none

/-- The remote rows of the blackboard. -/
def remoteRows (b : Block) : List (Nat × Nat) := ((b.cache.lines.filter (·.bb)).filterMap (·.source)).dedup

/-- An acquire by any command over its ranges: counted once (R413). One over the whole row cache fetches the remote rows
of the blackboard again (R334). -/
def acquire (m : Memory) (b : Block) (id : Nat) (rs : List (Option (Nat × Nat))) : Block :=
  let b1 := rs.foldl (fun b r => b.acquireRange m id r) b
  let b2 := if rs.contains none then (b1.remoteRows.foldl (fun b r => refetchRow m b id r) b1).countBoard else b1
  b2.count 0x2506 1 1

/-- The end of a BELL, SIGNAL, FENCE, FLUSH or NOP: with ACQUIRE, an acquire over the whole row cache first (R402). -/
def endSync (m : Memory) (b : Block) (f : Flow) : Block :=
  (if f.acquires then b.acquire m f.id [none] else b).close f.id

/-- Work of a NOP (R142, R402). -/
def nopWork (m : Memory) (b : Block) (f : Flow) : Block := b.endSync m f

/-- Work of an ACQUIRE (R403). -/
def acquireWork (m : Memory) (b : Block) (f : Flow) : Block :=
  let rs := if f.aqAll then [none] else (((List.range 3).map f.aqRange).filter (fun r => r.2 != 0)).map some
  (b.acquire m f.id rs).close f.id

/-- Work of a FLUSH (R406). -/
def flushWork (m : Memory) (b : Block) (f : Flow) : Block :=
  let r := if f.flAll then none else some (f.flBase, f.flPages)
  let b1 := if f.flInvalidate then b.acquire m f.id [r] else ((b.clean r).countRange r).ownBacks f.id r
  b1.endSync m f

/-! ### FENCE (R408) -/

/-- The flow lies in the scope of a FENCE. -/
def inScope (f g : Flow) : Bool :=
  match f.fnScope with
  | 0 => g.ring == f.ring
  | 1 => g.su == f.su
  | 2 => wingOf g.su == wingOf f.su
  | _ => true

/-- The snapshot a FENCE takes at its dispatch: the flows in flight in its scope; with STREAMS, the generations of its
slots as well. A pending generation stands in it by the ARM that queued it, which completes with it (R355). -/
def fenceSnapshot (b : Block) (f : Flow) : List Nat :=
  (b.flows.filter (fun g => g.id != f.id && inScope f g && (g.stream.isNone || f.fnStreams))).map (·.id)

/-- The flows of a snapshot that are still in flight. -/
def snapshotOpen (b : Block) (f : Flow) : Bool := f.snapshot.any (fun i => (b.flow? i).isSome)

/-- Work of a FENCE: it completes when every flow of its snapshot has. -/
def fenceWork (m : Memory) (b : Block) (f : Flow) : Block := if b.snapshotOpen f then b else b.endSync m f

/-! ### Bells (R386) -/

/-- The bell of a flow has rung: a generation completes; a BELL completes, after its acquire if it has one. -/
def rung (b : Block) (id : Nat) : Block :=
  match b.flow? id with
  | none => b
  | some f =>
    match f.stream with
    | some n => b.closeGen n
    | none => if f.acquires then b.modFlow id (fun g => { g with formed := 1 }) else b.close id

/-- A round rings when its arrivals reach PARTIES. -/
def ring (b : Block) (x : Bell) : Block :=
  if x.arrivals.length < x.parties then b
  else
    let b1 : Block := { b with streams := { b.streams with bells := b.streams.bells.filter (fun y => y.number != x.number) } }
    (x.arrivals.foldl rung b1).count 0x2603 4 1

/-- A flow arrives at a bell. -/
def arriveBell (b : Block) (id no parties : Nat) : Block :=
  let b0 := b.modFlow id (fun f => { f with arrived := true, since := b.time })
  match b0.bell? no with
  | none =>
    let x : Bell := { number := no, parties := parties, arrivals := [id] }
    ({ b0 with streams := { b0.streams with bells := b0.streams.bells ++ [x] } } : Block).ring x
  | some x =>
    let y := { x with arrivals := x.arrivals ++ [id] }
    (({ b0 with streams := { b0.streams with
        bells := updFirst (fun z => z.number == no) (fun _ => y) b0.streams.bells } } : Block).count 0x2603 5
          (b2n (parties != x.parties))).ring y

/-- Work of a BELL: it arrives; once rung, it acquires and completes. -/
def bellWork (m : Memory) (b : Block) (f : Flow) : Block :=
  if f.formed == 1 then b.endSync m f
  else if f.arrived then b
  else b.arriveBell f.id f.blNo f.blParties

/-! ### Signal words (R387 to R390) -/

/-- Value of a signal word. -/
def signalWord (b : Block) (n : Nat) : Nat := b.od' (0x2610 + n / 256) (n % 256)

/-- The comparison of a WAIT. -/
def waitHolds (b : Block) (f : Flow) : Bool :=
  let w := b.signalWord f.sgNo
  match f.sgOp with
  | 0 => f.sgValue ≤ w
  | 1 => w == f.sgValue
  | _ => w != f.sgValue

/-- A WAIT whose comparison has held: it completes, after its acquire if it has one. -/
def satisfied (b : Block) (f : Flow) : Block :=
  if f.acquires then b.modFlow f.id (fun g => { g with formed := 1 }) else b.close f.id

/-- A WAIT that has begun and waits for a word. -/
def waitsFor (f : Flow) (n : Nat) : Bool :=
  f.stream.isNone && f.opcode == opWait && f.stage == .running && f.formed == 0 && f.sgNo == n

/-- A signal word changes: every WAIT on it compares (R390). -/
def setSignal (b : Block) (n v : Nat) : Block :=
  let b1 := b.setOd (0x2610 + n / 256) (n % 256) (v % 2 ^ 64)
  (b1.flows.filter (fun f => waitsFor f n && b1.waitHolds f)).foldl satisfied b1

/-- The value OP gives a word (R388). -/
def signalValue (op old v : Nat) : Nat :=
  match op with
  | 0 => add64 old v
  | 1 => v
  | _ => max old v

/-- Work of a SIGNAL: one atomic step; with RELEASE it waits for the earlier commands of its queue (R388, R399). -/
def signalWork (m : Memory) (b : Block) (f : Flow) : Block :=
  if b.effectsHeld f then b
  else (b.setSignal f.sgNo (signalValue f.sgOp (b.signalWord f.sgNo) f.sgValue)).endSync m f

/-- Work of a WAIT. -/
def waitWork (m : Memory) (b : Block) (f : Flow) : Block :=
  if f.formed == 1 then (b.acquire m f.id [some (f.wtBase, f.wtPages)]).close f.id
  else if b.waitHolds f then
    if f.acquires then (b.acquire m f.id [some (f.wtBase, f.wtPages)]).close f.id else b.close f.id
  else b

/-! ### Timeouts (R386, R390, R408) -/

/-- A timer of a flow runs out: the timebase reaches its end (log 2), and the flow ends with SYNC_TIMEOUT. -/
def timeOut (b : Block) (f : Flow) (began : Nat) : Block :=
  ({ b with time := max b.time (began + 1000 * f.timeoutUs) } : Block).endFlow f.id stSyncTimeout

end Block

/-- The flow of a timeout: a command of the opcode with a timeout, begun or, for a FENCE, dispatched, that still
waits. -/
def timedFlow (b : Block) (id op : Nat) : Option Flow :=
  (b.flow? id).filter (fun f => f.stream.isNone && f.opcode == op && f.timeoutUs != 0 && f.stage != .closing &&
    f.formed == 0)

/-- BELL (R386). -/
def execBell (flow : Nat) (s : State) : Out := flowStep s flow (isOp opBell) Block.bellWork
/-- SIGNAL (R388). -/
def execSignal (flow : Nat) (s : State) : Out := flowStep s flow (isOp opSignal) Block.signalWork
/-- WAIT (R390). -/
def execWait (flow : Nat) (s : State) : Out := flowStep s flow (isOp opWait) Block.waitWork
/-- FENCE (R408). -/
def execFence (flow : Nat) (s : State) : Out := flowStep s flow (isOp opFence) Block.fenceWork
/-- FLUSH (R406). -/
def execFlush (flow : Nat) (s : State) : Out := flowStep s flow (isOp opFlush) Block.flushWork
/-- ACQUIRE (R403). -/
def execAcquire (flow : Nat) (s : State) : Out := flowStep s flow (isOp opAcquire) Block.acquireWork
/-- NOP (R142). -/
def execNop (flow : Nat) (s : State) : Out := flowStep s flow (isOp opNop) Block.nopWork

/-- BELL_TIMEOUT: a BELL whose round has not rung is withdrawn (R386). -/
def execBellTimeout (flow : Nat) (s : State) : Out :=
  match (timedFlow s.blk flow opBell).filter (·.arrived) with
  | none => .next s
  | some f => finish s (s.blk.timeOut f f.since)

/-- WAIT_TIMEOUT (R390). A comparison that holds by then completes the WAIT instead. -/
def execWaitTimeout (flow : Nat) (s : State) : Out :=
  match (timedFlow s.blk flow opWait).filter (·.running) with
  | none => .next s
  | some f => finish s (s.blk.timeOut f f.since)

/-- FENCE_TIMEOUT: the FENCE gives up, and counts (R408, R413). -/
def execFenceTimeout (flow : Nat) (s : State) : Out :=
  match timedFlow s.blk flow opFence with
  | none => .next s
  | some f =>
    if s.blk.snapshotOpen f then finish s ((s.blk.timeOut f f.start).count 0x2506 6 1) else .next s

end Sys2Proof.Machine
end

