-- ==== Sys2Proof/Machine/Tables.lean ====
section
/-! DEFINITION. BLACKBOARD_LOAD (02_tables_rows_desks.md R56 to R62, R544; 14_seryo_fabric.md R431 for remote rows). -/

namespace Sys2Proof.Machine

namespace Flow
def bbOpen (f : Flow) : Bool := f.flag 80
def bbClose (f : Flow) : Bool := f.flag 81
def bbCount (f : Flow) : Nat := f.fld 127 96
def bbList (f : Flow) : Nat := f.fld 179 128
end Flow

namespace Block

/-- Checks of BLACKBOARD_LOAD at its dispatch (R30). -/
def checkBoard (m : Memory) (b : Block) (f : Flow) : Block := (b.checkTable m f (f.fld 79 64)).2

/-- A load of an earlier dispatch, of any queue, is under way (R58). -/
def loadAhead (b : Block) (f : Flow) : Bool :=
  b.flows.any (fun g => g.id < f.id && g.stream.isNone && g.opcode == opBlackboard && g.stage != .closing)

/-- A load is under way, the reading of its list included: a commit of OD 0x2301.01 waits for it (R56). -/
def loadUnderWay (b : Block) : Bool :=
  b.flows.any (fun g => g.stream.isNone && g.opcode == opBlackboard && (g.stage == .running || g.held))

/-! ### Epochs (R59) -/

/-- OPEN: lines of an open loading epoch are released, and an empty loading epoch opens. DESIGN CHOICE (log 52): a line that
the current epoch holds too stays, for the current epoch. -/
def openEpoch (b : Block) : Block :=
  let b1 := (b.cache.lines.filter (fun l => l.bb && l.loading && !l.current)).foldl release b
  let b2 := b1.setLines (b1.cache.lines.map (fun l => { l with loading := false }))
  ({ b2 with cache := { b2.cache with loading := true } } : Block).countBoard

/-- CLOSE: the loading epoch becomes current, and lines it does not hold are released. -/
def closeEpoch (b : Block) : Block :=
  if !b.cache.loading then b
  else
    let b1 := (b.cache.lines.filter (fun l => l.bb && !l.loading)).foldl release b
    let b2 := b1.setLines (b1.cache.lines.map (fun l => if l.bb then { l with loading := false, current := true } else l))
    (({ b2 with cache := { b2.cache with loading := false } } : Block).countBoard).count32 0x2301 2 1

/-! ### Lines of a row (R58, R61) -/

/-- A row of `n` lines from a key can be held: each line is there already or has a place (R61). -/
def boardRoom (b : Block) (key n : Nat) : Bool :=
  (List.range n).all (fun k =>
    let a := key + 256 * k
    ((b.line? a).map (·.bb)).getD false || (b.boardPlace a b.cache.loading).isSome)

/-- A cached copy of a line that is about to be fetched: sent back when dirty; an ordinary copy gives up its way. -/
def clearCopy (b : Block) (a : Nat) : Block :=
  match b.line? a with
  | none => b
  | some l =>
    let b1 := if l.dirty then b.sendBack l else b
    if l.bb then b1 else b1.dropLine l

/-- One line put into the blackboard, in the epoch that loads (R58 to R61). -/
def putBoardLine (b : Block) (a : Nat) (data : Bytes) (source : Option (Nat × Nat)) : Block :=
  let load := b.cache.loading
  match (b.line? a).filter (·.bb) with
  | some l => b.putLine
      { l with data := data, err := 0, dirty := false, loading := l.loading || load, current := l.current || !load }
  | none =>
    let b0 := b.clearCopy a
    match b0.boardPlace a load with
    | none => b
    | some (way, old) =>
      let b1 := match old with | none => b0 | some l => b0.release l
      let n := b1.newest
      let x := n.2.lineErr { newLine (b1.half a) (setOf a) way a data n.1 with bb := true, loading := load, current := !load,
                                                                               source := source }
      x.2.setLines (x.1 :: x.2.cache.lines)

/-- The bytes of a row's lines put into the blackboard. -/
def boardLines (b : Block) (key : Nat) (data : Bytes) (source : Option (Nat × Nat)) : Block :=
  (List.range (ceilDiv data.length 256)).foldl (fun b k =>
    b.putBoardLine (key + 256 * k) (slice data (256 * k) 256) source) b

/-- One row skipped (R62). -/
def skipRow (b : Block) (id : Nat) : Block := b.modFlow id (fun f => { f with taken := f.taken + 1 })

/-- A row of a local shard fetched from memory and put into the blackboard (R58, R62). -/
def loadLocal (m : Memory) (b : Block) (f : Flow) (addr : Nat) : Block :=
  let s := tdShape f.gTable
  let base := lineAddr addr
  let len := 256 * (linesOf addr s.stride).length
  if b.absentRange base len then (b.count 0x2504 0x0C 1).skipRow f.id
  else
    let b1 := (linesOf addr s.stride).foldl clearCopy b
    let r := tierRead m b1 base len
    if r.2.1 || s.poisoned (slice r.1 (addr - base) s.stride) then (r.2.2.skipRow f.id).countBoard
    else if r.2.2.boardRoom base (len / 256) then (r.2.2.boardLines base r.1 none).countBoard
    else r.2.2.skipRow f.id

/-- A row of a remote shard asked of its holder, or skipped where it may not be (R58, R62, R141, R168). A RELEASE command
sends no request before the earlier commands of its queue complete (R399). -/
def loadRemote (b : Block) (f : Flow) (row peer : Nat) : Block :=
  if !f.mayRemote || b.rollRefuses peer then b.skipRow f.id
  else if b.effectsHeld f then { b with blocked := true }
  else
    let r := b.askRow f.id peer (f.fld 79 64) row 1 f.gTable
    match r.1 with
    | none => r.2.skipRow f.id
    | some txn => r.2.addRow f.id { noRow 0 row with asked := some (peer, txn), poison := false }

/-- One listed row (R41, R58, R62). -/
def loadRow (m : Memory) (f : Flow) (b : Block) (row : Nat × Bool) : Block :=
  let d := f.gTable
  if row.2 then (b.modFlow f.id (fun g => { g with poisonSeen := true })).skipRow f.id
  else if !tdBoard d then b.skipRow f.id
  else
    let p := b.resolve m f.id d row.1 f.acquires
    match p.1 with
    | .beyond => p.2.skipRow f.id
    | .bad => p.2.skipRow f.id
    | .remote peer => p.2.loadRemote f row.1 peer
    | .local a => p.2.loadLocal m f a

/-- The list of a load: row indices with the poison of their words (R57). A COUNT out of range lists nothing
(log 19). -/
def boardList (m : Memory) (b : Block) (f : Flow) : List (Nat × Bool) × Block :=
  if f.bbCount == 0 || 16777216 < f.bbCount then ([], b)
  else
    let r := readInput m b f.id f.bbList (8 * f.bbCount) false
    ((List.range f.bbCount).map (fun i =>
      let p := r.1.part (f.bbList + 8 * i) 8
      (bits (leNat p.1) 39 0, p.2)), r.2)

/-- A remote row that has been answered: into the blackboard, or skipped (R58, R62, R432). -/
def takeRemote (f : Flow) (b : Block) (c : RowCopy) : Block :=
  let s := tdShape f.gTable
  let t := f.fld 79 64
  match copyNow f c with
  | none => b
  | some r =>
    let key := remoteKey t c.row
    if copyBad s r || !b.boardRoom key (ceilDiv s.stride 256) then b.skipRow f.id
    else (b.boardLines key r.data (some (t, c.row))).countBoard

/-- The load completes: its count of skipped rows, and CLOSE (R59, R62). -/
def endLoad (b : Block) (f : Flow) : Block :=
  let b1 := b.setOd 0x2301 4 (((b.flow? f.id).map (·.taken)).getD 0)
  (if f.bbClose then b1.closeEpoch else b1).close f.id

/-- The work of a load: first its rows are fetched or asked for; then, once every peer has answered, the remote rows
are taken in (R58). Loads run one at a time. -/
def boardWork (m : Memory) (b : Block) (f : Flow) : Block :=
  if f.stage != .running || b.loadAhead f then b
  else
    let b1 :=
      if f.formed == 0 then
        let l := b.boardList m f
        let b0 := if f.bbOpen then l.2.openEpoch else l.2
        (l.1.foldl (loadRow m f) b0).modFlow f.id (fun g => { g with formed := 1 })
      else b
    match b1.flow? f.id with
    | none => b1
    | some g =>
      if g.rows.all (fun c => (copyNow g c).isSome) then ((g.rows.foldl (takeRemote g) b1).endLoad g) else b1

end Block

/-- BLACKBOARD_LOAD (R57 to R62). -/
def execBlackboardLoad (flow : Nat) (s : State) : Out := flowStep s flow (isOp opBlackboard) Block.boardWork

end Sys2Proof.Machine
end

