-- ==== Sys2Proof/Machine/Training.lean ====
section
/-! DEFINITION. SCATTER_ADD, ROW_UPDATE_OPT and ROW_COMMIT on their stream unit (10_training_updates.md R287 to R314):
their checks at dispatch, the window combiner, wire rows, the combine units of the row cache, remote adds, and the
commits sent to agents. -/

namespace Sys2Proof.Machine

/-! ### Body fields (R287, R300, R309) -/

namespace Flow
def isOpt (f : Flow) : Bool := f.opcode == opRowUpdate
def isCommit (f : Flow) : Bool := f.opcode == opRowCommit
def trTable (f : Flow) : Nat := f.fld 79 64
def trIdxFmt (f : Flow) : Nat := f.fld 83 83
def trInline (f : Flow) : Bool := f.flag 84
def trCache (f : Flow) : Bool := f.flag 85
def trGradFmt (f : Flow) : Nat := f.fld 89 86
def trCrc (f : Flow) : Bool := f.flag 90
def trWireFmt (f : Flow) : Nat := f.fld 95 92
def trCount (f : Flow) : Nat := if f.isOpt then f.fld 127 96 else f.fld 159 128
def trIdx (f : Flow) : Nat := if f.isOpt then f.fld 179 128 else f.fld 243 192
def trGrad (f : Flow) : Nat := if f.isOpt then f.fld 243 192 else f.fld 307 256
def trStride (f : Flow) : Nat := if f.isOpt then f.fld 279 256 else f.fld 343 320
/-- ALPHA or GRAD_SCALE. -/
def trAlpha (f : Flow) : Nat := if f.isOpt then f.fld 351 320 else f.fld 127 96
/-- The optimiser parameters of a ROW_UPDATE_OPT. -/
def trOpt (f : Flow) : OptParams :=
  { opt := f.fld 82 80, lr := f.fld 319 288, beta1 := f.fld 383 352, beta2 := f.fld 415 384, eps := f.fld 447 416,
    wd := f.fld 479 448, c2 := f.fld 511 480 }
def cmOptState (f : Flow) : Nat := f.fld 81 80
def cmMonotonic (f : Flow) : Bool := f.flag 82
def cmStamp (f : Flow) : Nat := f.fld 127 96
def cmSource (f : Flow) : Nat := f.fld 307 256
end Flow

/-- R288: the formats allowed for a table. -/
def gradFormatsOk (table grad wire : Nat) : Bool :=
  if isPlainInt table then isPlainInt grad && wire == 8
  else grad ≤ 4 && (wire == 1 || wire == 3 || wire == 4)

/-- R296. -/
def cachePlaceOk (d : Nat) : Bool := (tdFmt d == 0 || tdFmt d == 8) && !tdHeaded d && aligned (tdStride d) 256

/-- F32 bits that are a NaN or an infinity. -/
def notFinite (w : Nat) : Bool := !f32Finite w

/-- Index array missing or misaligned, or too few inline entries (R289). -/
def indexBad (f : Flow) (crc : Bool) : Bool :=
  f.trCount == 0 || (!f.trInline && (f.trIdx == 0 || arrayBad crc f.trIdx (idxBytes f.trIdxFmt))) ||
    (f.trInline && f.slots < idxSlots f.trIdxFmt f.trCount)

/-- R289. -/
def scatterBad (f : Flow) (d : Nat) : Bool :=
  !gradFormatsOk (tdFmt d) f.trGradFmt f.trWireFmt || indexBad f f.trCrc || f.trGrad == 0 ||
    arrayBad f.trCrc f.trGrad 64 || f.trStride % 2 == 1 || f.trStride < packedMin f.trGradFmt (tdDim d) ||
    (f.trCrc && !aligned f.trStride 4096) || (f.trCache && !cachePlaceOk d)

/-- R304 beyond R289. -/
def updateBad (f : Flow) (d : Nat) : Bool :=
  let p := f.trOpt
  optVectors p.opt != some (tdOptCount d) || isPlainInt (tdFmt d) ||
    [p.lr, f.trAlpha, p.beta1, p.beta2, p.eps, p.wd, p.c2].any notFinite

/-- Index array missing, or too few inline entries, or IN_CRC with an array that is not 4 KiB aligned (R314). -/
def commitIndexBad (f : Flow) : Bool :=
  f.trCount == 0 || (!f.trInline && (f.trIdx == 0 || (f.trCrc && !aligned f.trIdx 4096))) ||
    (f.trInline && f.slots < idxSlots f.trIdxFmt f.trCount)

/-- R314. -/
def commitBad (f : Flow) (d : Nat) : Bool :=
  f.cmOptState == 3 || (f.cmOptState != 0 && tdOptCount d == 0) || (f.cmMonotonic && !tdHeaded d) ||
    commitIndexBad f || f.cmSource == 0 || !aligned f.cmSource 4096

namespace Block

/-- Checks of SCATTER_ADD at its dispatch (R289). -/
def checkScatter (m : Memory) (b : Block) (f : Flow) : Block :=
  let r := b.checkTable m f f.trTable
  r.2.refuseIf f.id [(f.trGradFmt == 15 || f.trWireFmt == 15, stBadFormat),
    (scatterBad f r.1 || (!isPlainInt (tdFmt r.1) && notFinite f.trAlpha), stBadScatter)]

/-- Checks of ROW_UPDATE_OPT at its dispatch (R304). -/
def checkUpdate (m : Memory) (b : Block) (f : Flow) : Block :=
  let r := b.checkTable m f f.trTable
  r.2.refuseIf f.id [(f.trGradFmt == 15 || f.trWireFmt == 15, stBadFormat),
    (scatterBad f r.1 || updateBad f r.1, stBadUpdate)]

/-- Checks of ROW_COMMIT at its dispatch (R314). -/
def checkCommit (m : Memory) (b : Block) (f : Flow) : Block :=
  let r := b.checkTable m f f.trTable
  r.2.refuseIf f.id [(commitBad f r.1, stBadCommit)]

/-! ### The window combiner (R290, R291) -/

/-- The gradient row of position i: exact values and poison (R288, R306). -/
def gradRow (m : Memory) (b : Block) (f : Flow) (i : Nat) : (List Num × Bool) × Block :=
  let dim := tdDim f.gTable
  let s := packedShape f.trGradFmt dim 0
  let r := readInput m b f.id (f.trGrad + i * f.trStride) (packedMin f.trGradFmt dim) f.trCrc
  ((s.decodeExact r.1.data, r.1.bad.any (fun x => x)), r.2)

end Block

/-- The combined gradient of some gradient rows in list order, multiplied by ALPHA or GRAD_SCALE (R290, R291): each
element, and whether it saturated INT32. -/
def combineRows (int : Bool) (dim alpha : Nat) (rows : List (List Num)) : List (Num × Bool) :=
  (List.range dim).map (fun e =>
    let xs := rows.map (fun r => r.getD e Num.zero)
    if int then
      let s := accumulateInt 1 (xs.map toIntExact)
      let p := sat32 (s.1 * sext 32 alpha)
      (Num.ofInt p.1, s.2 || p.2)
    else (fmul (accumulate 1 xs) (ofF32 alpha), false))

/-- The wire rows of a combined gradient: one, or its segments where one would not fit a message (R291, R434). -/
def wireRows (fmt : Nat) (vals : List Num) (cut : Bool) : List Wire :=
  let parts := if cut then chunks 1024 vals else [vals]
  (parts.zip (List.range parts.length)).map (fun p =>
    { fmt := fmt, elem0 := 1024 * p.2, n := p.1.length,
      data := packRow fmt p.1.length (encodeRow { fmt := fmt, conv := 0, sideFmt := 0, cap := 0 } p.1) })

namespace Block

/-! ### Where an add goes (R297, R305) -/

/-- The lines of a row changed in the row cache and dirty (R297). -/
def putRowLines (b : Block) (a : Nat) (row : Bytes) : Block :=
  (linesOf a row.length).foldl (fun b la =>
    match b.line? la with
    | none => b
    | some l =>
      let x := b.lineErr l
      x.2.putLine { x.1 with data := slice row (la - a) 256, dirty := true }) b

/-- Every line of a row is in the row cache. -/
def rowHeld (b : Block) (a len : Nat) : Bool := (linesOf a len).all (fun la => (b.line? la).isSome)

/-- The combine units perform an add or a step on the lines of a row (R297, R304). Where no way can take a line, the
row's agent performs it (log 26). -/
def combine (m : Memory) (b : Block) (f : Flow) (a : Nat) (w : Wire) (other : AgentOp) : Block :=
  let s := tdShape f.gTable
  let r := b.rowLines m a s.stride 1 (some f.id) f.acquires
  if r.2.1 || s.poisoned r.1 then r.2.2.unperformed (some f.id) 1
  else if r.2.2.rowHeld a s.stride then
    let n := if f.isOpt then steppedRow s r.1 f.trOpt w else addedRow s r.1 w
    ((r.2.2.putRowLines a n.1).tallyRow (some f.id) n.2.1 n.2.2).count 0x2303 (if f.isOpt then 3 else 1) 1
  else r.2.2.sendRowOp (some f.id) other a none

/-- The body of an RADD (R433). -/
def raddBody (f : Flow) (row : Nat) (w : Wire) : Bytes :=
  let p := f.trOpt
  let upd := if f.isOpt then pack [(56, 1), (57, p.opt), (128, p.lr), (160, p.beta1), (192, p.beta2), (224, p.eps),
    (256, p.wd), (288, p.c2)] else 0
  natLE 48 (upd + pack [(0, f.trTable), (16, row), (60, w.fmt), (64, tdVersion f.gTable), (320, w.data.length),
    (336, w.elem0)]) ++ w.data

/-- A wire row or segment sent to the holder (R305, R434, R435). A RELEASE command sends none before the earlier commands
of its queue complete (R399). -/
def sendRadd (b : Block) (f : Flow) (peer row : Nat) (w : Wire) : Block :=
  if b.effectsHeld f then { b with blocked := true }
  else
  let r := b.sendMsg peer mtRadd (f.trTable * 2 ^ 40 + row) (raddBody f row w)
  match r.1 with
  | none => r.2.unperformed (some f.id) 1
  | some txn =>
    r.2.modFlow f.id (fun g => { g with remote := g.remote ++
      [{ kind := mtRadd, peer := peer, table := f.trTable, row := row, txn := txn, answered := false, status := 0,
         data := [] }] })

/-- An add or step for a row of a remote shard (R305). -/
def remoteAdd (b : Block) (f : Flow) (peer row : Nat) (vals : List Num) : Block :=
  let ws := wireRows f.trWireFmt vals (4560 < packedMin f.trWireFmt vals.length)
  if !f.mayRemote then (b.note f.id stRemoteDenied).missed (some f.id) ws.length
  else if b.rollRefuses peer then (b.note f.id stEpochMismatch).missed (some f.id) ws.length
  else ws.foldl (fun b w => b.sendRadd f peer row w) b

/-- An add or step for a row of a local shard: in the row cache under CACHE, else at its agent (R292, R297). A RELEASE
command changes no line before the earlier commands of its queue complete (R399). -/
def localAdd (m : Memory) (b : Block) (f : Flow) (a : Nat) (vals : List Num) : Block :=
  let d := f.gTable
  let w : Wire := { fmt := f.trWireFmt, elem0 := 0, n := vals.length,
                    data := packRow f.trWireFmt vals.length
                      (encodeRow { fmt := f.trWireFmt, conv := 0, sideFmt := 0, cap := 0 } vals) }
  let t : RowTarget := { addr := a, stride := tdStride d, desc := d }
  let op := if f.isOpt then AgentOp.update t f.trOpt w else .add t w
  if b.absentRange a (tdStride d) then (b.count 0x2504 0x0C 1).unperformed (some f.id) 1
  else if f.trCache then (if b.effectsHeld f then { b with blocked := true } else b.combine m f a w op)
  else b.sendRowOp (some f.id) op a none

/-- One distinct row of a window with its combined gradient (R43, R290, R305, R306). -/
def sendAdd (m : Memory) (b : Block) (f : Flow) (row : Nat) (vals : List Num) : Block :=
  let p := b.resolve m f.id f.gTable row f.acquires
  match p.1 with
  | .beyond => (p.2.note f.id stRowRange).missed (some f.id) 1
  | .bad => (p.2.note f.id stBadShard).missed (some f.id) 1
  | .remote peer => p.2.remoteAdd f peer row vals
  | .local a => p.2.localAdd m f a vals

/-- The positions of one row of a window combined and sent (R290, R291, R306). -/
def combineRow (m : Memory) (b : Block) (f : Flow) (row : Nat) (ps : List Nat) : Block :=
  let r := ps.foldl (fun (acc : List (List Num × Bool) × Block) i =>
    let g := acc.2.gradRow m f i
    (acc.1 ++ [g.1], g.2)) ([], b)
  let b1 := r.2.count 0x2303 2 (ps.length - 1)
  if r.1.any (·.2) then
    (if tdRows f.gTable ≤ row then b1.note f.id stRowRange else b1).unperformed (some f.id) 1
  else
    let d := f.gTable
    let int := isPlainInt (tdFmt d)
    let xs := combineRows int (tdDim d) f.trAlpha (r.1.map (·.1))
    let vals := xs.map (·.1)
    let e := encodeRow { fmt := f.trWireFmt, conv := 0, sideFmt := 0, cap := 0 } vals
    (b1.tallyRow (some f.id) e (xs.filter (·.2)).length).sendAdd m f row vals

/-- The next window of positions read (R158, R163, R290); a position of a poisoned index is dropped alone (R306). -/
def scatterRead (m : Memory) (b : Block) (f : Flow) : Block :=
  let w0 := f.positions.length
  let r := readIndices m b f f.trIdxFmt f.trIdx f.trInline f.trCrc w0 (min Config.window (f.trCount - w0))
  (r.2.unperformed (some f.id) (r.1.filter (·.badIndex)).length).modFlow f.id (fun g =>
    { g with positions := g.positions ++ r.1 })

end Block

/-- The positions of window w by row, rows in the order of their first position (R290, R294). -/
def Flow.windowRows (f : Flow) (w : Nat) : List (Nat × List Nat) :=
  let good := (span (Config.window * w) (min f.positions.length (Config.window * w + Config.window))).filterMap (fun i =>
    (f.positions[i]?).bind (fun p => if p.badIndex then none else p.row.map (fun x => (x, i))))
  ((good.map (·.1)).eraseDups).map (fun row => (row, (good.filter (fun x => x.1 == row)).map (·.2)))

namespace Block

/-- The next piece of a SCATTER_ADD's or ROW_UPDATE_OPT's work: a window read, one distinct row of it combined and sent, or
the next window turned to (`formed` counts windows, `taken` the rows of the present one); none when all are done. -/
def scatterNext (m : Memory) (b : Block) (f : Flow) : Option Block :=
  if ceilDiv f.trCount Config.window ≤ f.formed then none
  else if f.positions.length ≤ Config.window * f.formed then some (b.scatterRead m f)
  else match (f.windowRows f.formed)[f.taken]? with
    | some r => some ((b.combineRow m f r.1 r.2).modFlow f.id (fun g => { g with taken := g.taken + 1 }))
    | none => some (b.modFlow f.id (fun g => { g with formed := g.formed + 1, taken := 0 }))

/-- Pieces of a flow's work until one of them waits, which is then left to a later step, or until none is left, when the
flow closes; `fuel` bounds them. A read may wait for a row operation that this flow itself sent (R294, R303, R326). -/
def pieces (next : Memory → Block → Flow → Option Block) (m : Memory) (id : Nat) : Nat → Bool → Block → Block
  | 0, _, b => b
  | fuel + 1, gone, b =>
    match b.flow? id with
    | none => b
    | some f =>
      if f.cut then b
      else match next m b f with
        | none => b.close id
        | some c => if c.blocked then (if gone then b else c) else pieces next m id fuel true c

/-- The work of a SCATTER_ADD or ROW_UPDATE_OPT: every window, in order. -/
def scatterWork (m : Memory) (b : Block) (f : Flow) : Block :=
  if f.stage != .running then b
  else pieces scatterNext m f.id (f.trCount + 2 * ceilDiv f.trCount Config.window + 1) false b

/-! ### ROW_COMMIT (R309 to R313) -/

/-- The source rows of positions i0 to i0 + n - 1, all of one page: bytes and poison (R310). -/
def sourceRows (m : Memory) (b : Block) (f : Flow) (i0 n : Nat) : List (Bytes × Bool) × Block :=
  let k := tdStride f.gTable
  let a := placeRow f.cmSource k i0
  let r := readInput m b f.id a (n * k) f.trCrc
  ((List.range n).map (fun i => r.1.part (a + i * k) k), r.2)

/-- One position of a ROW_COMMIT (R310, R312, R313). -/
def sendCommit (m : Memory) (b : Block) (f : Flow) (p : Position) (src : Bytes × Bool) : Block :=
  if p.badIndex then b.unperformed (some f.id) 1
  else
    match p.row with
    | none => b
    | some row =>
      let d := f.gTable
      let q := b.resolve m f.id d row f.acquires
      match q.1 with
      | .beyond => (q.2.note f.id stRowRange).missed (some f.id) 1
      | .bad => (q.2.note f.id stBadShard).missed (some f.id) 1
      | .remote _ => (q.2.note f.id stCommitSkipped).count 0x2303 5 1
      | .local a =>
        if q.2.absentRange a (tdStride d) then (q.2.count 0x2504 0x0C 1).unperformed (some f.id) 1
        else q.2.sendRowOp (some f.id) (.commit { addr := a, stride := tdStride d, desc := d } f.entry src.1 src.2) a none

/-- The positions whose source rows share one page (R37, R310). -/
def commitPage (m : Memory) (b : Block) (f : Flow) (i0 : Nat) (ps : List Position) : Block :=
  let s := b.sourceRows m f i0 ps.length
  (ps.zip s.1).foldl (fun b x => b.sendCommit m f x.1 x.2) s.2

/-- The next piece of a ROW_COMMIT's work: its positions read, or the source rows of one page sent; none when all are
done. -/
def commitNext (m : Memory) (b : Block) (f : Flow) : Option Block :=
  let rpp := max 1 (tdShape f.gTable).rpp
  if f.positions.isEmpty then
    let r := readIndices m b f f.trIdxFmt f.trIdx f.trInline f.trCrc 0 f.trCount
    some (r.2.modFlow f.id (fun g => { g with positions := r.1 }))
  else if f.trCount ≤ rpp * f.formed then none
  else
    let ps := (f.positions.drop (rpp * f.formed)).take rpp
    some ((b.commitPage m f (rpp * f.formed) ps).modFlow f.id (fun g => { g with formed := g.formed + 1 }))

/-- The work of a ROW_COMMIT: every position, in order. -/
def commitWork (m : Memory) (b : Block) (f : Flow) : Block :=
  if f.stage != .running then b else pieces commitNext m f.id (f.trCount + 2) false b

end Block

/-- SCATTER_ADD: the stream unit combines windows and sends the adds (R287 to R299, R305, R306). -/
def execScatterAdd (flow : Nat) (s : State) : Out := flowStep s flow (isOp opScatterAdd) Block.scatterWork

/-- ROW_UPDATE_OPT: the stream unit combines windows and sends the optimiser steps (R300 to R306). -/
def execRowUpdateOpt (flow : Nat) (s : State) : Out := flowStep s flow (isOp opRowUpdate) Block.scatterWork

/-- ROW_COMMIT: the stream unit sends the commits (R309 to R314). -/
def execRowCommit (flow : Nat) (s : State) : Out := flowStep s flow (isOp opRowCommit) Block.commitWork

end Sys2Proof.Machine
end

