-- ==== Sys2Proof/Machine/Queues.lean ====
section
/-! DEFINITION. The queue front end (05_queues_commands.md, 16_startup_reset_reattach.md R485 to R496, 17_faults.md R512):
ring descriptors and queue control, doorbells, dispatch with the header check, completion records, the orphan log and
re-attach. The rows that reach the front end by the dictionary stand in Dictionary.lean. -/

namespace Sys2Proof.Machine

/-! ### Descriptor fields (R120, R123) -/

namespace SubRing
def bandCap (r : SubRing) : Nat := bits r.desc 26 24
def runahead (r : SubRing) : Nat := bits r.desc 38 32
def deadlineNs (r : SubRing) : Nat := bits r.desc 159 128
/-- Stream unit 0 to 31 that WING and SU name. -/
def homeSu (r : SubRing) : Nat := 16 * bits r.desc 16 16 + bits r.desc 20 17
/-- Ready entries: HEAD to TAIL modulo the ring size (R135). -/
def readyEntries (r : SubRing) : Nat := (r.tail + r.size - r.head) % r.size
/-- Entries from HEAD to index i. -/
def ahead (r : SubRing) (i : Nat) : Nat := (i + r.size - r.head) % r.size
/-- Address of entry i (R117). -/
def entryAt (r : SubRing) (i : Nat) : Nat := r.base + 64 * (i % r.size)
end SubRing

namespace CompRing
def irqEn (c : CompRing) : Bool := bit c.desc 1
/-- COAL_COUNT, where 0 acts as 1. -/
def coalCount (c : CompRing) : Nat := max 1 (bits c.desc 23 16)
def coalUs (c : CompRing) : Nat := bits c.desc 31 24
def msiAddr (c : CompRing) : Nat := bits c.desc 179 128
def msiData (c : CompRing) : Nat := bits c.desc 223 192
/-- R150: the write index equals SW_HEAD minus 1. -/
def isFull (c : CompRing) : Bool := (c.wr + 1) % c.size == c.swHead % c.size
end CompRing

/-- Number of a ring state in a doorbell word (R133). -/
def sqStateCode : SqState → Nat
  | .disabled => 0
  | .active => 1
  | .paused => 2
  | .draining => 3
  | .orphaned => 4

namespace Block

/-- Submission rings that exist (R119). -/
def sqCount (b : Block) : Nat := if b.od' 0x2200 1 == 0 then 1 else b.od' 0x2200 2
/-- Completion rings that exist (R122). -/
def cqCount (b : Block) : Nat := if b.od' 0x2200 3 == 0 then 1 else b.od' 0x2200 4

/-- The built-in submission descriptor (R119, R120, R481). -/
def sqBuiltIn (b : Block) : Nat :=
  pack [(0, 1), (8, b.od' 0x2200 6), (16, b2n (!b.wingEnabled .north)), (24, 7), (32, 64), (64, b.od' 0x2200 5)]

/-- The built-in completion descriptor (R122, R123). -/
def cqBuiltIn (b : Block) : Nat := pack [(0, 1), (8, b.od' 0x2200 8), (16, 1), (64, b.od' 0x2200 7)]

/-- A ring descriptor as the engine reads it from memory or builds it in, with poison (R119, R122, R124). Descriptors of
rings enter no cache (R330). -/
def readDesc (m : Memory) (b : Block) (base builtIn n size : Nat) : Nat × Bool × Block :=
  if base == 0 then (builtIn, false, b)
  else
    let r := readOwn m b (base + size * n) size
    (leNat r.1, r.2.1, r.2.2)

/-- The descriptor of submission ring n. -/
def readSq (m : Memory) (b : Block) (n : Nat) : Nat × Bool × Block := readDesc m b (b.od' 0x2200 1) b.sqBuiltIn n 64
/-- The descriptor of completion ring n. -/
def readCq (m : Memory) (b : Block) (n : Nat) : Nat × Bool × Block := readDesc m b (b.od' 0x2200 3) b.cqBuiltIn n 32

/-- SW_HEAD of a completion ring as a read gives it (R122, R124, R150); none where the read gives none, or waits. -/
def readSwHead (m : Memory) (b : Block) (n : Nat) : Option Nat × Block :=
  if b.od' 0x2200 3 == 0 then (some (b.od' 0x2200 9), b)
  else
    let a := b.od' 0x2200 3 + 32 * n
    if isHost a && !b.hostUp then (none, b)
    else
      let r := readOwn m b a 32
      if r.2.2.blocked then (none, b) else (if r.2.1 then none else some (bits (leNat r.1) 47 32), r.2.2)

/-- Checks of a submission descriptor but for its completion ring (R128, R117, R120). -/
def sqDescOk (b : Block) (d : Nat) : Bool :=
  bit d 0 && 6 ≤ bits d 12 8 && bits d 12 8 ≤ 16 && 1 ≤ bits d 38 32 && bits d 38 32 ≤ 64 && aligned (bits d 115 64) 4096 &&
    bits d 63 48 < b.cqCount

/-- Checks of a completion descriptor (R127). -/
def cqDescOk (d : Nat) : Bool :=
  bit d 0 && 6 ≤ bits d 12 8 && bits d 12 8 ≤ 16 && aligned (bits d 115 64) 4096 && aligned (bits d 179 128) 4

/-- The host epoch that a submission ring binds to; none for a ring in a tier (R128, R486). -/
def sqBinding (b : Block) (d : Nat) : Option Nat := if isHost (bits d 115 64) then some (b.od' 0x2202 1) else none

/-- The host epoch that a completion ring binds to (R486). -/
def cqBinding (b : Block) (d : Nat) : Option Nat :=
  if isHost (bits d 115 64) || (bit d 1 && isHost (bits d 179 128)) then some (b.od' 0x2202 1) else none

/-! ### The orphan log and completion records (R148 to R151, R492, R493) -/

/-- An entry of the orphan log in place of a record; the write index follows once the entry is performed. -/
def logRecord (b : Block) (w : WaitingRecord) (head : Nat) : Block :=
  let n := 2 ^ b.od' 0x2202 4
  let wr := b.orphanNext % n
  if (wr + 1) % n == b.od' 0x2202 6 % n then b.count 0x2202 7 1
  else
    let bits := pack [(0, recordBits w false head), (128, w.cq), (160, w.epoch), (192, b.time)]
    ({ b with orphanNext := (wr + 1) % n } : Block).ownWrite (b.od' 0x2202 3 + 32 * wr) (natLE 32 bits) [.orphanIndex]

/-- HEAD of a ring, for SQ_HEAD. -/
def headOf (b : Block) (ring : Nat) : Nat := ((b.ring? ring).map (·.head)).getD 0

/-- The interrupt of a completion ring, behind every record that it signals (R151). -/
def signalCq (b : Block) (c : CompRing) : Block :=
  (b.putCq { c with since := 0, firstAt := none }).interrupt c.base (16 * c.size) c.msiAddr (natLE 4 c.msiData)

/-- A record written to its ring, and the interrupt when it is due (R148, R149, R151). -/
def writeRecord (b : Block) (c : CompRing) (w : WaitingRecord) : Block :=
  let b1 := b.ownWrite (c.base + 16 * c.wr) (natLE 16 (recordBits w c.phase (b.headOf w.sq))) []
  let wr := (c.wr + 1) % c.size
  let c1 := { c with wr := wr, phase := if wr == 0 then !c.phase else c.phase,
                     since := if c.irqEn then c.since + 1 else 0,
                     firstAt := if c.irqEn then some (c.firstAt.getD b.time) else none }
  if c1.irqEn && (c1.coalCount ≤ c1.since || w.status != stOk) then b1.signalCq c1 else b1.putCq c1

/-- SW_HEAD read again, now; a value at or above the ring size, or none, leaves the one held (R150). -/
def rereadSwHead (m : Memory) (b : Block) (n : Nat) : Block :=
  let r := b.readSwHead m n
  match b.cq? n with
  | none => r.2
  | some c =>
    let h := r.1.getD c.size
    r.2.putCq { c with swHead := if h < c.size then h else c.swHead, readAt := b.time }

/-- Waiting records of a ring written in order while it has room; `fuel` bounds them. -/
def drainCq : Nat → Block → Nat → Block
  | 0, b, _ => b
  | fuel + 1, b, n =>
    match b.cq? n, b.waiting.find? (fun w => w.cq == n) with
    | some c, some w =>
      if c.isFull then b
      else drainCq fuel (({ b with waiting := b.waiting.erase w } : Block).writeRecord c w) n
    | _, _ => b

/-- SW_HEAD reread for the records that wait, and what then fits written. -/
def rereadAndDrain (m : Memory) (b : Block) (n : Nat) : Block :=
  let b1 := b.rereadSwHead m n
  drainCq b1.waiting.length b1 n

/-- A record posted: to the orphan log, to its ring, or into the wait for room (R150, R492). -/
def postRecord (m : Memory) (b : Block) (w : WaitingRecord) : Block :=
  if w.logged then b.logRecord w (b.headOf w.sq)
  else match b.cq? w.cq with
    | none => b
    | some c =>
      if c.isFull || b.waiting.any (fun x => x.cq == w.cq) then
        (({ b with waiting := b.waiting ++ [w] } : Block).count 0x2201 7 1).rereadAndDrain m w.cq
      else b.writeRecord c w

/-- Waiting records that must go to the orphan log go there (R490 to R492). -/
def logWaiting (b : Block) : Block :=
  let gone := b.waiting.filter (·.logged)
  gone.foldl (fun b w => b.logRecord w (b.headOf w.sq)) { b with waiting := b.waiting.filter (fun w => !w.logged) }

/-- A DRAINING ring with nothing left in flight becomes DISABLED (R129). -/
def settleRing (b : Block) (n : Nat) : Block :=
  match b.ring? n with
  | none => b
  | some r =>
    if r.state == .draining && (b.inFlight n).isEmpty && b.waiting.all (fun w => w.sq != n) then b.dropRing n else b

/-- Every DRAINING ring that is empty becomes DISABLED. -/
def settleRings (b : Block) : Block := (b.rings.map (·.number)).foldl settleRing b

/-! ### Queue control (R125 to R131, R486): each answers the result code of R126 -/

/-- SQ_ENABLE. -/
def enableSq (m : Memory) (b : Block) (n : Nat) : Nat × Block :=
  if b.sqCount ≤ n then (1, b)
  else if (b.ring? n).isSome then (2, b)
  else
    let r := readSq m b n
    let d := r.1
    if r.2.1 || !b.sqDescOk d then (3, r.2.2)
    else if (b.cq? (bits d 63 48)).isNone then (4, r.2.2)
    else if b.sqBinding d == some 0 then (3, r.2.2)
    else
      let b1 : Block := { r.2.2 with retired := mapSet r.2.2.retired 0 n 0 }
      (0, b1.putRing { number := n, state := .active, desc := d, head := 0, tail := 0, phase := true, epoch := b.sqBinding d,
                       tries := 0, readAt := 0, bells := [] })

/-- SQ_DISABLE and SQ_ABORT up to the ring's state (R129). -/
def drainSq (b : Block) (n : Nat) : Nat × Block :=
  if b.sqCount ≤ n then (1, b)
  else match b.ring? n with
    | some r =>
      if r.state == .active || r.state == .paused then
        (0, b.putRing { r with state := .draining, tries := 0 })
      else (2, b)
    | none => (2, b)

/-- SQ_DISABLE: dispatched commands run to completion (R130). -/
def disableSq (b : Block) (n : Nat) : Nat × Block :=
  let r := b.drainSq n
  (r.1, r.2.settleRing n)

/-- Dispatched commands of a ring that their stream unit has not begun are ABORTED (R130). -/
def abortFlows (b : Block) (n : Nat) : Block :=
  ((b.inFlight n).filter (fun f => f.stage == .waiting)).foldl (fun b f => b.endFlow f.id stAborted) b

/-- SQ_ABORT. -/
def abortSq (b : Block) (n : Nat) : Nat × Block :=
  let r := b.drainSq n
  if r.1 == 0 then (0, (r.2.abortFlows n).settleRing n) else r

/-- SQ_RESUME: PAUSED to ACTIVE (R129). -/
def resumeSq (b : Block) (n : Nat) : Nat × Block :=
  if b.sqCount ≤ n then (1, b)
  else match b.ring? n with
    | some r => if r.state == .paused then (0, b.putRing { r with state := .active, tries := 0 }) else (2, b)
    | none => (2, b)

/-- A completion ring as CQ_ENABLE leaves it. -/
def newCq (n d swHead : Nat) (epoch : Option Nat) : CompRing :=
  { number := n, desc := d, wr := 0, phase := true, swHead := swHead, readAt := 0, since := 0, firstAt := none,
    epoch := epoch, stale := false }

/-- SW_HEAD as the descriptor that was read gives it. -/
def swHeadIn (b : Block) (d : Nat) : Nat := if b.od' 0x2200 3 == 0 then b.od' 0x2200 9 else bits d 47 32

/-- CQ_ENABLE. -/
def enableCq (m : Memory) (b : Block) (n : Nat) : Nat × Block :=
  if b.cqCount ≤ n then (1, b)
  else if (b.cq? n).isSome then (2, b)
  else
    let r := readCq m b n
    let d := r.1
    if r.2.1 || !cqDescOk d || b.cqBinding d == some 0 then (3, r.2.2)
    else (0, r.2.2.putCq (newCq n d (b.swHeadIn d) (b.cqBinding d)))

/-- CQ_DISABLE. -/
def disableCq (b : Block) (n : Nat) : Nat × Block :=
  if b.cqCount ≤ n then (1, b)
  else if (b.cq? n).isNone || b.rings.any (fun r => r.cqNo == n) then (2, b)
  else (0, { b with cqs := b.cqs.filter (fun c => c.number != n) })

/-- A queue control word carried out: its result in OD 0x2201.02 (R125, R126). -/
def queueControl (m : Memory) (b : Block) (word : Nat) : Block :=
  let n := bits word 17 0
  let c := bits word 15 0
  let r :=
    match bits word 23 20 with
    | 1 => enableSq m b n
    | 2 => b.disableSq n
    | 3 => b.resumeSq n
    | 4 => b.abortSq n
    | 5 => enableCq m b c
    | 6 => b.disableCq c
    | _ => (5, b)
  r.2.setOd 0x2201 2 r.1

/-! ### Re-attach (R495, R496): each answers the result code of OD 0x2202.09 -/

/-- A completion ring re-attached: RESUME keeps its write index and phase, RESET does not. -/
def reattachCq (m : Memory) (b : Block) (n : Nat) (reset : Bool) : Nat × Block :=
  if b.cqCount ≤ n then (1, b)
  else match b.cq? n with
    | none => (2, b)
    | some c =>
      if !c.stale then (2, b)
      else
        let r := readCq m b n
        let d := r.1
        if r.2.1 || !cqDescOk d || b.cqBinding d == some 0 then (3, r.2.2)
        else
          let c1 := newCq n d (b.swHeadIn d) (b.cqBinding d)
          (0, r.2.2.putCq (if reset then c1 else { c1 with wr := c.wr, phase := c.phase }))

/-- A submission ring re-attached. -/
def reattachSq (m : Memory) (b : Block) (n : Nat) (reset : Bool) : Nat × Block :=
  if b.sqCount ≤ n then (1, b)
  else match b.ring? n with
    | none => (2, b)
    | some r =>
      if r.state != .orphaned then (2, b)
      else if ((b.cq? r.cqNo).map (·.stale)).getD false then (4, b)
      else
        let x := readSq m b n
        let d := x.1
        let same := bits d 115 64 == r.base && bits d 12 8 == bits r.desc 12 8
        if x.2.1 || !b.sqDescOk d || (!reset && !same) || b.sqBinding d == some 0 then (3, x.2.2)
        else if ((b.cq? (bits d 63 48)).map (·.stale)).getD true then (4, x.2.2)
        else
          let r1 := { r with state := .active, desc := d, epoch := b.sqBinding d, tries := 0 }
          (0, x.2.2.putRing (if reset then { r1 with head := 0, tail := 0, phase := true, bells := [] } else r1))

/-- DROP: an ORPHANED ring drains (R496). -/
def dropOrphan (b : Block) (n : Nat) : Nat × Block :=
  if b.sqCount ≤ n then (1, b)
  else match b.ring? n with
    | some r =>
      if r.state == .orphaned then (0, (b.putRing { r with state := .draining, tries := 0 }).settleRing n) else (2, b)
    | none => (2, b)

/-- A re-attach word handled: its result in OD 0x2202.09 (R495, R496). -/
def reattach (m : Memory) (b : Block) (word : Nat) : Block :=
  let n := bits word 17 0
  let c := bits word 15 0
  let mode := bits word 20 19
  let r :=
    if bit word 18 then (if mode < 2 then reattachCq m b c (mode == 1) else (5, b))
    else if mode == 3 then (5, b)
    else if mode == 2 then b.dropOrphan n
    else reattachSq m b n (mode == 1)
  r.2.setOd 0x2202 9 r.1

/-! ### The words' order (R126, R496) -/

/-- The ring descriptor array that a word reads, by its base entry OD 0x2200: a re-attach word with true. -/
def wordReads (w : Bool × Nat) : Option Nat :=
  if w.1 then (if bit w.2 18 then some 3 else if bits w.2 20 19 == 2 then none else some 1)
  else match bits w.2 23 20 with
    | 1 => some 1
    | 5 => some 3
    | _ => none

/-- A word whose descriptor lies in host memory waits while the host link holds reads (R488). -/
def wordWaits (b : Block) (w : Bool × Nat) : Bool :=
  b.hostHolds && ((wordReads w).map (fun sub => b.od' 0x2200 sub != 0 && isHost (b.od' 0x2200 sub))).getD false

/-- The words carried out in write order, up to one whose descriptor read waits; `fuel` bounds them. -/
def serve : Nat → Memory → Block → Block
  | 0, _, b => b
  | fuel + 1, m, b =>
    match b.words with
    | [] => b
    | w :: ws =>
      if b.wordWaits w then b
      else
        let b1 : Block := { b with words := ws }
        let b2 := if w.1 then b1.reattach m w.2 else b1.queueControl m w.2
        if b2.blocked then b else serve fuel m b2

/-- The front end carries out the words it can. -/
def serveWords (m : Memory) (b : Block) : Block :=
  if b.words.isEmpty || b.blocked then b else serve b.words.length (land m b.posted) b

/-- A queue control word, or a re-attach word, given to the front end. -/
def giveWord (m : Memory) (b : Block) (w : Bool × Nat) : Block :=
  ({ b with words := b.words ++ [w] } : Block).serveWords m

/-! ### Orphaning (R490, R491) -/

/-- Completion rings bound to an epoch become stale, and ACTIVE or PAUSED rings bound to it, or that name such a
completion ring, become ORPHANED; records of flows in flight on them will go to the orphan log. The answer: rings
orphaned. -/
def orphan (b : Block) (epoch : Nat) : Nat × Block :=
  let stale := (b.cqs.filter (fun c => c.epoch == some epoch && !c.stale)).map (·.number)
  let hit := fun (r : SubRing) =>
    (r.state == .active || r.state == .paused) && (r.epoch == some epoch || stale.contains r.cqNo)
  let rs := (b.rings.filter hit).map (·.number)
  let b1 : Block := { b with
    cqs := b.cqs.map (fun c => if stale.contains c.number then { c with stale := true, firstAt := none } else c),
    rings := b.rings.map (fun r => if hit r then { r with state := .orphaned, tries := 0 } else r),
    flows := b.flows.map (fun f =>
      if f.stream.isNone && (rs.contains f.ring || stale.contains f.cq) then { f with logged := true } else f),
    waiting := b.waiting.map (fun w =>
      if rs.contains w.sq || stale.contains w.cq then { w with logged := true } else w) }
  (rs.length, b1.logWaiting)

/-! ### Doorbells (R129, R132 to R135, R153) -/

/-- The doorbell word of a ring (R133); a ring back in DISABLED shows the HEAD and TAIL it had until the next SQ_ENABLE. -/
def doorbellWord (b : Block) (q : Nat) : Nat :=
  match b.ring? q with
  | none => mapGet b.retired 0 q
  | some r => pack [(0, r.tail), (32, r.head), (48, sqStateCode r.state)]

/-- A TAIL accepted: recorded with its time; a PAUSED ring resumes (R135, R141, R153). A TAIL moved back withdraws the
doorbells beyond it, and with nothing left ready the rereads of R152 end. -/
def ringDoorbell (b : Block) (r : SubRing) (tail : Nat) : Block :=
  let bells := (r.bells.filter (fun x => r.ahead x.1 < r.ahead tail)) ++ [(tail, b.time)]
  let paused := r.state == .paused
  b.putRing { r with tail := tail, bells := bells, state := if paused then .active else r.state,
                     tries := if paused || tail == r.head then 0 else r.tries }

/-- A doorbell write dropped and counted. -/
def dropDoorbell (b : Block) : Block := b.count 0x2201 3 1

/-- A write in the doorbell window, at an offset from its start (R134, R476). -/
def doorbell (b : Block) (off size value : Nat) : Block :=
  if !b.ready || !((size == 8 || size == 4) && off % 8 == 0) || b.sqCount ≤ off / 8 then b.dropDoorbell
  else match b.ring? (off / 8) with
    | none => b.dropDoorbell
    | some r =>
      if r.state == .orphaned || r.size ≤ bits value 15 0 then b.dropDoorbell else b.ringDoorbell r (bits value 15 0)

/-! ### Dispatch (R44, R136 to R145, R512) -/

/-- The substitute of a stream unit (R512). -/
def substitute (b : Block) (su : Nat) : Option Nat :=
  let w := su / 16 * 16
  let order := (List.range 15).map (fun k => w + (su + 1 + k) % 16) ++ (List.range 16).map (fun k => (16 - w) + (su + k) % 16)
  order.find? b.suUp

/-- The stream unit that takes a ring's commands now (R121, R512). -/
def targetSu (b : Block) (r : SubRing) : Option Nat :=
  let away := ((b.inFlight r.number).map (·.su)).filter (fun s => s != r.homeSu && b.suUp s)
  if b.suUp r.homeSu then some (away.head?.getD r.homeSu) else b.substitute r.homeSu

/-- A command in flight that holds back dispatch of its ring (R403, R408). -/
def stopsRing (f : Flow) : Bool :=
  f.opcode == opFence || f.opcode == opAcquire || (f.opcode == opWait && f.acquires)

/-- The front end may read the entries of a ring (R488). -/
def ringReadable (b : Block) (r : SubRing) : Bool := !isHost r.base || b.hostUp

/-- A ring may have its header at HEAD read for dispatch. -/
def ringOpen (b : Block) (r : SubRing) : Bool :=
  r.state == .active && 0 < r.readyEntries && (b.inFlight r.number).length < r.runahead &&
    b.waiting.all (fun w => w.cq != r.cqNo) && !(b.inFlight r.number).any stopsRing && b.ringReadable r

/-- R140: phase as expected, XOR zero. -/
def headerGood (r : SubRing) (e : Nat) (poison : Bool) : Bool :=
  !poison && bit e 16 == r.phase && xorBytes (natLE 64 e) == 0

/-- A good header may be dispatched: its inline entries are covered, and DEP finds nothing in flight (R136, R141). -/
def headerReady (b : Block) (r : SubRing) (e : Nat) : Bool :=
  1 + bits e 19 17 ≤ r.readyEntries && (!bit e 20 || (b.inFlight r.number).isEmpty)

/-- The inline entries of the command at HEAD, as they stand (R136, R138). -/
def readInline (m : Memory) (b : Block) (r : SubRing) (n : Nat) : Bytes × Block :=
  (List.range n).foldl (fun (acc : Bytes × Block) k =>
    let x := readOwn m acc.2 (r.entryAt (r.head + 1 + k)) 64
    (acc.1 ++ x.1, x.2.2)) ([], b)

/-- A ring has a command ready whose entries can be read: one that may be dispatched, or a header that will fail its
check. -/
def ringReady (m : Memory) (b : Block) (r : SubRing) : Bool :=
  b.ringOpen r && r.tries == 0 &&
    (let x := readOwn m b (r.entryAt r.head) 64
     let e := leNat x.1
     !x.2.2.blocked &&
       (if headerGood r e x.2.1 then b.headerReady r e && !(readInline m x.2.2 r (bits e 19 17)).2.blocked else true))

/-- Band of a ring's command at HEAD (R145). -/
def ringBand (m : Memory) (b : Block) (r : SubRing) : Nat :=
  min (bits (leNat (readOwn m b (r.entryAt r.head) 64).1) 23 21) r.bandCap

/-- Rings ready for a stream unit that can take a command (R144, R145). -/
def ringsFor (m : Memory) (b : Block) (su : Nat) : List SubRing :=
  if 128 ≤ (b.flows.filter (fun f => f.stream.isNone && f.su == su)).length then []
  else b.rings.filter (fun r => b.ringReady m r && b.targetSu r == some su)

/-- The ring that a stream unit is offered: of the highest band, in turn by number (R145). -/
def pickRing (m : Memory) (b : Block) (su : Nat) : Option SubRing :=
  let rs := ringsFor m b su
  let top := (rs.map (ringBand m b)).foldl max 0
  let cs := rs.filter (fun r => ringBand m b r == top)
  let last := mapGet b.turns 0 (8 * su + top)
  ((cs.find? (fun r => last < r.number + 1)).orElse (fun _ => cs.head?))

/-- The stream unit that the rotation serves next, with the ring it is offered (R145). -/
def pick (m : Memory) (b : Block) : Option (Nat × SubRing) :=
  ((List.range 32).map (fun k => (b.rotor + k) % 32)).findSome? (fun su => (pickRing m b su).map (fun r => (su, r)))

/-- The deadline of a REALTIME command: from the doorbell that made it ready (R141). -/
def deadlineFor (b : Block) (r : SubRing) (e : Nat) : Option Nat :=
  if bit e 13 && r.deadlineNs != 0 then
    let t := ((r.bells.find? (fun x => 1 + bits e 19 17 ≤ r.ahead x.1)).map (·.2)).getD b.time
    some (t + r.deadlineNs)
  else none

/-- HEAD moved past a command; the phase flips when HEAD wraps (R137, R143). -/
def advanceHead (r : SubRing) (n : Nat) : SubRing :=
  { r with head := (r.head + n) % r.size, phase := if r.size ≤ r.head + n then !r.phase else r.phase, tries := 0,
           bells := r.bells.filter (fun x => n < r.ahead x.1) }

/-- The checks that an opcode's chapter makes at dispatch. -/
def checkCommand (m : Memory) (b : Block) (f : Flow) : Block :=
  match f.opcode with
  | 0x01 => checkGatherPool m b f
  | 0x02 => checkGatherRaw m b f
  | 0x03 => checkRecall m b f
  | 0x04 => checkScatter m b f
  | 0x05 => checkUpdate m b f
  | 0x06 => checkCommit m b f
  | 0x07 => checkProject m b f
  | 0x08 => checkVecChain m b f
  | 0x09 => checkQuantise m b f
  | 0x0A => checkCalibrate m b f
  | 0x0B => checkBoard m b f
  | 0x0C => checkCopy m b f
  | 0x11 => checkFlush m b f
  | 0x12 => checkAcquire m b f
  | 0x13 => checkBell m b f
  | 0x14 => checkSignal m b f
  | 0x15 => checkWait m b f
  | _ => b

/-- Statuses of R142 and R143, before any other check. -/
def headerStatuses (e : Nat) : List Nat :=
  let op := bits e 7 0
  (if opcodeKnown op then [] else [stBadOpcode]) ++
    (if opcodeKnown op && opcodeInline op < bits e 19 17 then [stBadInline] else []) ++
    (if reservedSet e then [stBadHeader] else [])

/-- A dispatched command after its checks: refused or cut off, it does no work; else it takes or awaits the consumer
turn of the queue it reads (R155, R370, R487). -/
def afterChecks (b : Block) (id : Nat) : Block :=
  match b.flow? id with
  | none => b
  | some f =>
    if f.cut || f.statuses.any (fun s => refuses s || endsEarly s) then b.close id
    else match f.fromQ with
      | none => b
      | some q => b.askTurn id q

/-- The header at HEAD is accepted: HEAD moves on, and the command is handed to its stream unit with its checks made, or
completes as refused (R136 to R144, R155). -/
def accept (m : Memory) (b : Block) (su : Nat) (r : SubRing) (e : Nat) : Block :=
  let n := bits e 19 17
  let x := readInline m b r n
  let id := b.nextFlow
  let st := headerStatuses e
  let f0 := Flow.blank id r.number r.cqNo su e (b.od' 0x2202 1) b.time (min (bits e 23 21) r.bandCap) (b.deadlineFor r e)
  let f : Flow :=
    { f0 with inline := x.1, windows := b.crcWindows, statuses := st, stage := if st.isEmpty then .waiting else .closing }
  let b1 : Block := { x.2 with flows := x.2.flows ++ [f], nextFlow := id + 1 }
  let b2 :=
    if !st.isEmpty then b1
    else
      let b3 := b1.count 0x2201 6 1
      let b4 := if f.opcode == opFence then b3.modFlow id (fun g => { g with snapshot := b3.fenceSnapshot f }) else b3
      (checkCommand m b4 f).afterChecks id
  b2.putRing (advanceHead r (1 + n))

/-- The front end dispatches only in READY (R476); a lease conflict is resolved within one step (R516, log 7). -/
def mayDispatch (b : Block) : Bool := b.ready

/-- DISPATCH: one header read, of the ring that the rotation and the bands put first (R145, R147, R152). -/
def dispatch (m : Memory) (b : Block) : Block :=
  if !b.mayDispatch then b
  else match pick m b with
    | none => b
    | some (su, r) =>
      let x := readOwn m b (r.entryAt r.head) 64
      let e := leNat x.1
      let b1 : Block := { x.2.2 with
        rotor := (su + 1) % 32,
        turns := mapSet x.2.2.turns 0 (8 * su + min (bits e 23 21) r.bandCap) (r.number + 1) }
      if headerGood r e x.2.1 then accept m b1 su r e else b1.putRing { r with tries := 1, readAt := b.time }

/-- The queue pauses after the fourth failed read, with its record (R152). -/
def pauseRing (m : Memory) (b : Block) (r : SubRing) (e : Nat) : Block :=
  let stale := bit e 16 != r.phase
  let status := if stale then stDoorbellEarly else stBadCheck
  let b1 := (b.putRing { r with state := .paused, tries := 0 }).count 0x2201 (if stale then 4 else 5) 1
  postRecord m b1
    { cq := r.cqNo, sq := r.number, status := status, poison := false, late := false,
      detail := if stale then 0 else xorBytes (natLE 64 e), tag := bits e 63 32, epoch := b.od' 0x2202 1, logged := false }

/-- Nanoseconds between the header reads of a ring: four fall within 1 µs (R152). DESIGN CHOICE (log 2): they are spread
evenly. -/
def recheckNs : Nat := 330

/-- HEADER_RECHECK: a header that failed is read again, three more times at most, within 1 µs of the first read
(R152). -/
def headerRecheck (m : Memory) (b0 : Block) (n : Nat) : Block :=
  match b0.ring? n with
  | none => b0
  | some r =>
    if !b0.mayDispatch || r.state != .active || r.tries == 0 || r.readyEntries == 0 || !b0.ringReadable r then b0
    else
      let b : Block := { b0 with time := max b0.time (r.readAt + recheckNs * r.tries) }
      let x := readOwn m b (r.entryAt r.head) 64
      let e := leNat x.1
      if headerGood r e x.2.1 then
        match b.targetSu r with
        | none => x.2.2.putRing { r with tries := 0 }
        | some su =>
          if b.ringOpen r && b.headerReady r e &&
              (b.flows.filter (fun f => f.stream.isNone && f.su == su)).length < 128 then accept m x.2.2 su r e
          else x.2.2.putRing { r with tries := 0 }
      else if r.tries < 3 then x.2.2.putRing { r with tries := r.tries + 1 }
      else pauseRing m x.2.2 r e

/-! ### Completion (R146 to R149, R398, R399) -/

/-- The wing's engine still works for the flow. -/
def engineHas (e : WingEngine) (id : Nat) : Bool :=
  e.ready.any (fun p => p.flow == id) || e.feed.any (fun p => p.flow == id) || e.current.any (fun p => p.flow == id) ||
    e.finished.any (fun t => t.flow == id) || e.tileQueue.any (fun t => t.flow == id)

/-- Everything of the flow has been performed (R398, R399). -/
def flowDone (b : Block) (f : Flow) : Bool :=
  f.stage == .closing && f.stream.isNone && !b.writesWait f.id && !engineHas b.north f.id && !engineHas b.south f.id &&
    !b.tileOpen f.id && f.remote.all (·.answered) &&
    (!b.snapshotOpen f || f.statuses.any endsEarly) && (!f.release || (b.earlier f).isEmpty)

/-- Grants that came and were not used go back to their queue (R437). -/
def returnGrants (b : Block) (f : Flow) : Block :=
  (f.remote.filter (fun r => r.kind == mtGrantReq && r.answered && r.status == 0)).foldl (fun b r =>
    b.returnGrant r.peer r.table (leNat r.data) (wireFlow f.id)) b

/-- The record of a flow that completes now. -/
def recordOf (b : Block) (f : Flow) : WaitingRecord :=
  { cq := f.cq, sq := f.ring, status := f.status b.time, poison := f.poisonSeen, late := f.late b.time,
    detail := f.detailOf b.time, tag := f.tag, epoch := f.epoch, logged := f.logged }

/-- What a flow gives up when it completes: its tallies go to the block's counters, its turn, slots and context end
(R167, R370). -/
def giveUp (b : Block) (f : Flow) : Block :=
  let b1 := (((b.count 0x2400 1 f.sat).count 0x2400 2 f.esc).count 0x2400 3 f.nanGroups).count 0x2400 4 f.fullCount
  let b2 := b1.count 0x2603 1 (b2n (f.late b.time))
  ((((b2.discardAfter f.id).freeSatchels f.id).endTurn f.id).dropWork f.id).returnGrants f

/-- COMPLETION_RECORD: a flow whose work is performed leaves, with a record unless it is OK without COMPLETE (R141,
R150). -/
def complete (m : Memory) (b : Block) (id : Nat) : Block :=
  match b.flow? id with
  | none => b
  | some f =>
    if !b.ready || !b.flowDone f then b
    else
      let b1 := b.giveUp f
      let b2 := if f.status b.time != stOk || f.complete then postRecord m b1 (b.recordOf f) else b1
      ((b2.dropFlow id).settleRing f.ring).moveAllTiles

/-- SW_HEAD_REREAD: SW_HEAD read again while records wait for room, 1 µs after the read before (R150, log 2). -/
def swHeadReread (m : Memory) (b : Block) (n : Nat) : Block :=
  match b.cq? n with
  | none => b
  | some c =>
    if b.waiting.any (fun w => w.cq == n) then
      (rereadAndDrain m { b with time := max b.time (c.readAt + 1000) } n).settleRings
    else b

/-- COAL_TIMEOUT: COAL_US have passed since the first record not yet signalled (R151, log 2). -/
def coalTimeout (b : Block) (n : Nat) : Block :=
  match b.cq? n with
  | none => b
  | some c =>
    match c.firstAt with
    | none => b
    | some t =>
      if c.irqEn && c.coalUs != 0 && !c.stale then
        ({ b with time := max b.time (t + 1000 * c.coalUs) } : Block).signalCq c
      else b

end Block

/-- DOORBELL_WRITE (R129, R132 to R135, R153). `offset` counts from the start of the 64 MiB window. -/
def execDoorbellWrite (offset size value : Nat) (s : State) : Out :=
  finish s (s.blk.doorbell (offset - 0x0100_0000) size value)

/-- DISPATCH (R136 to R147, R152). A read that waits leaves the state as it was. -/
def execDispatch (s : State) : Out := finishRead s (Block.dispatch s.mem s.blk)

/-- HEADER_RECHECK (R152, R153). -/
def execHeaderRecheck (ring : Nat) (s : State) : Out := finishRead s (Block.headerRecheck s.mem s.blk ring)

/-- COMPLETION_RECORD (R146 to R151, R154, R155, R398, R492). -/
def execCompletionRecord (flow : Nat) (s : State) : Out := finish s (Block.complete s.mem s.blk flow)

/-- SW_HEAD_REREAD (R150). -/
def execSwHeadReread (cq : Nat) (s : State) : Out := finish s (Block.swHeadReread s.mem s.blk cq)

/-- COAL_TIMEOUT (R151). -/
def execCoalTimeout (cq : Nat) (s : State) : Out := finish s (s.blk.coalTimeout cq)

end Sys2Proof.Machine
end

