-- ==== Sys2Proof/Machine/Agents.lean ====
section
/-! DEFINITION. Channel agents and the host link at work (11_memory_tiers_cache.md R319 to R327, R340, R349;
10_training_updates.md R292 to R298, R302, R310 to R312; 02_tables_rows_desks.md R52, R53): the requests of a port
performed in arrival order, and single reads and fills. -/

namespace Sys2Proof.Machine

namespace Block

/-- The stack of an agent is held by an ordered retrain (R349). -/
def retraining (b : Block) (port : Nat) : Bool := port < 256 && b.agents.retrains.any (fun r => r.1 == port / 32 && r.2.isSome)

/-- An append whose key or value is still on its way through another agent: it holds the desk descriptor's unit (R325,
R326). -/
def partsWait (b : Block) (r : AgentReq) : Bool :=
  match r.op with
  | .append _ _ _ true => b.agents.queue.any (fun q => q.flow == r.flow && (writeSpan q.op).isSome)
  | _ => false

/-- A request touches a unit of a range. -/
def reaches (r : AgentReq) (a len : Nat) : Bool :=
  match writeSpan r.op, rowSpan r.op with
  | some w, _ => touches a len w.addr w.data.length
  | none, some (c, k) => touches a len c k
  | none, none => false

/-- The oldest request of a port that may be performed, when the port may act: those that wait for a unit held by an
append stand behind (R326, R349). -/
def front (b : Block) (port : Nat) : Option AgentReq :=
  if b.retraining port then none
  else
    let mine := b.atPort port
    let held := (mine.filter b.partsWait).filterMap (fun r => rowSpan r.op)
    mine.find? (fun r => held.all (fun x => !reaches r x.1 x.2))

/-- A request taken out of its queue. -/
def popFront (b : Block) (r : AgentReq) : Block :=
  { b with agents := { b.agents with queue := b.agents.queue.erase r } }

/-! ### Writes (R325, R337, R340, R487 to R490) -/

/-- A waiting CRC_WRITE of the flow that ends where a word at w begins, in the unit of w. -/
def crcBefore (flow : Option Nat) (w : Nat) (r : AgentReq) : Bool :=
  match r.op with
  | .crcWrite a d => r.flow == flow && a + d.length == w && unitBase a == unitBase w
  | _ => false

/-- A CRC_WRITE made longer by one word. -/
def crcLonger (v : Nat) (r : AgentReq) : AgentReq :=
  match r.op with
  | .crcWrite a d => { r with op := .crcWrite a (d ++ natLE 4 v) }
  | _ => r

/-- The CRC word of a block whose data has been written; words that share a unit with a waiting CRC_WRITE of the flow
join it (R340). -/
def requestCrc (b : Block) (flow : Option Nat) (w v : Nat) : Block :=
  if b.agents.queue.any (crcBefore flow w) then
    { b with agents := { b.agents with queue := updFirst (crcBefore flow w) (crcLonger v) b.agents.queue } }
  else b.request { port := agentOf w, flow := flow, op := .crcWrite w (natLE 4 v), remote := none }

/-- A flow that is cut off ends early with ORPHANED; for a generation, its ARM does (R487). -/
def endCut (b : Block) (f : Flow) : Block :=
  match f.stream with
  | some n => b.endGen n stOrphaned
  | none => if f.stage == .closing then b.note f.id stOrphaned else b.endFlow f.id stOrphaned

/-- A write to host memory by the host link: sent, dropped for a flow that is cut off, or held (R487, R488). -/
def hostWrite (b : Block) (flow : Option Nat) (a : Nat) (d : Bytes) : Block :=
  match flow.bind b.flow? with
  | none => if b.hostUp then b.post a d else b.count 0x2202 0x0A 1
  | some f =>
    if b.cutsOff f then
      let blocks := (cutPages a d.length).length
      ((b.count 0x2202 0x0A 1).modFlow f.id (fun g =>
        { g with cut := true, blocksDropped := min 65535 (g.blocksDropped + blocks) })).endCut f
    else b.post a d

/-- The data of a BLOCK_WRITE performed, then its CRC word asked for (R340); later commands of the queue see it
(R172). -/
def performWrite (m : Memory) (b : Block) (r : AgentReq) (a : Nat) (d : Bytes) (crc : Option (Nat × Nat)) : Block :=
  let b1 := if r.port == Config.hostPort then b.hostWrite r.flow a d else b.tierWrite a d
  let b2 := match crc with
    | none => b1
    | some (w, v) =>
      let i := b1.injected (((r.flow.bind b1.flow?).map (fun (f : Flow) => f.su)).getD 0) 4
      i.2.requestCrc r.flow w (if i.1 then v ^^^ 1 else v)
  b2.writeSeen m r.flow a d.length

/-- A line performed by its owner, stored as poisoned where its mark says so (R332, R337). -/
def performBack (b : Block) (a : Nat) (d : Bytes) (poison : Bool) : Block :=
  let b1 := b.tierWrite a d
  if poison && !b.absentRange a d.length && !b.stackOut a then b1.storePoisoned (unitBase a) else b1

/-- R298 before a row operation at a range: lines already on their way back, and dirty lines of the row cache, reach
memory first. -/
def flushRow (b : Block) (a len : Nat) : Block :=
  let mine := fun (r : AgentReq) => match r.op with
    | .writeBack c d _ => touches a len c d.length
    | _ => false
  let b1 := (b.agents.queue.filter mine).foldl (fun b r => match r.op with
    | .writeBack c d p => b.performBack c d p
    | _ => b) { b with agents := { b.agents with queue := b.agents.queue.filter (fun r => !mine r) } }
  (b1.cache.lines.filter (fun l => l.dirty && (linesOf a len).contains l.addr)).foldl (fun b l =>
    (((b.dirtyRead l).performBack l.addr l.data (l.err == 2)).putLine (Line.cleaned l)).count 0x2303 7 1) b1

/-! ### Row operations -/

/-- The RACK of a remote operation (R295, R430, R433). -/
def answerRow (b : Block) (r : Option RemoteOp) (status : Nat) : Block :=
  match r with
  | none => b
  | some o => b.reply o.port o.peer mtRack status o.txn (rackBody o.table o.row o.elem0)

/-- The units that an agent's own read of a range finds uncorrectable, and what the read counts (R319, R322, R337, R547);
an absent range is bad as a whole. -/
def agentReads (b : Block) (a len : Nat) : Bool × Block :=
  if b.absentRange a len || b.stackOut a then (true, b.count 0x2504 0x0C 1)
  else
    let x := b.reported a len
    let bad := x.2.badUnits a len ++ x.1
    (!bad.isEmpty, (bad.foldl uncorrectable x.2).charge a (readCost a len))

/-- The row an agent reads for an operation: bytes, and whether it is damaged. -/
def agentRow (m : Memory) (b : Block) (t : RowTarget) : Bytes × Bool × Block :=
  let d := memRead (land m b.posted) t.addr t.stride
  let x := b.agentReads t.addr t.stride
  (d, x.1 || (tdShape t.desc).poisoned d, x.2)

/-- A range that the agent has just read without error written back: it merges nothing again (R322, R326). -/
def rewrite (b : Block) (a : Nat) (d : Bytes) : Block :=
  let b1 := (b.post a d).charge a (writeCost a d.length)
  { b1 with agents := { b1.agents with failing := b1.agents.failing.filter (fun u => !(unitsOf a d.length).contains u) } }

/-- An add or an optimiser step performed on a row (R292, R293, R302, R306). -/
def performRowOp (m : Memory) (b : Block) (r : AgentReq) (t : RowTarget) (step : Bytes → Bytes × Enc × Nat)
    (counter : Nat) : Block :=
  let x := agentRow m (b.flushRow t.addr t.stride) t
  if x.2.1 then (x.2.2.unperformed r.flow 1).answerRow r.remote 1
  else
    let n := step x.1
    (((((x.2.2.rewrite t.addr n.1).tallyRow r.flow n.2.1 n.2.2).count 0x2303 counter 1).writeSeen m r.flow t.addr
      t.stride).answerRow r.remote 0)

/-- The lock entries that an agent holds (R311). -/
def locksOf (b : Block) (port : Nat) : Nat := (b.agents.locks.filter (fun k => k.1 == port)).length

/-- An entry of an agent's row-commit lock table taken for a row, or released (R311). -/
def takeLock (b : Block) (port row : Nat) : Block :=
  { b with agents := { b.agents with locks := b.agents.locks ++ [(port, row)] } }
def freeLock (b : Block) (port row : Nat) : Block :=
  { b with agents := { b.agents with locks := b.agents.locks.erase (port, row) } }

/-- The request waits for a row lock: any operation on a row that is held, and a commit while its agent's table is full
(R311). -/
def lockWaits (b : Block) (r : AgentReq) : Bool :=
  match r.op with
  | .commit t _ _ _ => b.agents.locks.contains (r.port, t.addr) || Config.lockEntries ≤ b.locksOf r.port
  | .add t _ | .update t _ _ => b.agents.locks.contains (r.port, t.addr)
  | _ => false

/-- A row committed: under an entry of its agent's lock table it is written, and every copy replaced (R311). -/
def commitRow (b : Block) (port a : Nat) (row : Bytes) (read : Bool) : Block :=
  let b1 := b.takeLock port a
  let b2 := if read then b1.rewrite a row else b1.tierWrite a row
  (b2.replaceCopies a row).freeLock port a

/-- A commit performed on a row (R310 to R312). -/
def performCommit (m : Memory) (b : Block) (r : AgentReq) (t : RowTarget) (entry : Nat) (src : Bytes) (bad : Bool) :
    Block :=
  let s := tdShape t.desc
  let mono := bit entry 82
  let optState := bits entry 81 80
  let stamp := bits entry 127 96
  if bad || s.poisoned (slice src 0 s.stride) then b.unperformed r.flow 1
  else if b.absentRange t.addr t.stride || b.stackOut t.addr then (b.count 0x2504 0x0C 1).unperformed r.flow 1
  else
    let b0 := b.flushRow t.addr t.stride
    let reads := needsCurrent s mono optState
    let x := if reads then agentRow m b0 t else (memRead (land m b0.posted) t.addr t.stride, false, b0)
    if x.2.1 then x.2.2.unperformed r.flow 1
    else if mono && stamp ≤ bits (s.header x.1) 63 32 then
      match r.flow with
      | none => x.2.2
      | some id => (x.2.2.note id stCommitSkipped).count 0x2303 5 1
    else
      let row := committedRow s x.1 src optState stamp
      ((x.2.2.commitRow r.port t.addr row reads).count 0x2303 4 1).writeSeen m r.flow t.addr t.stride

/-- What a RECALL learns of its append. -/
def appendDone (b : Block) (flow : Option Nat) (done : Bool) (slot : Nat) : Block :=
  match flow with
  | none => b
  | some id => b.modFlow id (fun f =>
      { f with search := f.search.map (fun w => { w with phase := 4, appended := done, appendSlot := slot }) })

/-- The key and the value of an append, each with its address. -/
def appendParts (f : Flow) (d slot : Nat) (key value : Bytes) : List Store :=
  [⟨placeRow (ddKeyBase d) f.rcKey.stride slot, key⟩, ⟨placeRow (ddValueBase d) f.rcValue.stride slot, value⟩]

/-- A part of an append goes through its own agent: performed now where nothing stands before it there, else asked of it
(R325, R326). -/
def putPart (b : Block) (r : AgentReq) (w : Store) : Block :=
  if agentOf w.addr == r.port || !b.ownWaits w.addr w.data.length then b.tierWrite w.addr w.data
  else b.enqueue { port := agentOf w.addr, flow := r.flow, op := .blockWrite w.addr w.data none, remote := none }

/-- The desk descriptor after an append into a slot: NEXT, and FULL on the wrap (R52). -/
def nextDesk (d slot : Nat) : Nat :=
  let wraps := slot + 1 == 2 ^ ddCap d
  let full := ddFull d || wraps
  d - ddNext d <<< 32 - (b2n (ddFull d)) <<< 56 + (if wraps then 0 else slot + 1) <<< 32 + (b2n full) <<< 56

/-- An append whose key and value are written: the descriptor follows, and every copy of what was written (R52, R53,
R172). -/
def finishAppend (m : Memory) (b : Block) (f : Flow) (a d : Nat) (parts : List Store) : Block :=
  let slot := ddNext d
  let b1 := b.rewrite a (natLE 32 (nextDesk d slot))
  let all := parts ++ [⟨a, natLE 32 (nextDesk d slot)⟩]
  let b2 := all.foldl (fun b w => b.replaceCopies w.addr w.data) b1
  ((all.foldl (fun b w => b.writeSeen m (some f.id) w.addr w.data.length) b2).count 0x2302 3 1).appendDone (some f.id) true slot

/-- An append performed by the agent that owns the desk descriptor: key and value first, then NEXT and FULL (R52, R53,
R225, R226). While a key or a value waits at another agent, the append holds the descriptor. -/
def performAppend (m : Memory) (b : Block) (r : AgentReq) (a : Nat) (key value : Bytes) (sent : Bool) : Block :=
  match r.flow.bind b.flow? with
  | none => b
  | some f =>
    if f.statuses.any endsEarly then b.appendDone r.flow false 0
    else
      let d := leNat (memRead (land m b.posted) a 32)
      let x := if sent then (false, b) else b.agentReads a 32
      let fail := fun (st : Nat) => (x.2.note f.id st).appendDone r.flow false 0
      if x.1 then (x.2.poisonOnly f.id).appendDone r.flow false 0
      else if ddSealed d then fail stDeskSealed
      else if ddFull d && !dcWrap (f.copyAt 1) then fail stDeskFull
      else
        let parts := appendParts f d (ddNext d) key value
        let b1 := if sent then x.2 else parts.foldl (fun b w => b.putPart r w) x.2
        let again := { r with op := .append a key value true }
        if !sent && b1.partsWait again then { b1 with agents := { b1.agents with queue := again :: b1.agents.queue } }
        else b1.finishAppend m f a d parts

end Block

/-! ### The steps of a port -/

/-- Channel time of the request at the front of a port (R322). -/
def opCost (op : AgentOp) : Nat × Nat :=
  match Block.writeSpan op, Block.rowSpan op with
  | some w, _ => (w.addr, writeCost w.addr w.data.length)
  | none, some (a, n) => (a, readCost a n + writeCost a n)
  | none, none => (0, 0)

/-- A request that waits at the limit of a share key (R324, R378). -/
def portWaits (s : State) (r : AgentReq) (key : Nat) : Out :=
  .next { s with blk := s.blk.waited { s.blk with agents := { s.blk.agents with heldAt := some key } } r.flow }

/-- What a request leaves when it has been performed: its flow's turn at its share keys is used up (R378); requests for no
flow follow no timetable (log 8). -/
def shareDone (b c : Block) (r : AgentReq) : Except Nat Block :=
  match r.flow.bind b.flow? with
  | none => .ok c
  | some f => b.shareTurns c f.id

/-- One request of a port performed, when its kind is the one the command names, its agent is not held, and its share
window has room (R324, R326, R349). A request to host memory waits while the host link holds (R488). Words that waited for
a read are then carried out. -/
def portStep (s : State) (port : Nat) (perform : Memory → Block → AgentReq → Option Block) : Out :=
  match s.blk.front port with
  | none => .next s
  | some r =>
    if (port == Config.hostPort && s.blk.hostHolds) || s.blk.partsWait r || s.blk.lockWaits r then .next s
    else match perform s.mem (s.blk.popFront r) r with
      | none => .next s
      | some b =>
        if !s.blk.shareRoom (opCost r.op).1 (opCost r.op).2 then portWaits s r (Block.shareKey (opCost r.op).1)
        else match shareDone s.blk b r with
          | .error key => portWaits s r key
          | .ok c => finish s (c.serveWords s.mem)

/-- BLOCK_WRITE as a request, and what the engine does behind a write of its own. -/
def doBlockWrite (m : Memory) (b : Block) (r : AgentReq) : Option Block :=
  match r.op with
  | .blockWrite a d crc => some (r.after.foldl Block.runAfter (b.performWrite m r a d crc))
  | _ => none

/-- CRC_WRITE as a request. -/
def doCrcWrite (_ : Memory) (b : Block) (r : AgentReq) : Option Block :=
  match r.op with
  | .crcWrite a d => some (b.tierWrite a d)
  | _ => none

/-- WRITE_BACK as a request. -/
def doWriteBack (_ : Memory) (b : Block) (r : AgentReq) : Option Block :=
  match r.op with
  | .writeBack a d p => some (b.performBack a d p)
  | _ => none

/-- ADD as a request. -/
def doAdd (m : Memory) (b : Block) (r : AgentReq) : Option Block :=
  match r.op with
  | .add t w => some (b.performRowOp m r t (fun row => addedRow (tdShape t.desc) row w) 1)
  | _ => none

/-- UPDATE as a request. -/
def doUpdate (m : Memory) (b : Block) (r : AgentReq) : Option Block :=
  match r.op with
  | .update t p w => some (b.performRowOp m r t (fun row => steppedRow (tdShape t.desc) row p w) 3)
  | _ => none

/-- COMMIT as a request. -/
def doCommit (m : Memory) (b : Block) (r : AgentReq) : Option Block :=
  match r.op with
  | .commit t e src bad => some (b.performCommit m r t e src bad)
  | _ => none

/-- APPEND as a request. -/
def doAppend (m : Memory) (b : Block) (r : AgentReq) : Option Block :=
  match r.op with
  | .append a key value sent => some (b.performAppend m r a key value sent)
  | _ => none

/-- A record that lies in host memory goes through the host link: written whole, with GENERATION counted up, or marked
(R107, R109, R488). A mark that is dropped changes nothing. -/
def Block.hostRecord (m : Memory) (b : Block) (flow : Option Nat) (a : Nat) (d : Bytes) (mark : Bool) : Block :=
  let now := memRead (land m b.posted) a 64
  let sent := match flow.bind b.flow? with | none => b.hostUp | some f => !b.cutsOff f
  if !mark then b.hostWrite flow a (nextGeneration now d)
  else if marks now d then
    let b1 := b.hostWrite flow a (natLE 1 (leNat (slice now 0 1) + 2))
    if sent then (b1.event 4 (leNat d)).count32 0x2401 5 1 else b1
  else b

/-- RECORD as a request: a calibration record or a drift mark on it (R107, R109). -/
def doRecord (m : Memory) (b : Block) (r : AgentReq) : Option Block :=
  match r.op with
  | .record a d mark =>
    if r.port == Config.hostPort then some (b.hostRecord m r.flow a d mark)
    else some ((b.performRecord m a d mark).writeSeen m r.flow a d.length)
  | _ => none

/-- BLOCK_WRITE: the oldest request of a port, a block write, is performed (R325, R340, R397). -/
def execBlockWrite (port : Nat) (s : State) : Out := portStep s port doBlockWrite
/-- CRC_WRITE: the oldest request of a port, a run of CRC words, is performed (R340). -/
def execCrcWrite (port : Nat) (s : State) : Out := portStep s port doCrcWrite
/-- WRITE_BACK: the oldest request of a port, a line sent back, is performed (R332, R337). -/
def execWriteBack (port : Nat) (s : State) : Out := portStep s port doWriteBack
/-- AGENT_ADD: the oldest request of a port, an add, is performed (R292 to R295). -/
def execAgentAdd (port : Nat) (s : State) : Out := portStep s port doAdd
/-- UPDATE: the oldest request of a port, an optimiser step, is performed (R302). -/
def execUpdate (port : Nat) (s : State) : Out := portStep s port doUpdate
/-- AGENT_COMMIT: the oldest request of a port, a commit, is performed under its row lock (R310 to R312). -/
def execAgentCommit (port : Nat) (s : State) : Out := portStep s port doCommit
/-- APPEND: the oldest request of a port, an append, is performed (R52, R53, R225). -/
def execAppend (port : Nat) (s : State) : Out := portStep s port doAppend
/-- RECORD: the oldest request of a port, a calibration record or a drift mark, is performed (R107, R109). -/
def execRecord (port : Nat) (s : State) : Out := portStep s port doRecord

/-! ### Single reads and fills -/

/-- What an agent answered. -/
def Block.answerRead (b : Block) (d : Bytes) (poison : Bool) : Block :=
  { b with agents := { b.agents with answer := d, answerPoison := poison } }

/-- A read beyond the address map is no access of the block (R318). -/
def beyondMap (a len : Nat) : Bool := 2 ^ 52 < a + len

/-- ROW_READ: the owning agent reads a row or span of lines in one operation (R166, R325, R326). -/
def execRowRead (addr len : Nat) (s : State) : Out :=
  if beyondMap addr len then .fault (.outsideAddressMap addr)
  else
    let r := if isHost addr then s.blk.readOwn s.mem addr len else s.blk.tierRead s.mem addr len
    finishRead s (r.2.2.answerRead r.1 r.2.1)

/-- BLOCK_READ: the owning agent reads part of an array, or the host link reads host memory (R325, R319). -/
def execBlockRead (addr len : Nat) (s : State) : Out :=
  if beyondMap addr len then .fault (.outsideAddressMap addr)
  else
    let r := if isHost addr then s.blk.readOwn s.mem addr len else s.blk.tierRead s.mem addr len
    finishRead s (r.2.2.answerRead r.1 r.2.1)

/-- ROW_FILL: a line is looked up and, on a miss, fetched from its agent and filled with a hint of R167 (R165, R331,
R332). Host memory enters no cache (R330). -/
def execRowFill (addr hint : Nat) (s : State) : Out :=
  if beyondMap addr 1 then .fault (.outsideAddressMap addr)
  else if isHost addr then .next s
  else
    let r := s.blk.rowLines s.mem (lineAddr addr) 256 hint none false
    finishRead s (r.2.2.answerRead r.1 r.2.1)

/-- A new share window: what each stack or bulk channel moved beyond its limit counts against this window too (R324, log
8). -/
def Block.openShares (b : Block) : Block :=
  let left := b.agents.moved.foldl (fun (l : NatMap) e => mapSet l 0 e.1 (e.2 - b.shareBudget e.1)) []
  { b with agents := { b.agents with moved := left, began := left } }

/-- SHARE_WINDOW: a new share window of 1 µs begins (R324). -/
def execShareWindow (s : State) : Out := finish s (s.blk.openShares.serveWords s.mem)

end Sys2Proof.Machine
end

