-- ==== Sys2Proof/Machine/Faults.lean ====
section
/-! DEFINITION. What software and time do to the fault collector (17_faults.md): fence, restore and acknowledgement
(R506 to R514), injection (R524), faults reported by checkers and islands (R501, R502), and the prefect lease (R515,
R516). -/

namespace Sys2Proof.Machine

/-- The unit at the receiving end of a stalled link (R502). -/
def islandUnit : Island → Nat
  | .wingIsland w => 0x20 + Block.wingNo w
  | .queue c => 0x600 + c % 2
  | .control c => 0x602 + c % 2
  | .telemetry => 0x700
  | .faultCollector c => 0x604 + c % 2
  | .seryoCore c => 0x606 + c % 2
  | .seryoPort p => 0x300 + p
  | .agent a => 0x100 + a
  | .bridge => 0x500

/-- A unit that has a checker of a kind (R524; the kinds by unit are log 33). -/
def hasChecker (unit checker : Nat) : Bool :=
  match checker with
  | 1 | 2 => isWay unit || isWing unit
  | 3 => isWay unit
  | 4 => isSu unit
  | 5 => isPortUnit unit
  | 6 => isCopy unit
  | 7 => isWing unit
  | 8 => unit == 0x500
  | _ => false

/-- An injection word that R524 accepts. -/
def injectionOk (word : Nat) : Bool :=
  hasChecker (bits word 15 0) (bits word 19 16) && bits word 27 20 != 0 && bits word 31 28 == 0

namespace Block

/-! ### Fence, restore, acknowledge -/

/-- A FENCE: its result, and the MAINTENANCE fault that the end of the step grades (R509). -/
def fenceWord (b : Block) (u : Nat) : Nat × Block :=
  if !unitKnown u then (1, b)
  else if b.fenced u then (2, b)
  else if b.lastOne u then (5, b)
  else (0, b.found 0x0E u 0 false)

/-- The channel of an agent is usable (R347, R511). -/
def agentUsable (b : Block) (a : Nat) : Bool :=
  if a < 256 then !bit (b.od' 0x2505 (0x11 + a / 32)) (a % 32) else !bit (b.od' 0x2505 0x21) (a - 256)

/-- The pair of copies that u is one of: while both are in service every result is compared, and inverted compare bits are a
COPY_MISMATCH of copy B at once (R501, R524); a copy alone runs without comparison (R508). -/
def compareCopies (b : Block) (u : Nat) : Block :=
  let a := u - u % 2
  if b.fenced a || b.fenced (a + 1) then b
  else
    let i := b.injected a 6
    let j := if i.1 then i else i.2.injected (a + 1) 6
    if j.1 then j.2.found 0x0A (a + 1) 0 true else j.2

/-- What a RESTORE does at once; a wing returns once its tile store is zeroed (R511, R514). -/
def restoreUnit (b : Block) (u : Nat) : Block :=
  if isSu u then { b with faults := { b.faults with ownFence := b.faults.ownFence.erase u } }.setBit 0x2802 3 u false
  else if isWing u then { b with faults := { b.faults with returning := (b.faults.returning ++ [u - 0x20]).eraseDups } }
  else if isAgent u then b.setBit 0x2802 (0x10 + (u - 0x100) / 64) ((u - 0x100) % 64) false
  else if isPortUnit u then
    let b1 := b.setBit 0x2802 6 (u - 0x300) false
    if 8 ≤ b1.startUp.step then b1.applyPortEnable else b1
  else if isWay u then b.setBit 0x2802 7 (u - 0x400) false
  else if u == 0x500 then
    let b1 : Block := { b with faults := { b.faults with bridgeFenced := false } }
    match b1.cache.gone with
    | some south => if b1.wingEnabled (if south then .south else .north) then b1 else b1.takeUpHalf south
    | none => b1
  else if isCopy u then (b.setBit 0x2802 8 (u - 0x600) false).compareCopies u
  else b.setOd 0x2802 9 0

/-- A RESTORE: its result; the RESTORED event of a wing waits for its return (R511, R520, log 34). -/
def restoreWord (b : Block) (u : Nat) : Nat × Block :=
  if !unitKnown u then (1, b)
  else if !b.fenced u then (2, b)
  else if b.openNames u then (3, b)
  else if (isAgent u && !b.agentUsable (u - 0x100)) || (isWing u && b.faults.bridgeFenced) then (4, b)
  else (0, if isWing u then b.restoreUnit u else (b.restoreUnit u).event 2 u)

/-- The fence control word: its result in OD 0x2802.02 (R509). -/
def fenceControl (b : Block) (word : Nat) : Block :=
  let u := bits word 15 0
  let r :=
    match bits word 19 16 with
    | 1 => b.fenceWord u
    | 2 => b.restoreWord u
    | _ => (6, b)
  r.2.setOd 0x2802 2 r.1

/-- A restored wing returns as follower, with the stream units that were fenced with it and, after R514, its row-cache half
(R511, R513, R514); a stream unit fenced on its own account stays in detention until its own RESTORE (log 34). -/
def wingReturn (b : Block) (w : Wing) : Block :=
  let n := wingNo w
  if !b.faults.returning.contains n || b.faults.bridgeFenced then b
  else
    let b0 : Block := { b with faults := { b.faults with returning := b.faults.returning.filter (· != n) } }
    let sus := ((List.range 16).map (· + 16 * n)).filter (fun su => !b0.faults.ownFence.contains su)
    let b1 := sus.foldl (fun b su => b.setBit 0x2802 3 su false) (b0.setBit 0x2802 4 n false)
    let b2 := if b1.cache.gone == some (n == 1) then b1.takeUpHalf (n == 1) else b1
    (b2.setEngine w WingEngine.empty).event 2 (0x20 + n)

/-- A record closed (R506). -/
def closeRecord (b : Block) (k : Nat) : Block :=
  let b1 := b.setOd 0x2810 k (b.slotRec k - 2 ^ 44)
  ({ b1 with faults := { b1.faults with opened := mapErase b1.faults.opened k } } : Block).setOd 0x2801 1 b1.openRecs.length

/-- The acknowledgement of a fault number (R506). -/
def acknowledge (b : Block) (number : Nat) : Block :=
  match b.openRecs.find? (fun k => bits (b.slotRec k) 31 0 == number) with
  | none => b.setOd 0x2801 4 1
  | some k => (b.closeRecord k).setOd 0x2801 4 0

/-- AUTO_ACK: a level 0 record open for OD 0x2801.02 µs is closed (R507, log 2). -/
def autoAck (b : Block) (k : Nat) : Block :=
  let us := b.od' 0x2801 2
  if us == 0 || !b.openRecs.contains k || bits (b.slotRec k) 41 40 != 0 then b
  else ({ b with time := max b.time (mapGet b.faults.opened 0 k + 1000 * us) } : Block).closeRecord k

/-! ### Injection (R524) -/

/-- An accepted injection word: armed and counted. Copies compare every result, so that a fed comparison fails at once,
or when both are in service again. -/
def armInjection (b : Block) (word : Nat) : Block :=
  let u := bits word 15 0
  let c := bits word 19 16
  let b1 := b.count 0x2804 3 1
  let b2 : Block := { b1 with faults := { b1.faults with
    injections := b1.faults.injections ++ [{ unit := u, checker := c, left := bits word 27 20 }] } }
  if c == 6 then b2.compareCopies u else b2

/-! ### The prefect lease (R515, R516) -/

/-- The lease runs: from step 5 of start-up, in STARTING and READY. -/
def leaseRuns (b : Block) : Bool := 5 ≤ b.startUp.step && (b.engineState == 1 || b.ready)

/-- The follower wing is in service. -/
def followerUp (b : Block) : Bool := b.wingUp b.follower

/-- The holder's lease has run out. -/
def leaseOver (b : Block) : Bool := b.faults.renewed + 14000 ≤ b.time

/-- A conflict resolved: the higher epoch keeps the token, North on a tie; the loser is named in a LEASE record (R516). -/
def conflict (b : Block) : Block :=
  let n := b.faults.epochNorth
  let s := b.faults.epochSouth
  let w : Wing := if n < s then .south else .north
  let b1 := (b.count 0x2803 4 1).count 0x2803 3 (b2n (b.holderWing != w))
  let b2 := ((b1.setOd 0x2803 1 (wingNo w)).count 0x2803 2 1).takeEpoch w
  let b3 : Block := { b2 with faults := { b2.faults with renewed := b2.time, claim := false, lapsed := false } }
  (b3.tokenEvent 1).found 0x0B (0x20 + wingNo (otherWing w)) 0 false

/-- The follower's uncontested claim granted (R515): a LEASE record names the wing whose lease lapsed. -/
def grantClaim (b : Block) : Block :=
  let old := b.holderWing
  (b.giveToken b.follower 0).found 0x0B (0x20 + wingNo old) 0 false

/-- Transfers of the bridge that still carry inverted check bits. -/
def bridgeBad (b : Block) : Nat :=
  ((b.faults.injections.filter (fun i => i.unit == 0x500 && i.checker == 8)).map (·.left)).sum

/-- A confirmation sent to the follower across the bridge; five bad transfers in a row, the first and 4 retries, are
BRIDGE_DOWN (R501, R515, R524). -/
def confirm (b : Block) : Block :=
  if !b.followerUp || b.faults.bridgeFenced then b
  else if 5 ≤ b.bridgeBad then
    ((List.range 5).foldl (fun (b : Block) _ => (b.injected 0x500 8).2) b).found 9 0x500 0 true
  else
    let b1 := (List.range b.bridgeBad).foldl (fun (b : Block) _ => (b.injected 0x500 8).2) b
    let b2 := b1.takeEpoch b1.follower
    { b2 with faults := { b2.faults with confirmed := b2.time } }

/-- LEASE_RENEWAL by the holder: after a waiting claim it is a conflict; one whose check bits fail is rejected. -/
def renewLease (b : Block) : Block :=
  if !b.leaseRuns || !b.wingUp b.holderWing then b
  else
    let i := b.injected (0x20 + wingNo b.holderWing) 7
    if i.1 then i.2
    else if b.faults.claim then i.2.conflict
    else ({ i.2 with faults := { i.2.faults with renewed := i.2.time, lapsed := false } } : Block).confirm

/-- LEASE_LAPSE: 14 µs without a renewal (log 2). Without a follower in service the holder keeps the token, and the
record names it. -/
def lapseLease (b : Block) : Block :=
  if !b.leaseRuns then b
  else
    let b1 : Block := { b with time := max b.time (b.faults.renewed + 14000) }
    if !b1.followerUp then
      (if b1.faults.lapsed then b1
       else ({ b1 with faults := { b1.faults with lapsed := true } } : Block).found 0x0B (0x20 + wingNo b1.holderWing) 0 false)
    else if b1.faults.claim then b1.grantClaim
    else { b1 with faults := { b1.faults with lapsed := true } }

/-- TOKEN_CLAIM: the follower has seen no confirmation for 14 µs (log 2). Against a current lease it is a conflict;
after a lapse it is granted; else it waits for the lapse or for a renewal. -/
def claimToken (b : Block) : Block :=
  if !b.leaseRuns || !b.followerUp then b
  else
    let b1 : Block := { b with time := max b.time (b.faults.confirmed + 14000) }
    if !b1.leaseOver then b1.conflict
    else if b1.faults.lapsed then b1.grantClaim
    else { b1 with faults := { b1.faults with claim := true } }

/-! ### Reports -/

/-- What an agent that receives an uncorrectable unit keeps of it: the count, and for the model that the memory may report
the unit again (R337, R547). -/
def memoryReport (b : Block) (cls unit addr : Nat) : Block :=
  if cls != 1 || b.fenced unit || !inTier addr || unit != 0x100 + agentOf addr || b.absent addr then b
  else
    let b1 := b.count 0x2504 (if inFast addr then 2 else 4) 1
    let u := unitBase addr
    if b1.agents.poisoned.contains u || b1.agents.failing.contains u then b1
    else { b1 with agents := { b1.agents with failing := b1.agents.failing ++ [u] } }

/-- A fault that a checker reports (R500 to R505, R521); without core rail good the engine has no state and reports none
(R536). -/
def report (b : Block) (cls unit addr detail : Nat) : Block :=
  if b.powered && classKnown cls && unitKnown unit then (b.memoryReport cls unit addr).raiseFault cls unit addr detail false
  else b

end Block

/-- FAULT: a checker reports a fault, which the collector grades and reacts to (R500 to R505, R508 to R517, R521). -/
def execFault (cls unit addr detail : Nat) (s : State) : Out := finish s (s.blk.report cls unit addr detail)

/-- ISLAND_STALL (R501, R502). -/
def execIslandStall (island : Island) (s : State) : Out :=
  let u := islandUnit island
  finish s (if s.blk.powered && unitKnown u then s.blk.found 8 u 0 false else s.blk)

/-- BRIDGE_DOWN (R501, R513, R514). -/
def execBridgeDown (s : State) : Out := finish s (if s.blk.powered then s.blk.found 9 0x500 0 false else s.blk)

/-- AUTO_ACK (R507). -/
def execAutoAck (slot : Nat) (s : State) : Out := finish s (s.blk.autoAck slot)

/-- LEASE_RENEWAL (R515, R516). -/
def execLeaseRenewal (s : State) : Out := finish s s.blk.renewLease

/-- LEASE_LAPSE (R515). -/
def execLeaseLapse (s : State) : Out := finish s s.blk.lapseLease

/-- TOKEN_CLAIM (R515, R516). -/
def execTokenClaim (s : State) : Out := finish s s.blk.claimToken

/-- WING_RETURN (R511, R514). -/
def execWingReturn (w : Wing) (s : State) : Out := finish s (s.blk.wingReturn w)

end Sys2Proof.Machine
end

