-- ==== Sys2Proof/Machine/Tiers.lean ====
section
/-! DEFINITION. Memory tiers beyond single accesses (11_memory_tiers_cache.md R343 to R349): heat in the stacks and
ordered retrains; and the start-up steps of the engine up to READY (16_startup_reset_reattach.md R477 to R481), which
tier training is one of. -/

namespace Sys2Proof.Machine

/-- The state that a reading gives: entered at or above its threshold, left below the threshold of the state left minus
the hysteresis (R344, R538). `thr` holds the thresholds of states 1 to 3. -/
def thermalNext (thr : List Nat) (hys state temp : Nat) : Nat :=
  let up := (thr.filter (· ≤ temp)).length
  if state < up then up
  else if 3 ≤ state && temp + hys < thr.getD 2 0 then
    (if temp + hys < thr.getD 1 0 then (if temp + hys < thr.getD 0 0 then 0 else 1) else 2)
  else if state == 2 && temp + hys < thr.getD 1 0 then (if temp + hys < thr.getD 0 0 then 0 else 1)
  else if state == 1 && temp + hys < thr.getD 0 0 then 0
  else state

namespace Block

/-! ### Heat in the stacks (R343 to R345) -/

/-- The reading of one stack: held, and its state changed with one event. -/
def stackReading (b : Block) (k temp : Nat) : Block :=
  let old := b.od' 0x2502 (0x11 + k)
  let new := thermalNext ((List.range 3).map (fun i => b.od' 0x2501 (i + 1))) (b.od' 0x2501 4) old temp
  let b1 := (b.setOd 0x2502 (k + 1) temp).setOd 0x2502 (0x11 + k) new
  if new == old then b1 else b1.event 5 (pack [(0, k), (8, temp), (16, old), (18, new), (32, b.time)])

/-- STACK_TEMPERATURE_READ: the stacks present are read. -/
def readStacks (b : Block) (temps : List Nat) : Block :=
  if !b.powered || b.engineState == 4 then b
  else (List.range (b.od' 0x2500 2)).foldl (fun b k =>
    match temps[k]? with
    | none => b
    | some t => b.stackReading k t) b

/-! ### Training and retrains (R347 to R349) -/

/-- An agent whose channel training found unusable: CHANNEL_UNUSABLE places it in detention (R348). -/
def unusable (b : Block) (a : Nat) : Block :=
  if bit (b.od' 0x1000 (0x10 + a / 64)) (a % 64) && !b.fenced (0x100 + a) then b.found 0x0D (0x100 + a) 0 false else b

/-- Lanes repaired and unusable channels of one stack recorded (R347). -/
def recordStack (b : Block) (repaired mask : List Nat) (k : Nat) : Block :=
  let m := mask.getD k 0
  let b1 := (b.setOd 0x2505 (k + 1) (repaired.getD k 0 % 256)).setOd 0x2505 (0x11 + k) m
  ((List.range 32).filter (fun c => bit m c)).foldl (fun b c => b.unusable (32 * k + c)) b1

/-- The tiers have been trained and take requests: READY, STOPPED with the write-backs its agents still perform, or a
start-up past its step 7 (R476, R477, R517). -/
def tiersRun (b : Block) : Bool := b.ready || b.engineState == 3 || (b.engineState == 1 && b.startUp.trained)

/-- STACK_RETRAIN: the stack's agents hold every request for it. -/
def beginRetrain (b : Block) (k : Nat) : Block :=
  if !b.tiersRun || b.od' 0x2500 2 ≤ k || b.agents.retrains.any (fun r => r.1 == k) then b
  else { b with agents := { b.agents with retrains := b.agents.retrains ++ [(k, some b.time)] } }

/-- A request that still waits after 1 ms: a write is dropped, a row operation is not performed, and each counts
(R349). -/
def expireRequests (b : Block) (k : Nat) : Block :=
  let mine := fun (r : AgentReq) => r.port < 256 && r.port / 32 == k
  let ops := (b.agents.queue.filter (fun r => mine r && ((rowSpan r.op).isSome || (writeSpan r.op).isNone))).length
  (b.dropRequests mine).count 0x2504 0x0C ops

/-- STACK_HOLD_EXPIRY: 1 ms after the retrain began (log 2), what waits is answered. -/
def expireHold (m : Memory) (b : Block) (k : Nat) : Block :=
  match (b.agents.retrains.find? (fun r => r.1 == k)).bind (·.2) with
  | none => b
  | some t =>
    let b1 : Block := { b with
      time := max b.time (t + 1000000),
      agents := { b.agents with retrains := updFirst (fun r => r.1 == k) (fun r => (r.1, none)) b.agents.retrains } }
    (b1.expireRequests k).serveWords m

/-! ### Start-up (R477 to R481) -/

/-- An enable at step 11 whose ring is enabled already changes nothing. -/
def enableBuiltIn (m : Memory) (b : Block) : Block :=
  let c := enableCq m b 0
  (enableSq m c.2 0).2

/-- Step 11 of R477: the commit epoch, the built-in rings, the counters, READY; telemetry runs from now (R15). -/
def enterReady (m : Memory) (b : Block) : Block :=
  let b1 := enableBuiltIn m (b.setOd 0x2702 3 0)
  let b2 := ((b1.setOd 0x2000 7 b1.time).count32 0x2000 6 1).setOd 0x1000 0x0D 0
  { b2.setOd 0x2000 4 2 with startUp := { b2.startUp with step := 11, telemetry := true } }

/-- Start-up ends once steps 6 to 9 have and no hold is set at step 10 (R477, R479). -/
def tryReady (m : Memory) (b : Block) : Block :=
  if b.engineState == 1 && b.startUp.step == 8 && b.startUp.cacheReady && b.startUp.trained && b.startUp.timebaseSet &&
      b.od' 0x2000 9 == 0 then b.enterReady m
  else b

/-- TIER_TRAINING_DONE: step 7 of start-up, or the end of ordered retrains (R347 to R349). -/
def trainingDone (m : Memory) (b : Block) (repaired mask : List Nat) (bulk : Nat) : Block :=
  if b.engineState == 1 && 5 ≤ b.startUp.step && !b.startUp.trained then
    let b1 := ((List.range (b.od' 0x2500 2)).foldl (fun b k => b.recordStack repaired mask k) b).setOd 0x2505 0x21
      (bulk % 2 ^ b.od' 0x2500 4)
    let b2 := ((List.range 24).filter (fun c => bit bulk c)).foldl (fun b c => b.unusable (256 + c)) b1
    ({ b2 with startUp := { b2.startUp with trained := true } } : Block).tryReady m
  else
    let ks := b.agents.retrains.map (·.1)
    let b1 := ks.foldl (fun b k => b.recordStack repaired mask k) b
    ({ b1 with agents := { b1.agents with retrains := [] } } : Block).serveWords m

end Block

/-- STACK_TEMPERATURE_READ (R343 to R345). -/
def execStackTemperatureRead (temps : List Nat) (s : State) : Out := finish s (s.blk.readStacks temps)
/-- STACK_RETRAIN (R349). -/
def execStackRetrain (stack : Nat) (s : State) : Out := finish s (s.blk.beginRetrain stack)
/-- STACK_HOLD_EXPIRY (R349). -/
def execStackHoldExpiry (stack : Nat) (s : State) : Out := finish s (Block.expireHold s.mem s.blk stack)
/-- TIER_TRAINING_DONE (R347 to R349, R477). -/
def execTierTrainingDone (repaired unusable : List Nat) (unusableBulk : Nat) (s : State) : Out :=
  finish s (Block.trainingDone s.mem s.blk repaired unusable unusableBulk)

end Sys2Proof.Machine
end

