-- ==== Sys2Proof/Machine/Startup.lean ====
section
/-! DEFINITION. Start-up from the record on, the roll-call digest, and the host link (16_startup_reset_reattach.md R477
to R497, 15_object_dictionary.md R470 to R473, 18_power_timing_thermal.md R536). -/

namespace Sys2Proof.Machine

namespace Block

/-! ### Wide entries and the digest (R455, R471 to R473) -/

/-- A wide entry of wide slot w changed: its sequence count moves past odd to even (R455). -/
def setWide (b : Block) (w index sub v : Nat) : Block :=
  if b.od' index sub == v then b
  else ({ b with dict := { b.dict with
    wideSeq := mapSet b.dict.wideSeq 0 w (add64 (mapGet b.dict.wideSeq 0 w) 2) } } : Block).setOd index sub v

/-- The 12-byte record of one federation-scoped entry (R472). -/
def digestRecord (b : Block) (key : Nat) : Bytes :=
  let code := ((odFind key).map (fun r => r.ty.code)).getD 0
  natLE 4 (pack [(0, key / 256), (16, key % 256), (24, code)]) ++ natLE 8 (b.od' (key / 256) (key % 256))

/-- The roll-call digest over the present values (R472). -/
def digest (b : Block) : Nat := leNat ((sha256 (federationKeys.flatMap b.digestRecord)).take 16)

/-- OD 0x2702.02 formed anew; a changed digest goes out in a BEACON (R473). -/
def renewDigest (b : Block) : Block :=
  let d := b.digest
  if b.od' 0x2702 2 == d then b else (b.setWide 3 0x2702 2 d).sendBeacons

/-! ### Steps 1 to 9 (R477 to R480, R536) -/

/-- Core rail good is withdrawn: the engine loses all state; the package timebase runs on (R536). -/
def railOff (b : Block) : Block :=
  { Block.reset with time := b.time, freeCount := b.freeCount, nextFlow := b.nextFlow, startUp := { Block.reset.startUp with
      step := 0, expiredBelow := b.nextFlow } }

/-- A cold start: steps 1 and 2, every entry at its default (R482, R545). -/
def coldStart (b : Block) : Block :=
  { Block.reset with time := b.time, freeCount := b.freeCount, nextFlow := b.nextFlow, startUp := { Block.reset.startUp with
      expiredBelow := b.nextFlow } }

/-- HALTED with its cause; every port DISABLED (R476, R478, R482). -/
def halt (b : Block) (cause : Nat) : Block :=
  (List.range 32).foldl (fun b n => b.setOd 0x2701 (n + 1) psDisabled)
    (((b.setOd 0x2000 4 4).setOd 0x1000 0x0D cause).setOd 0x2000 8 4)

/-- The satchel pool entries follow OD 0x2602.01 (R366, R392). -/
def showPools (b : Block) : Block :=
  let pool := 16384 - 2048 - 16 * b.od' 0x2602 1
  (b.setOd 0x2600 3 pool).setOd 0x2600 4 pool

/-- One default override: checked under R452 and R453, and ignored where it fails (R470). -/
def override (b : Block) (o : Nat × Nat) : Block :=
  match odFind o.1 with
  | none => b
  | some r =>
    if (r.acc == .rw || r.acc == .rwc || r.acc == .rwl) && odInRange (b.od' 0x1000 6) o.1 r o.2 then
      (b.setOd (o.1 / 256) (o.1 % 256) o.2).count32 0x1000 0x0C 1
    else b

/-- The identity and the silicon step (R474). -/
def setIdentity (b : Block) (identity siliconStep : Nat) : Block :=
  ({ (((b.setWide 1 0x1000 8 identity).setOd 0x1000 7 (identity % 2 ^ 64)).setOd 0x1000 4 siliconStep) with
    startUp := { b.startUp with identity := identity, siliconStep := siliconStep } } : Block)

/-- Step 4: what the record gives, then its overrides, then the digest. -/
def applyRecord (b : Block) (r : ConfigRecord) : Block :=
  let b1 := (((b.setOd 0x1000 6 r.configuration).setOd 0x1000 3 r.iana).setOd 0x1000 9 (r.wings % 4)).setOd 0x2700 1
    (r.package % 64)
  let b2 := (List.range 5).foldl (fun b k => b.setOd 0x1000 (0x10 + k) (bits r.agents (64 * k + 63) (64 * k))) b1
  let b3 := (r.overrides.foldl override (b2.setWide 2 0x1000 0x0B r.digest)).showPools
  let b4 := b3.setWide 3 0x2702 2 b3.digest
  { b4 with startUp := { b4.startUp with config := some r } }

/-- Step 5: the token to North, or to South, with lease epoch 1. -/
def firstToken (b : Block) : Block :=
  let w : Wing := if b.wingEnabled .north then .north else .south
  let b1 := ((b.setOd 0x2803 1 (wingNo w)).setOd 0x2803 2 1).takeEpoch w
  { b1 with faults := { b1.faults with renewed := b1.time, confirmed := b1.time } }

/-- Step 8: the incarnation drawn and the ports enabled. -/
def openPorts (b : Block) : Block :=
  let n := b.fresh
  let b1 := (n.2.setOd 0x2700 4 ((Config.freeIncarnation n.1).val + 1)).applyPortEnable
  { b1 with startUp := { b1.startUp with step := 8, portsAt := b1.time } }

/-- CONFIGURATION_RECORD: steps 3 to 5, and step 8, which waits for no other; or HALTED (R477, R478). -/
def takeRecord (m : Memory) (b : Block) (identity siliconStep : Nat) (v : Verdict) : Block :=
  if b.engineState != 1 || b.startUp.step != 2 then b
  else
    let b1 := b.setIdentity (identity % 2 ^ 128) (siliconStep % 65536)
    match v with
    | .noRecord => b1.halt 1
    | .invalid => b1.halt 2
    | .valid r =>
      if r.wings % 4 == 0 then (b1.applyRecord r).halt 3
      else (((b1.applyRecord r).firstToken).openPorts).tryReady m

/-- ROW_CACHE_INITIALISED: step 6. -/
def cacheReady (m : Memory) (b : Block) : Block :=
  if b.engineState != 1 || b.startUp.step != 8 || b.startUp.cacheReady then b
  else ({ b with cache := Block.reset.cache, startUp := { b.startUp with cacheReady := true } } : Block).tryReady m

/-- TIMEBASE_WAIT_EXPIRY: 12 ms after step 8 without the BEACON of step 9 (log 2). -/
def timebaseWait (m : Memory) (b : Block) : Block :=
  if b.engineState != 1 || b.startUp.step != 8 || b.startUp.timebaseSet then b
  else
    ({ b with time := max b.time (b.startUp.portsAt + 12000000),
              startUp := { b.startUp with timebaseSet := true } } : Block).tryReady m

/-! ### The host link (R485 to R491, R497) -/

/-- KiB of writes that the host link holds, rounded up. -/
def heldKib (b : Block) : Nat :=
  ceilDiv (((b.agents.queue.filter (fun r => r.port == Config.hostPort)).filterMap (fun r => writeSpan r.op)).map
    (fun w => w.data.length)).sum 1024

/-- One HOST_LINK event. -/
def linkEvent (b : Block) (kind queues old held : Nat) : Block :=
  b.event 7 (pack [(0, kind), (16, min 65535 queues), (32, b.od' 0x2202 1), (64, old), (96, b.time), (160, held)])

/-- A write dropped for a flow: its blocks counted, the flow cut off (R487). -/
def dropHostWrite (b : Block) (r : AgentReq) : Block :=
  let b1 := b.count 0x2202 0x0A (heldWrites r)
  match r.flow.bind b1.flow? with
  | none => b1
  | some f =>
    let n := match writeSpan r.op with
      | some w => (cutPages w.addr w.data.length).length
      | none => 1
    b1.modFlow f.id (fun g => { g with cut := true, blocksDropped := min 65535 (g.blocksDropped + n) })

/-- Held writes dropped and counted, and the flows with a held access cut off and ended (R487, R490). -/
def dropHeldOf (b : Block) (hit : AgentReq → Bool) (waits : Flow → Bool) : Block :=
  let gone := b.agents.queue.filter (fun r => r.port == Config.hostPort && hit r)
  let ids := (gone.filterMap (·.flow) ++ (b.flows.filter (fun f => f.held && waits f)).map (·.id)).eraseDups
  let b1 : Block := { b with agents := { b.agents with
    queue := b.agents.queue.filter (fun r => !(r.port == Config.hostPort && hit r)) } }
  let b2 := gone.foldl dropHostWrite b1
  ids.foldl (fun b id =>
    match b.flow? id with
    | none => b
    | some f => (b.modFlow id (fun g => { g with cut := true, held := false })).endCut f) b2

/-- The flow of a request is of an older epoch; what the engine writes for no flow counts as issued before. -/
def oldRequest (b : Block) (r : AgentReq) : Bool :=
  match r.flow.bind b.flow? with
  | none => true
  | some f => f.epoch != b.od' 0x2202 1

/-- A new host epoch (R491): held accesses of older flows dropped, rings of the old epoch orphaned, one EPOCH_CHANGE. -/
def changeEpoch (b : Block) (epoch : Nat) : Block :=
  let old := b.od' 0x2202 1
  if epoch == old then b
  else
    let held := b.heldKib
    let b1 := (b.setOd 0x2202 1 epoch).count 0x2202 0x0C 1
    let b2 := if b1.od' 0x2202 2 == 2 then b1.dropHeldOf b1.oldRequest (fun f => f.epoch != epoch) else b1
    let r := b2.orphan old
    r.2.linkEvent 4 r.1 old held

/-- LINK_UP: the link comes up for the first time, or after a hold has expired; then the epoch is read (R480, R490). -/
def linkUp (b : Block) (epoch : Nat) : Block :=
  let st := b.od' 0x2202 2
  if !b.powered || !(st == 0 || st == 3) then b
  else ((b.setOd 0x2202 2 1).linkEvent 0 0 (b.od' 0x2202 1) 0).changeEpoch epoch

/-- RETRAIN_BEGIN: the link holds outbound accesses from now (R488). -/
def retrainBegin (b : Block) : Block :=
  if b.od' 0x2202 2 != 1 then b
  else
    let b1 := (b.setOd 0x2202 2 2).count 0x2202 0x0B 1
    ({ b1 with startUp := { b1.startUp with retrainAt := b1.time } } : Block).linkEvent 1 0 (b.od' 0x2202 1) 0

/-- One held access sent, and what the engine does behind it. -/
def sendHeld (m : Memory) (b : Block) (r : AgentReq) : Block :=
  match r.op with
  | .blockWrite a d crc => r.after.foldl runAfter (b.performWrite m r a d crc)
  | .record a d mark => b.hostRecord m r.flow a d mark
  | _ => b

/-- Every held access sent in its order (R489). -/
def replayHeld (m : Memory) (b : Block) : Block :=
  let held := b.agents.queue.filter (fun r => r.port == Config.hostPort)
  let b1 : Block := { b with
    agents := { b.agents with queue := b.agents.queue.filter (fun r => r.port != Config.hostPort) },
    flows := b.flows.map (fun f => { f with held := false }) }
  held.foldl (fun b r => b.sendHeld m r) b1

/-- RETRAIN_END: with the same epoch what is held goes out; with a new one R491 applies (R489 to R491). -/
def retrainEnd (m : Memory) (b : Block) (epoch : Nat) : Block :=
  if b.od' 0x2202 2 != 2 then b
  else
    let old := b.od' 0x2202 1
    if epoch == old then
      let held := b.heldKib
      ((b.setOd 0x2202 2 1).replayHeld m).linkEvent 2 0 old held
    else
      let b1 := (b.changeEpoch epoch).setOd 0x2202 2 1
      b1.replayHeld m

/-- HOLD_EXPIRED: 2 ms after the retrain began (log 2): held accesses dropped, host-attached rings orphaned (R490). -/
def holdExpired (b : Block) : Block :=
  if b.od' 0x2202 2 != 2 then b
  else
    let held := b.heldKib
    let b0 : Block := { b with time := max b.time (b.startUp.retrainAt + 2000000) }
    let b1 := (b0.setOd 0x2202 2 3).dropHeldOf (fun _ => true) (fun _ => true)
    let b2 : Block := { b1 with startUp := { b1.startUp with expiredBelow := b1.nextFlow } }
    let r := b2.orphan (b2.od' 0x2202 1)
    r.2.linkEvent 3 r.1 (b.od' 0x2202 1) held

/-- EPOCH_CHANGE: the fabric port reports a new epoch (R491). Before the link has come up none is held (R485). -/
def epochChange (b : Block) (epoch : Nat) : Block :=
  if b.od' 0x2202 2 == 0 then b else b.changeEpoch epoch

end Block

/-- Memory once the rail has gone: the tiers read as after power-on (log 3), host memory stands. -/
def tiersLost (m : Memory) : Memory := m.filter (fun c => !inTier c.1)

/-- CORE_RAIL_GOOD: a cold start after the rail was off (R477, R482). -/
def execCoreRailGood (s : State) : Out := finish s (if s.blk.powered then s.blk else s.blk.coldStart)
/-- CORE_RAIL_GOOD_WITHDRAWN (R536). -/
def execCoreRailGoodWithdrawn (s : State) : Out :=
  finish { s with mem := tiersLost s.mem } s.blk.railOff
/-- CONFIGURATION_RECORD (R470, R477, R478). -/
def execConfigurationRecord (identity siliconStep : Nat) (v : Verdict) (s : State) : Out :=
  finish s (Block.takeRecord s.mem s.blk identity siliconStep v)
/-- ROW_CACHE_INITIALISED (R477). -/
def execRowCacheInitialised (s : State) : Out := finish s (Block.cacheReady s.mem s.blk)
/-- TIMEBASE_WAIT_EXPIRY (R477). -/
def execTimebaseWaitExpiry (s : State) : Out := finish s (Block.timebaseWait s.mem s.blk)
/-- LINK_UP (R480, R490, R497). -/
def execLinkUp (epoch : Nat) (s : State) : Out := finish s ((s.blk.linkUp epoch).serveWords s.mem)
/-- RETRAIN_BEGIN (R488, R497). -/
def execRetrainBegin (s : State) : Out := finish s s.blk.retrainBegin
/-- RETRAIN_END (R489, R491, R497). -/
def execRetrainEnd (epoch : Nat) (s : State) : Out := finish s ((Block.retrainEnd s.mem s.blk epoch).serveWords s.mem)
/-- HOLD_EXPIRED (R490, R497). -/
def execHoldExpired (s : State) : Out := finish s (s.blk.holdExpired.serveWords s.mem)
/-- EPOCH_CHANGE (R485, R491, R497). -/
def execEpochChange (epoch : Nat) (s : State) : Out := finish s ((s.blk.epochChange epoch).serveWords s.mem)

end Sys2Proof.Machine
end

