-- ==== Sys2Proof/Machine/Dictionary.lean ====
section
/-! DEFINITION. The object dictionary's accesses (15_object_dictionary.md): one write as both paths perform it (R453,
R457, R460), the window (R454 to R456), Tursioc and control messages (R458, R459), commit sets (R463 to R469, R548), and
the rows that are writes of an entry with a behaviour of its own. -/

namespace Sys2Proof.Machine

/-- Access results (R460). -/
def accOk : Nat := 0
def accNeedsCommit : Nat := 0x0801
def accNoEntry : Nat := 0x0802
def accReadOnly : Nat := 0x0803
def accLocked : Nat := 0x0804
def accRange : Nat := 0x0805
def accWidth : Nat := 0x0806
def accBusy : Nat := 0x0807
def accRefused : Nat := 0x0808
def accPath : Nat := 0x0809
def accBadMessage : Nat := 0x080A

/-- A signal word (R387). -/
def isSignalKey (key : Nat) : Bool := 0x2610 ≤ key / 256 && key / 256 ≤ 0x261F

/-- Entries that are writable over MCTP alone (R457, R479, R484, R524). -/
def mctpOnly (key : Nat) : Bool :=
  key == odKey 0x1100 3 || key == odKey 0x2000 5 || key == odKey 0x2000 9 || key == odKey 0x2804 1

/-- Range 1 lies wholly in one tier. -/
def tierRange (a len : Nat) : Bool := (inFast a && inFast (a + len - 1)) || (inBulk a && inBulk (a + len - 1))

/-- Two ranges overlap. -/
def overlap (x y : Nat × Nat) : Bool := x.1 < y.1 + y.2 && y.1 < x.1 + x.2

/-- Some two ranges of a list overlap. -/
def anyOverlap : List (Nat × Nat) → Bool
  | [] => false
  | x :: xs => xs.any (overlap x) || anyOverlap xs

/-- A set that a chapter names (R463, R498, R525, R542). -/
def setNamed (n : Nat) : Bool := 1 ≤ n && n ≤ 10

/-- A request on the management port that has arrived whole: the endpoint that asks, the message tag, and the message from
its type byte on (R458). -/
structure Request where
  source : Nat
  tag : Nat
  body : Bytes
  deriving DecidableEq, Repr

namespace Block

/-! ### Commit sets -/

/-- The staging of a set; none while it is IDLE. -/
def staging? (b : Block) (n : Nat) : Option Staging := b.dict.staging.find? (fun s => s.set == n)

/-- The state entry of a set (R465). -/
def showSet (b : Block) (n : Nat) : Block :=
  b.setOd 0x1F00 (0x20 + n) (match b.staging? n with
    | none => 0
    | some s => pack [(0, if s.committing then 2 else 1), (8, min 255 s.copy.length), (16, s.owner)])

/-- A staging put in place, and its state shown. -/
def putStaging (b : Block) (s : Staging) : Block :=
  ({ b with dict := { b.dict with staging := b.dict.staging.filter (fun x => x.set != s.set) ++ [s] } } : Block).showSet s.set

/-- The set back to IDLE. -/
def dropStaging (b : Block) (n : Nat) : Block :=
  ({ b with dict := { b.dict with staging := b.dict.staging.filter (fun x => x.set != n) } } : Block).showSet n

/-- OD 0x1F00.02 (R468). -/
def commitResult (b : Block) (code n member : Nat) : Block := b.setOd 0x1F00 2 (pack [(0, code), (16, n), (24, member)])

/-- A member as the staging copy holds it. -/
def staged (b : Block) (s : Staging) (index sub : Nat) : Nat :=
  ((s.copy.find? (fun e => e.1 == odKey index sub)).map (·.2)).getD (b.od' index sub)

/-- The CRC windows with BLOCKS above 0: number, DATA_BASE, BLOCKS, CRC_BASE. -/
def stagedWindows (b : Block) (s : Staging) : List (Nat × Nat × Nat × Nat) :=
  ((List.range 16).map (fun w =>
    (w, b.staged s 0x2503 (3 * w + 1), b.staged s 0x2503 (3 * w + 2), b.staged s 0x2503 (3 * w + 3)))).filter
      (fun w => w.2.2.1 != 0)

/-- The member that a check of R339 finds wrong; 0 where no single one is. -/
def crcFault (b : Block) (s : Staging) : Option Nat :=
  let ws := b.stagedWindows s
  match ws.find? (fun w => !aligned w.2.1 4096) with
  | some w => some (odKey 0x2503 (3 * w.1 + 1))
  | none =>
    match ws.find? (fun w => !aligned w.2.2.2 64 || !tierRange w.2.2.2 (4 * w.2.2.1)) with
    | some w => some (odKey 0x2503 (3 * w.1 + 3))
    | none =>
      if anyOverlap (ws.map (fun w => (w.2.1, 4096 * w.2.2.1))) || anyOverlap (ws.map (fun w => (w.2.2.2, 4 * w.2.2.1))) then
        some 0
      else none

/-- A satchel queue descriptor breaks R365. -/
def satDescBad (d : Nat) : Bool :=
  let depth := bits d 14 8
  depth == 0 || 64 < depth || bits d 19 16 < 12 || 18 < bits d 19 16 || depth ≤ bits d 23 20 || bits d 7 3 != 0 ||
    bits d 15 15 != 0 || bits d 31 24 != 0 || bits d 255 56 != 0

/-- The valid descriptors of the satchel queues as a commit reads them, and whether one breaks R365 or is poisoned (R364,
log 32); a base of 0 holds none (R392). -/
def readSatchels (m : Memory) (b : Block) (base count : Nat) : List (Nat × Nat) × Bool × Block :=
  (List.range (if base == 0 then 0 else count)).foldl (fun (acc : List (Nat × Nat) × Bool × Block) q =>
    let r := readOwn m acc.2.2 (base + 32 * q) 32
    let d := leNat r.1
    if r.2.1 then (acc.1, true, r.2.2)
    else if !bit d 0 then (acc.1, acc.2.1, r.2.2)
    else (acc.1 ++ [(q, d)], acc.2.1 || satDescBad d, r.2.2)) ([], false, b)

/-- Bytes that the valid queues of a wing take. -/
def satBytes (qs : List (Nat × Nat)) (south : Bool) : Nat :=
  ((qs.filter (fun q => bit q.2 1 == south)).map (fun q => bits q.2 14 8 * 2 ^ bits q.2 19 16)).sum

/-- The pool of a wing in KiB (R366). -/
def poolKib (b : Block) : Nat := 16384 - 2048 - 16 * b.od' 0x2602 1

/-- R366: a commit of the satchels set whose descriptors keep R365 is refused. -/
def satchelsBad (b : Block) (qs : List (Nat × Nat)) : Bool :=
  1024 * b.poolKib < satBytes qs false || 1024 * b.poolKib < satBytes qs true ||
    b.flows.any (fun f => f.intoQ.isSome || f.fromQ.isSome) ||
    b.streams.slots.any (fun s => s.gen.isSome || s.pendingGen.isSome)

/-- T0's region breaks R40 (R63). -/
def t0Bad (base rows : Nat) : Bool := !aligned base 4096 || !inFast base || !inOneUnit base (max 1 (pagesFor 256 rows))

/-- The member that a check of R350 or R542 finds wrong, `base` being the threshold group; 0 where it is the order. -/
def thermalFault (warm hot severe hys limit base : Nat) : Option Nat :=
  if hys < 1 || 10 < hys then some (odKey base 4)
  else if warm < hot && hot < severe && severe ≤ limit then none
  else some 0

/-- A failed check of a set: the member it concerns, or 0; none where every check passes (R463, R466, R468, R498, R525,
R542; which member a check concerns: log 41). -/
def commitFault (m : Memory) (b : Block) (s : Staging) : Option Nat × Block :=
  let g := b.staged s
  let no := fun (bad : Bool) (member : Nat) => ((if bad then some member else none : Option Nat), b)
  match s.set with
  | 1 => no (t0Bad (g 0x2300 8) (g 0x2300 9)) (odKey 0x2300 8)
  | 3 => no (!b.rings.isEmpty) 0
  | 4 => (thermalFault (g 0x2501 1) (g 0x2501 2) (g 0x2501 3) (g 0x2501 4) 125 0x2501, b)
  | 5 => (b.crcFault s, b)
  | 6 =>
    let r := readSatchels m b (g 0x2600 1) (g 0x2600 2)
    (if r.2.1 then some (odKey 0x2600 1) else if r.2.2.satchelsBad r.1 then some 0 else none, r.2.2)
  | 8 =>
    let base := g 0x2202 3
    if !aligned base 4096 || !tierRange base (32 * 2 ^ g 0x2202 4) then no true (odKey 0x2202 3)
    else no (b.rings.any (fun r => r.state == .orphaned) || b.cqs.any (·.stale) || b.od' 0x2202 5 != b.od' 0x2202 6 ||
      b.orphanNext != b.od' 0x2202 5) 0
  | 9 =>
    let base := g 0x2800 1
    no (!aligned base 4096 || !tierRange base (64 * 2 ^ g 0x2800 2)) (odKey 0x2800 1)
  | 10 => (thermalFault (g 0x2903 1) (g 0x2903 2) (g 0x2903 3) (g 0x2903 4) 109 0x2903, b)
  | _ => (none, b)

/-- A commit whose checks fail: back to STAGING (R466, R468). -/
def refuseCommit (b : Block) (s : Staging) (member : Nat) : Block :=
  ((b.putStaging { s with committing := false }).count 0x1F00 4 1).commitResult accRefused s.set member

/-- A valid queue of the satchel array, empty (R368). -/
def newQueue (n d : Nat) : SatQueue :=
  { number := n, desc := d, sats := List.replicate (bits d 14 8) Satchel.empty, consumer := none, turns := [],
    interval := 0, lastTake := none, count := 0 }

/-- What a set's commit does beyond its members' values. -/
def applySet (m : Memory) (b : Block) (s : Staging) : Block :=
  match s.set with
  | 2 => b.boardCommit (b.staged s 0x2301 1)
  | 6 =>
    let r := readSatchels m b (b.od' 0x2600 1) (b.od' 0x2600 2)
    let b1 : Block := { r.2.2 with streams := { r.2.2.streams with queues := r.1.map (fun q => newQueue q.1 q.2) } }
    (b1.setOd 0x2600 5 (satBytes r.1 false / 1024)).setOd 0x2600 6 (satBytes r.1 true / 1024)
  | 8 => (({ b with orphanNext := 0 } : Block).setOd 0x2202 5 0).setOd 0x2202 6 0
  | 9 =>
    let b1 := (b.setOd 0x2800 3 0).setOd 0x2800 4 0
    { b1 with faults := { b1.faults with eventPhase := true, eventNext := 0 } }
  | _ => b

/-- The members of a set take their staged values; OD 0x2301.01 does so with its releases. -/
def takeStaged (b : Block) (s : Staging) : Block :=
  if s.set == 2 then b else s.copy.foldl (fun b e => b.setOd (e.1 / 256) (e.1 % 256) e.2) b

/-- A commit of the EVENTS set: no record is written to the old ring any more, so those on their way are withdrawn (R523,
log 65). -/
def leaveRing (b : Block) (s : Staging) : Block :=
  if s.set == 9 then
    { b with agents := { b.agents with
        queue := b.agents.queue.filter (fun r => !ownInto (b.od' 0x2800 1) (64 * 2 ^ b.od' 0x2800 2) r) } }
  else b

/-- The commit point: every member takes its staged value at once (R466, R468, R473). -/
def commitNow (m : Memory) (b : Block) (s : Staging) : Block :=
  let b1 := applySet m ((b.leaveRing s).takeStaged s) s
  let b2 := (((b1.dropStaging s.set).count 0x1F00 3 1).count 0x2702 3 1).commitResult accOk s.set 0
  if s.set == 1 || s.set == 7 then b2.renewDigest else b2

/-- COMMIT_POINT: the waits of R463 over, the checks run again on what may have changed, and the set takes effect. -/
def commitPoint (m : Memory) (b : Block) (n : Nat) : Block :=
  match b.staging? n with
  | none => b
  | some s =>
    if !b.ready && b.engineState != 1 then b
    else if !s.committing || (n == 2 && b.loadUnderWay) then b
    else
      let r := commitFault m b s
      match r.1 with
      | some member => r.2.refuseCommit s member
      | none => commitNow m r.2 s

/-- A control word refused: its result recorded (R468, R548). -/
def refuseWord (b : Block) (code n : Nat) : Nat × Block := (code, b.commitResult code n 0)

/-- The commit control word (R464 to R468, R548). A check whose read is held is left to the commit point (R466). -/
def commitControl (m : Memory) (b : Block) (word : Nat) : Nat × Block :=
  let n := bits word 7 0
  let act := bits word 11 8
  let owner := bits word 31 16
  if !setNamed n || act == 0 || 3 < act || (owner == 0xFFFF && act != 3) || bits word 15 12 != 0 then b.refuseWord accRange n
  else
    match act, b.staging? n with
    | 1, none => (accOk, (b.putStaging { set := n, owner := owner, copy := [], committing := false }).commitResult accOk n 0)
    | 2, some s =>
      if s.committing || s.owner != owner then b.refuseWord accBusy n
      else
        let r := commitFault m b s
        if r.2.blocked then (accOk, b.putStaging { s with committing := true })
        else match r.1 with
        | some member => (accOk, r.2.refuseCommit s member)
        | none => (accOk, r.2.putStaging { s with committing := true })
    | 3, some s =>
      if s.committing || (owner != s.owner && owner != 0xFFFF) then b.refuseWord accBusy n
      else (accOk, (b.dropStaging n).commitResult accOk n 0)
    | _, _ => b.refuseWord accBusy n

/-! ### One write (R453, R457, R460) -/

/-- A member written while its set is STAGING (R465). -/
def stageMember (b : Block) (r : OdRow) (key v : Nat) : Nat × Block :=
  match b.staging? (odSet key) with
  | none => (accNeedsCommit, b)
  | some s =>
    if s.committing then (accBusy, b)
    else if !odInRange (b.od' 0x1000 6) key r v then (accRange, b)
    else (accOk, b.putStaging { s with copy := s.copy.filter (fun e => e.1 != key) ++ [(key, v)] })

/-- A write of OD 0x2602.01: refused where a pool would shrink below its allocation (R366). -/
def writeBudget (b : Block) (v : Nat) : Nat × Block :=
  let pool := 16384 - 2048 - 16 * v
  if pool < b.od' 0x2600 5 || pool < b.od' 0x2600 6 then (accRange, b)
  else (accOk, (b.setOd 0x2602 1 v).showPools)

/-- A write of OD 0x2700.03: a change raises the commit epoch and the digest (R473). -/
def writeForwarding (b : Block) (v : Nat) : Block :=
  if b.od' 0x2700 3 == v then b else ((b.setOd 0x2700 3 v).count 0x2702 3 1).renewDigest

/-- A write of OD 0x2700.02; before step 8 of start-up no port is enabled yet (R425, R477). -/
def writePortEnable (b : Block) (v : Nat) : Block :=
  let b1 := b.setOd 0x2700 2 v
  if 8 ≤ b.startUp.step then b1.applyPortEnable else b1

/-- An entry in range takes its value, with the behaviour that its chapter gives it. -/
def writeEntry (m : Memory) (b : Block) (key v : Nat) : Nat × Block :=
  if key == odKey 0x1F00 1 then commitControl m b v
  else if key == odKey 0x2000 5 then (accOk, b.engineReset (v == 2))
  else if key == odKey 0x2000 9 then (accOk, (b.setOd 0x2000 9 v).tryReady m)
  else if key == odKey 0x2201 1 then
    (accOk, b.giveWord m (false, v))
  else if key == odKey 0x2202 8 then
    (accOk, b.giveWord m (true, v))
  else if key == odKey 0x2602 1 then b.writeBudget v
  else if key == odKey 0x2700 2 then (accOk, b.writePortEnable v)
  else if key == odKey 0x2700 3 then (accOk, b.writeForwarding v)
  else if key == odKey 0x2801 3 then (accOk, b.acknowledge v)
  else if key == odKey 0x2802 1 then (accOk, b.fenceControl v)
  else if key == odKey 0x2804 2 then
    if b.od' 0x2804 1 == 0 then (accPath, b)
    else if !injectionOk v then (accRange, b)
    else (accOk, b.armInjection v)
  else if isSignalKey key then (accOk, b.setSignal ((key - odKey 0x2610 0) % 4096) v)
  else (accOk, b.setOd (key / 256) (key % 256) v)

/-- Writes are refused in STOPPED, HALTED and RESETTING, but for OD 0x2000.05 over MCTP in STOPPED; in HALTED the entries
of index 0x1000 answer (R476). -/
def writesShut (b : Block) (mctp : Bool) (key : Nat) : Bool :=
  !(b.engineState == 1 || b.ready) && !(mctp && key == odKey 0x2000 5 && b.engineState != 4) &&
    !(b.engineState == 4 && key / 256 == 0x1000)

/-- One write of an entry over a path (R453, R457, R460, R465). -/
def odWrite (m : Memory) (b : Block) (mctp : Bool) (key v : Nat) : Nat × Block :=
  if b.writesShut mctp key then (accPath, b)
  else match odFind key with
    | none => (accNoEntry, b)
    | some r =>
      if !mctp && ((b.od' 0x1100 3 == 0 && !isSignalKey key) || mctpOnly key) then (accPath, b)
      else match r.acc with
        | .ro => (accReadOnly, b)
        | .rwc => b.stageMember r key v
        | .rwl =>
          if b.engineState != 1 then (accLocked, b)
          else if !odInRange (b.od' 0x1000 6) key r v then (accRange, b) else writeEntry m b key v
        | .rw | .wo => if !odInRange (b.od' 0x1000 6) key r v then (accRange, b) else writeEntry m b key v

/-! ### The window (R454 to R456) -/

/-- A window write recorded: its result in OD 0x2000.01, a refusal counted (R456). -/
def recordWindow (b : Block) (code key : Nat) : Block :=
  let seq := (bits (b.od' 0x2000 1) 63 40 + 1) % 2 ^ 24
  ((b.setOd 0x2000 1 (pack [(0, code), (16, key % 256), (24, key / 256), (40, seq)])).count 0x2000 2 (b2n (code != 0))).count
    0x2000 3 1

/-- A write of an entry's slot by size and place (R454). -/
def slotWrite (m : Memory) (b : Block) (off size v : Nat) : Block :=
  let key := odKey (0x1000 + off / 2048) (off / 8 % 256)
  let small : Bool := ((odFind key).map (fun r => decide (r.ty.bytes ≤ 4))).getD true
  if (size == 8 && off % 8 == 0) || (size == 4 && off % 8 == 0 && small) then
    let r := odWrite m b false key v
    r.2.recordWindow r.1 key
  else b.recordWindow accWidth key

/-- A write anywhere in the 64 MiB window (R134, R454, R455). -/
def windowWrite (m : Memory) (b : Block) (off size v : Nat) : Block :=
  if !b.powered then b
  else if off < 0x0100_0000 then slotWrite m b off size v
  else if off < 0x0120_0000 then b.doorbell (off - 0x0100_0000) size v
  else b.count 0x2000 2 1

/-- The window write of a whole entry. -/
def entryWrite (m : Memory) (b : Block) (index sub v : Nat) : Block :=
  windowWrite m b ((index - 0x1000) * 2048 + 8 * sub) 8 v

/-! ### Reads -/

/-- A counter of corrected errors as it stands when read (R337). -/
def readCorrected (b : Block) (sub : Nat) : Nat × Block :=
  let n := b.fresh
  let b1 := n.2.count 0x2504 sub (Config.freeCorrected n.1)
  (b1.od' 0x2504 sub, b1)

/-- The present draw: sampled while telemetry runs, else the last value held (R508, R526). -/
def readDraw (b : Block) : Nat × Block :=
  if !b.samples then (b.od' 0x2901 4, b)
  else
    let n := b.fresh
    let v := (Config.freeDraw n.1).val
    (v, n.2.setOd 0x2901 4 v)

/-- The value that a read of an entry gives: write-only entries read zero, in HALTED only index 0x1000 answers (R454,
R476); the present draw and the corrected errors are free values (log 5). -/
def odRead (b : Block) (key : Nat) : Nat × Block :=
  match odFind key with
  | none => (0, b)
  | some r =>
    if r.acc == .wo || (b.engineState == 4 && key / 256 != 0x1000) then (0, b)
    else if key == odKey 0x2901 4 then b.readDraw
    else if key == odKey 0x2504 1 || key == odKey 0x2504 3 then b.readCorrected (key % 256)
    else (b.od' (key / 256) (key % 256), b)

/-- A wide slot: its sequence count and the 56 bytes of its value (R455). -/
def wideSlot (b : Block) (w : Nat) : Bytes × Block :=
  match wideKey w with
  | none => (zeros 64, b)
  | some key =>
    let r := b.odRead key
    (natLE 8 (mapGet b.dict.wideSeq 0 w) ++ natLE 56 r.1, r.2)

/-- What a window read of `size` bytes gives, and the block after it (R133, R454, R455). No row of the table is a window
read (log 10). -/
def windowRead (b : Block) (off size : Nat) : Nat × Block :=
  if !b.powered || !((size == 8 && off % 8 == 0) || (size == 4 && off % 4 == 0)) then (0, b)
  else
    let part := fun (v : Nat) => v / 2 ^ (8 * (off % 8)) % 2 ^ (8 * size)
    if off < 0x0100_0000 then
      let r := b.odRead (odKey (0x1000 + off / 2048) (off / 8 % 256))
      (part r.1, r.2.count 0x2000 3 1)
    else if off < 0x0120_0000 then (part (b.doorbellWord ((off - 0x0100_0000) / 8)), b)
    else if off < 0x0121_0000 then
      let r := b.wideSlot ((off - 0x0120_0000) / 64)
      (part (leNat (slice r.1 (off / 8 * 8 % 64) 8)), r.2.count 0x2000 3 1)
    else (0, b)

/-! ### Packets on the management port (R458, log 36) -/

/-- One bit of the check byte: the remainder by x^8 + x^2 + x + 1. -/
def checkBit (c : Nat) : Nat := if 128 ≤ c then (2 * c) % 256 ^^^ 7 else 2 * c

/-- The check byte of DSP0233 over the address byte and a packet. -/
def checkByte (addr : Nat) (packet : Bytes) : Byte :=
  BitVec.ofNat 8 ((natLE 1 addr ++ packet).foldl
    (fun c x => (List.range 8).foldl (fun c _ => checkBit c) (c ^^^ x.toNat)) 0)

/-- A packet with its check byte; `up` is 1 for a frame that the bus owner reads. -/
def frame (b : Block) (up : Nat) (packet : Bytes) : Bytes := packet ++ [checkByte (2 * b.od' 0x1100 2 + up) packet]

/-- The frames of a message: packets of at most 64 bytes behind the header (version, destination, source, SOM, EOM,
sequence, tag owner and tag). -/
def frames (b : Block) (up dest source owner tag : Nat) (body : Bytes) : List Bytes :=
  let parts := chunks 64 body
  parts.zipIdx.map (fun p =>
    b.frame up (natLE 4 (pack [(0, 1), (8, dest), (16, source), (24, tag), (27, owner), (28, p.2 % 4),
      (30, b2n (p.2 + 1 == parts.length)), (31, b2n (p.2 == 0))]) ++ p.1))

/-- A response, and the in-band interrupt that its frames keep pending (R458). -/
def respond (b : Block) (q : Request) (msg : Bytes) : Block :=
  ({ b with dict := { b.dict with
      mctpOut := b.dict.mctpOut ++ b.frames 1 q.source (b.od' 0x1100 1) 0 q.tag msg } } : Block).count 0x1100 4 1

/-- The in-band interrupt: a response waits to be read (R458). -/
def inBand (b : Block) : Bool := !b.dict.mctpOut.isEmpty

/-- A message dropped (R458). -/
def dropMessage (b : Block) : Block := b.count 0x1100 5 1

/-- The bytes before the Tursioc header: message type 0x7F and the enterprise number, most significant byte first. -/
def vendorHead (b : Block) : Bytes := natLE 1 0x7F ++ (natLE 4 (b.od' 0x1000 3)).reverse

/-- A request that the endpoint takes: a control request or a vendor message of its own number, without the integrity
bit (R458). -/
def takes (b : Block) (body : Bytes) : Bool :=
  (slice body 0 1 == [0] && 3 ≤ body.length && 128 ≤ leNat (slice body 1 1)) ||
    (5 ≤ body.length && slice body 0 5 == b.vendorHead)

/-- A message that has arrived whole: held for service, unless 8 are held or it is not one the endpoint takes. -/
def holdRequest (b : Block) (held : List Request) (q : Request) : Block × List Request :=
  if 8 ≤ held.length || !b.takes q.body then (b.dropMessage, held) else (b, held ++ [q])

/-- The message of an endpoint and tag is no longer assembled. -/
def forget (b : Block) (source tag : Nat) : Block :=
  { b with dict := { b.dict with assembly := b.dict.assembly.filter (fun a => a.source != source || a.tag != tag) } }

/-- A packet put to its message: none where it belongs to none, or ends it out of sequence or of another length. -/
def joined (old : Option Assembly) (start last : Bool) (source tag seq : Nat) (part : Bytes) : Option Assembly :=
  if start then some ⟨source, tag, seq, part.length, part⟩
  else match old with
    | none => none
    | some a =>
      if seq != (a.seq + 1) % 4 || a.unit < part.length || (!last && part.length != a.unit) then none
      else some { a with seq := seq, body := a.body ++ part }

/-- One packet for this endpoint: a message of up to 512 bytes is assembled by source and tag; one that a packet breaks off
is dropped and counted. -/
def takePacket (b : Block) (held : List Request) (hdr : Nat) (part : Bytes) : Block × List Request :=
  let source := bits hdr 23 16
  let tag := bits hdr 26 24
  let start := bit hdr 31
  let last := bit hdr 30
  let old := b.dict.assembly.find? (fun a => a.source == source && a.tag == tag)
  let b1 := b.forget source tag
  let b2 := if start && old.isSome then b1.dropMessage else b1
  match joined old start last source tag (bits hdr 29 28) part with
  | none => (if old.isSome then b2.dropMessage else b2, held)
  | some a =>
    if 512 < a.body.length then (b2.dropMessage, held)
    else if last then b2.holdRequest held ⟨source, tag, a.body⟩
    else ({ b2 with dict := { b2.dict with assembly := b2.dict.assembly ++ [a] } }, held)

/-- One I3C frame: a packet of another header version, for another endpoint, without the tag owner bit or with a wrong check
byte is not taken. -/
def takeFrame (b : Block) (held : List Request) (f : Bytes) : Block × List Request :=
  let packet := f.dropLast
  let hdr := leNat (packet.take 4)
  if packet.length < 5 || f != b.frame 0 packet || bits hdr 3 0 != 1 || !bit hdr 27 ||
      !(bits hdr 15 8 == 0 || bits hdr 15 8 == b.od' 0x1100 1) then (b, held)
  else b.takePacket held hdr (packet.drop 4)

/-! ### Tursioc messages (R459) -/

/-- The response to a request header (R459). -/
def tursiocReply (b : Block) (q : Request) (hdr result : Nat) (value : Bytes) : Block :=
  b.respond q (slice q.body 0 5 ++ natLE 12 (pack [(0, 1), (8, bits hdr 14 8), (15, 1), (16, bits hdr 31 16),
    (32, bits hdr 55 32), (64, result)]) ++ value)

/-- A message that is answered with BAD_MESSAGE (R459): `len` bytes after the enterprise number. RESULT is 0 in a request;
another value is taken as a reserved bit that is set (log 36). -/
def badTursioc (hdr len : Nat) : Bool :=
  let op := bits hdr 14 8
  let n := bits hdr 31 24
  bits hdr 7 0 != 1 || op == 0 || 3 < op || bit hdr 15 || bits hdr 63 56 != 0 || bits hdr 95 64 != 0 ||
    (if op == 3 then n == 0 || 32 < n || 256 < bits hdr 55 48 + n else n != 1) ||
    len != (if op == 2 then 20 else 12)

/-- READ: one value, or the 56 bytes of a wide entry. -/
def tursiocRead (b : Block) (q : Request) (hdr : Nat) : Block :=
  let key := odKey (bits hdr 47 32) (bits hdr 55 48)
  match odFind key with
  | none => b.tursiocReply q hdr accNoEntry []
  | some r =>
    let x := b.odRead key
    x.2.tursiocReply q hdr accOk (natLE (if 8 < r.ty.bytes then 56 else 8) x.1)

/-- WRITE: one value, answered by its result. -/
def tursiocWrite (m : Memory) (b : Block) (q : Request) (hdr v : Nat) : Block :=
  let r := odWrite m b true (odKey (bits hdr 47 32) (bits hdr 55 48)) v
  r.2.tursiocReply q hdr r.1 []

/-- READ_BLOCK: COUNT values of 8 bytes, taken at one instant. -/
def tursiocBlock (b : Block) (q : Request) (hdr : Nat) : Block :=
  let r := (List.range (bits hdr 31 24)).foldl (fun (acc : Bytes × Block) k =>
    let x := acc.2.odRead (odKey (bits hdr 47 32) (bits hdr 55 48 + k))
    (acc.1 ++ natLE 8 x.1, x.2)) ([], b)
  r.2.tursiocReply q hdr accOk r.1

/-- A vendor message: malformed, BAD_MESSAGE; else what its operation asks. -/
def tursioc (m : Memory) (b : Block) (q : Request) : Block :=
  let body := q.body.drop 5
  let hdr := leNat (body.take 12)
  let b1 := b.count 0x2000 3 1
  if badTursioc hdr body.length then b1.tursiocReply q hdr accBadMessage []
  else match bits hdr 14 8 with
    | 1 => b1.tursiocRead q hdr
    | 2 => tursiocWrite m b1 q hdr (leNat (slice body 12 8))
    | _ => b1.tursiocBlock q hdr

/-- The WRITE message of one entry, as a row that names MCTP as its path sends it. -/
def writeMessage (b : Block) (index sub v : Nat) : Bytes :=
  b.vendorHead ++ natLE 12 (pack [(0, 1), (8, 2), (24, 1), (32, index), (48, sub)]) ++ natLE 8 v

/-! ### Control messages of DSP0236 (R458, log 36) -/

/-- The answer to a control message: the instance of the request, command, completion code and data. -/
def controlReply (b : Block) (q : Request) (code : Nat) (data : Bytes) : Block :=
  b.respond q (natLE 1 0 ++ natLE 1 (leNat (slice q.body 1 1) % 32) ++ slice q.body 2 1 ++ natLE 1 code ++ data)

/-- One control message. -/
def control (b : Block) (q : Request) : Block :=
  let args := q.body.drop 3
  let a0 := leNat (slice args 0 1)
  let a1 := leNat (slice args 1 1)
  let n := b.fresh
  match leNat (slice q.body 2 1) with
  | 1 =>
    if args.length != 2 then b.controlReply q 3 []
    else if 1 < a0 % 4 || a1 == 0 || a1 == 255 then b.controlReply q 2 []
    else (b.setOd 0x1100 1 a1).controlReply q 0 (natLE 3 (a1 <<< 8))
  | 2 => b.controlReply q 0 (natLE 3 (b.od' 0x1100 1))
  | 4 =>
    if args.length != 1 then b.controlReply q 3 []
    else if a0 == 0 || a0 == 0x7F || a0 == 255 then
      n.2.controlReply q 0 (natLE 1 1 ++ natLE 4 (Config.freeBits n.1).toNat)
    else b.controlReply q 0x80 []
  | 5 => b.controlReply q 0 (natLE 2 0x7F01)
  | 6 =>
    if args.length != 1 then b.controlReply q 3 []
    else if a0 != 0 then b.controlReply q 2 []
    else n.2.controlReply q 0 (natLE 2 0x01FF ++ (natLE 4 (b.od' 0x1000 3)).reverse ++ natLE 2 (Config.freeBits n.1).toNat)
  | _ => b.controlReply q 5 []

/-! ### Service of the requests held (R458) -/

/-- One request answered by one response. -/
def serveRequest (m : Memory) (b : Block) (q : Request) : Block :=
  if slice q.body 0 1 == [0] then b.control q else tursioc m b q

/-- The operation of a request: 0 a control message, else that of its Tursioc header; none for a malformed one, which any
row of vendor messages may be. -/
def operation (q : Request) : Option Nat :=
  let body := q.body.drop 5
  let hdr := leNat (body.take 12)
  if slice q.body 0 1 == [0] then some 0 else if badTursioc hdr body.length then none else some (bits hdr 14 8)

/-- A request that a row of operation `op` names (log 1). -/
def fits (op : Nat) (q : Request) : Bool :=
  match operation q with
  | none => op != 0
  | some k => k == op

/-- Frames that arrive: the requests that they complete are held, up to 8, and served in arrival order (R458, R461). -/
def management (m : Memory) (b : Block) (op : Nat) (fs : List Bytes) : Block :=
  let r := fs.foldl (fun acc f => takeFrame acc.1 acc.2 f) (b, [])
  if b.powered && r.2.all (fits op) then r.2.foldl (fun b q => serveRequest m b q) r.1 else b

/-- A write of an entry over the path that a row names; the package management writes with the reach of MCTP and takes no
response (R478, R482). -/
def pathWrite (m : Memory) (b : Block) (p : Path) (index sub v : Nat) : Block :=
  match p with
  | .window => entryWrite m b index sub v
  | .mctp => if b.powered then serveRequest m b ⟨0, 0, b.writeMessage index sub v⟩ else b
  | .management => if b.powered then (odWrite m b true (odKey index sub) v).2 else b

/-! ### Resets by order (R482 to R484) -/

/-- An engine reset over a path: a write of 1 or 2 to OD 0x2000.05, or an order of the package management, which also
leaves HALTED (R478). -/
def orderReset (m : Memory) (b : Block) (p : Path) (forced : Bool) : Block :=
  match p with
  | .management => if b.powered then b.engineReset forced else b
  | q => pathWrite m b q 0x2000 5 (if forced then 2 else 1)

end Block

/-! ### Rows -/

/-- The window write of a control word or entry, as one step; a word whose descriptor read waits leaves the state. -/
def entryStep (s : State) (index sub v : Nat) : Out := finishRead s (Block.entryWrite s.mem s.blk index sub v)

/-- DICT_WRITE: a write in the dictionary window (R453 to R457, R460, R465). -/
def execDictWrite (offset size value : Nat) (s : State) : Out := finishRead s (Block.windowWrite s.mem s.blk offset size value)
/-- MCTP_READ (R458, R459). -/
def execMctpRead (frames : List Bytes) (s : State) : Out := finishRead s (Block.management s.mem s.blk 1 frames)
/-- MCTP_WRITE (R458, R459). -/
def execMctpWrite (frames : List Bytes) (s : State) : Out := finishRead s (Block.management s.mem s.blk 2 frames)
/-- READ_BLOCK (R458, R459). -/
def execReadBlock (frames : List Bytes) (s : State) : Out := finishRead s (Block.management s.mem s.blk 3 frames)
/-- MCTP_CONTROL (R458). -/
def execMctpControl (first : Bytes) (rest : List Bytes) (s : State) : Out :=
  finishRead s (Block.management s.mem s.blk 0 (first :: rest))

/-- OPEN of a commit set (R464, R465, R548). -/
def execSetOpen (set owner : Nat) (s : State) : Out := entryStep s 0x1F00 1 (pack [(0, set), (8, 1), (16, owner)])
/-- COMMIT of a commit set (R464 to R466, R468, R548). -/
def execSetCommit (set owner : Nat) (s : State) : Out := entryStep s 0x1F00 1 (pack [(0, set), (8, 2), (16, owner)])
/-- ABORT of a commit set (R464, R465, R548). -/
def execSetAbort (set owner : Nat) (s : State) : Out := entryStep s 0x1F00 1 (pack [(0, set), (8, 3), (16, owner)])
/-- COMMIT_POINT (R463, R466, R468, R473). -/
def execCommitPoint (set : Nat) (s : State) : Out := finishRead s (Block.commitPoint s.mem s.blk set)

/-- SQ_ENABLE (R125, R126, R128, R486). -/
def execSqEnable (number : Nat) (s : State) : Out := entryStep s 0x2201 1 (pack [(0, number), (20, 1)])
/-- SQ_DISABLE (R129, R130). -/
def execSqDisable (number : Nat) (s : State) : Out := entryStep s 0x2201 1 (pack [(0, number), (20, 2)])
/-- SQ_RESUME (R129). -/
def execSqResume (number : Nat) (s : State) : Out := entryStep s 0x2201 1 (pack [(0, number), (20, 3)])
/-- SQ_ABORT (R129, R130). -/
def execSqAbort (number : Nat) (s : State) : Out := entryStep s 0x2201 1 (pack [(0, number), (20, 4)])
/-- CQ_ENABLE (R124, R127, R486). -/
def execCqEnable (number : Nat) (s : State) : Out := entryStep s 0x2201 1 (pack [(0, number), (20, 5)])
/-- CQ_DISABLE (R127). -/
def execCqDisable (number : Nat) (s : State) : Out := entryStep s 0x2201 1 (pack [(0, number), (20, 6)])

/-- Re-attach of a completion ring, RESUME (R496). -/
def execReattachCqResume (number : Nat) (s : State) : Out := entryStep s 0x2202 8 (pack [(0, number), (18, 1)])
/-- Re-attach of a completion ring, RESET (R496). -/
def execReattachCqReset (number : Nat) (s : State) : Out := entryStep s 0x2202 8 (pack [(0, number), (18, 1), (19, 1)])
/-- Re-attach of a submission ring, RESUME (R496). -/
def execReattachSqResume (number : Nat) (s : State) : Out := entryStep s 0x2202 8 (pack [(0, number)])
/-- Re-attach of a submission ring, RESET (R496). -/
def execReattachSqReset (number : Nat) (s : State) : Out := entryStep s 0x2202 8 (pack [(0, number), (19, 1)])
/-- DROP of an orphaned submission ring (R496). -/
def execDrop (number : Nat) (s : State) : Out := entryStep s 0x2202 8 (pack [(0, number), (19, 2)])

/-- FENCE of a unit by the fence control word (R508, R509). -/
def execUnitFence (unit : Nat) (s : State) : Out := entryStep s 0x2802 1 (pack [(0, unit), (16, 1)])
/-- RESTORE of a unit by the fence control word (R509, R511). -/
def execUnitRestore (unit : Nat) (s : State) : Out := entryStep s 0x2802 1 (pack [(0, unit), (16, 2)])
/-- FAULT_ACKNOWLEDGE (R506). -/
def execFaultAcknowledge (number : Nat) (s : State) : Out := entryStep s 0x2801 3 number
/-- INJECTION_ARM (R524). -/
def execInjectionArm (word : Nat) (s : State) : Out := entryStep s 0x2804 2 word
/-- SIGNAL_WORD_WRITE: a write of a signal word acts as a SIGNAL with OP SET (R387). -/
def execSignalWordWrite (n value : Nat) (s : State) : Out := entryStep s (0x2610 + n % 4096 / 256) (n % 256) value

/-- ORDERED_RESET (R482 to R484, R545). -/
def execOrderedReset (path : Path) (s : State) : Out := finishRead s (Block.orderReset s.mem s.blk path false)
/-- FORCED_RESET (R482 to R484, R545). -/
def execForcedReset (path : Path) (s : State) : Out := finishRead s (Block.orderReset s.mem s.blk path true)
/-- CONFIGURATION_HOLD (R479). -/
def execConfigurationHold (path : Path) (value : Nat) (s : State) : Out :=
  finishRead s (Block.pathWrite s.mem s.blk path 0x2000 9 value)
/-- PORT_ENABLE (R425). -/
def execPortEnable (path : Path) (mask : Nat) (s : State) : Out :=
  finishRead s (Block.pathWrite s.mem s.blk path 0x2700 2 mask)
/-- OVERLAP_MODE (R383, R384). -/
def execOverlapMode (path : Path) (w : Wing) (mode : Nat) (s : State) : Out :=
  finishRead s (Block.pathWrite s.mem s.blk path (match w with | .north => 0x2101 | .south => 0x2181) 1 mode)
/-- FORWARDING_IN_TRANSIT (R442, R473). -/
def execForwardingInTransit (path : Path) (value : Nat) (s : State) : Out :=
  finishRead s (Block.pathWrite s.mem s.blk path 0x2700 3 value)

end Sys2Proof.Machine
end

