-- ==== Sys2Proof/Machine/Streams.lean ====
section
/-! DEFINITION. STREAM_ARM and its actions, stream generations and their runs (12_streams_timetable.md R353 to R363),
satchel grants, arrivals and takes (R368 to R371), the buffer-wait watchdog (R377). -/

namespace Sys2Proof.Machine

/-! ### Fields of a STREAM_ARM (R354) -/

namespace Flow
def saMask (f : Flow) : Nat := f.fld 79 72
/-- The stream whose slot a STREAM_ARM acts on (R353). -/
def saStream (f : Flow) : Nat := 4 * f.su + f.fld 65 64
end Flow

/-! ### The pattern of a descriptor (R359 to R361) -/

/-- Bytes of a row. -/
def sdRowBytes (d : Nat) : Nat := packedMin (sdFmt d) (sdCols d)
/-- Bytes from one satchel row to the next. -/
def sdPitch (d : Nat) : Nat := roundUp (sdRowBytes d) 64
/-- Elements of the generation. -/
def sdElems (d : Nat) : Nat := ((List.range 5).map (sdCount d)).foldl (· * ·) 1
/-- T. -/
def sdTotal (d : Nat) : Nat := sdElem d * sdElems d

/-- Offset of element number e: indices in mixed radix, i0 fastest. -/
def sdOffset (d : Nat) : List Nat → Nat → Int
  | [], _ => 0
  | k :: ks, e => (e % max 1 (sdCount d k) : Nat) * sdStride d k + sdOffset d ks (e / max 1 (sdCount d k))

/-- Address of element number e (R360). An address below 0 is taken as one beyond the map, which no unit sees
(R318). -/
def sdAddr (d e : Nat) : Nat := (((sdStart d : Int) + sdOffset d [0, 1, 2, 3, 4] e) % (2 ^ 64 : Int)).toNat

/-- The pattern is dense: element number e lies at START + e * E for every e (R362). -/
def sdDense (d : Nat) : Bool :=
  ((List.range 5).foldl (fun (acc : Bool × Nat) k =>
    (acc.1 && (sdCount d k ≤ 1 || sdStride d k == (acc.2 : Int)), acc.2 * max 1 (sdCount d k))) (true, sdElem d)).1

/-- The length of the run that begins at element e: consecutive elements that are contiguous and lie in one aligned
256-byte span, `most` at most; `fuel` bounds it (R361). -/
def runLength (d e most : Nat) : Nat → Nat → Nat
  | 0, n => n
  | fuel + 1, n =>
    if n < most && sdAddr d (e + n) == sdAddr d e + n * sdElem d && sdAddr d (e + n) / 256 == sdAddr d e / 256 then
      runLength d e most fuel (n + 1)
    else n

/-- R362, BAD_STREAM: the descriptor, or the MASK. -/
def streamBad (f : Flow) (d size : Nat) : Bool :=
  let e := (sdElem d : Int)
  1 < sdKind d || 6 < bits d 10 8 || sdCols d == 0 || 512 < sdCols d || sdRows d == 0 || 128 < sdRows d ||
    (List.range 5).any (fun k => sdCount d k == 0) || (sdBellEn d && sdParties d == 0) ||
    !((sdStart d : Int) % e == 0) || (List.range 5).any (fun k => !(sdStride d k % e == 0)) ||
    !aligned (sdRowBytes d) (sdElem d) || !aligned (sdTotal d) (max 1 (sdRowBytes d)) || 2 ^ 40 < sdTotal d ||
    size < sdRows d * sdPitch d ||
    (sdCrc d && (!sdDense d || !aligned (sdStart d) 4096 || !aligned (sdTotal d) 4096)) ||
    (f.saMask != 0 && f.slots == 0)

namespace Block

/-! ### Actions (R355 to R357) -/

/-- The shadow copy with the masked words of the first inline entry. -/
def maskedShadow (b : Block) (f : Flow) : Nat :=
  let old := natLE 64 (b.slot f.saStream).shadow
  leNat ((List.range 8).foldl (fun acc w =>
    if bit f.saMask w then patch acc (8 * w) (slice f.inline (8 * w) 8) else acc) old)

/-- Work of a WRITE: it checks nothing. Words that no inline entry supplies are free values (log 5). -/
def writeAction (_ : Memory) (b : Block) (f : Flow) : Block :=
  let n := b.fresh
  let f1 := if f.slots == 0 then
      { f with inline := (List.range 8).flatMap (fun w => natLE 8 (Config.freeBits (8 * n.1 + w)).toNat) } else f
  (n.2.putSlot { n.2.slot f.saStream with shadow := n.2.maskedShadow f1 }).close f.id

/-- The checks of an ARM on the copy it forms (R362, R372, R373). BAD_STREAM applies only where the format and the
queue pass (log 30). -/
def checkArm (b : Block) (f : Flow) (d : Nat) : Block :=
  let q := some (sdQueue d)
  let b1 := b.refuseIf f.id [(sdFmt d == 15, stBadFormat)]
  let b2 := b1.checkQueues f.id (if sdKind d == 0 then q else none) (if sdKind d == 0 then none else q)
    (sdRows d * sdPitch d) 1
  let b3 := b2.modFlow f.id (fun g => { g with intoQ := none, fromQ := none })
  let refused := ((b3.flow? f.id).map (fun g => !g.statuses.isEmpty)).getD true
  if refused then b3
  else b3.refuseIf f.id [(streamBad f d (((b.queue? (sdQueue d)).map SatQueue.size).getD 0), stBadStream)]

/-- Work of an ARM (R355 to R357). -/
def armAction (_ : Memory) (b : Block) (f : Flow) : Block :=
  let n := f.saStream
  let s := b.slot n
  if f.genNo.isSome then b
  else if s.pendingGen.isSome then (b.refuse f.id stArmBusy).count 0x2603 6 1
  else
    let d := b.maskedShadow f
    let b1 := b.checkArm f d
    if ((b1.flow? f.id).map (fun g => !g.statuses.isEmpty)).getD true then b1.close f.id
    else
      let no := (s.counter + 1) % 2 ^ 32
      let b2 := (b1.modFlow f.id (fun g => { g with genNo := some no })).putSlot { s with shadow := d, counter := no }
      match s.gen with
      | none => b2.startGen n d f.id
      | some _ => b2.putSlot { b2.slot n with pendingGen := some d, pendingArm := f.id }

/-- The MASK of a CANCEL or STOP (R362). -/
def maskBad (b : Block) (f : Flow) : Option Block := if f.saMask != 0 then some (b.refuse f.id stBadStream) else none

/-- Work of a CANCEL (R355). -/
def cancelAction (_ : Memory) (b : Block) (f : Flow) : Block :=
  (b.maskBad f).getD ((b.dropPending f.saStream stStreamStopped).close f.id)

/-- Work of a STOP: no more runs; the pending copy is dropped; the command completes with the generation it stops. -/
def stopAction (_ : Memory) (b : Block) (f : Flow) : Block :=
  (b.maskBad f).getD (
    let n := f.saStream
    let b1 := b.dropPending n stStreamStopped
    match (b1.slot n).gen with
    | none => b1.close f.id
    | some g =>
      ((b1.modFlow f.id (fun h => { h with snapshot := [g] })).endGen n stStreamStopped).close f.id)

/-! ### Runs (R360, R361, R363) -/

/-- The satchel that a LOAD fills now: granted, and not written to its end. -/
def filling (b : Block) (f : Flow) : Option Nat :=
  (f.intoQ.bind b.queue?).bind (fun q =>
    q.sats.findIdx? (fun x => x.state == .granted && x.holder == some f.id && x.data.length < x.rows * x.pitch))

/-- The satchel that a STORE empties now. -/
def emptying (b : Block) (f : Flow) : Option Satchel := f.fromQ.bind (fun q => (b.heldBy q f.id).head?)

/-- A generation has a claim that waits. -/
def claims (b : Block) (id : Nat) : Bool := b.streams.claims.any (fun c => (c.tile.map (·.flow)) == some id)

/-- A slot has a run, or a request for its next satchel, to issue now. -/
def runReady (b : Block) (n : Nat) : Bool :=
  let s := b.slot n
  match s.gen.bind b.flow? with
  | none => false
  | some f =>
    !s.stopped && !s.ringing && !b.senderHeld f.id && !b.readWaits f && s.pos < sdTotal s.active &&
      (if sdKind s.active == 0 then !b.claims f.id else (b.emptying f).isSome)

/-- Rows of the satchel that begins at byte pos of the sequence. -/
def satchelRowsLeft (d pos : Nat) : Nat := min (sdRows d) ((sdTotal d - pos) / max 1 (sdRowBytes d))

/-- A LOAD asks for the satchel of its next rows before their first beat is read (R369). -/
def claimSatchel (b : Block) (f : Flow) (s : StreamSlot) : Block :=
  let d := s.active
  let t : Tile := { flow := f.id, index := f.tilesFormed, rows := satchelRowsLeft d s.pos, cols := sdCols d,
                    fmt := sdFmt d, pitch := sdPitch d, data := [], poison := [] }
  (b.modFlow f.id (fun g => { g with tilesFormed := g.tilesFormed + 1 })).claimLocal (sdQueue d) t

/-- The bytes of a run read; with CRC the whole block is read and checked at its first byte, and kept for the runs that
follow (R341, R361, R363). -/
def readRun (m : Memory) (b : Block) (f : Flow) (d a len : Nat) : Bytes × Bool × Block :=
  if !sdCrc d then b.readFor m f.id a len
  else
    let take := fun (s : Store) (b : Block) => (slice s.data (a - s.addr) len, s.data.drop 4096 == [1], b)
    match f.copies.find? (fun s => s.addr == a / 4096 * 4096) with
    | some s => take s b
    | none =>
      let r := readPiece m b f.id (a / 4096 * 4096) 4096 true
      let s : Store := ⟨a / 4096 * 4096, r.1 ++ natLE 1 (b2n r.2.1)⟩
      take s (r.2.2.modFlow f.id (fun g => { g with copies := [s] }))

/-- Rows that bytes pos to pos + len - 1 of a satchel's sequence touch, marked. -/
def markRows (marks : List Bool) (rb pos len rows : Nat) (bad : Bool) : List Bool :=
  (List.range rows).map (fun i => marks.getD i false || (bad && i * rb < pos + len && pos < i * rb + rb))

/-- The rows of a satchel laid at their pitch. -/
def pitchRows (rb pitch : Nat) (data : Bytes) : Bytes := (chunks rb data).flatMap (fit pitch)

/-- One run of a LOAD: read, and the satchel handed over when it is full. -/
def loadRun (m : Memory) (b : Block) (f : Flow) (n : Nat) : Block :=
  let s := b.slot n
  let d := s.active
  match b.filling f with
  | none => b.claimSatchel f s
  | some k =>
    let rb := sdRowBytes d
    let rows := (((b.queue? (sdQueue d)).bind (fun q => q.sats[k]?)).map (·.rows)).getD 0
    let e := s.pos / sdElem d
    let len := sdElem d * runLength d e (ceilDiv (rows * rb - s.part.length) (sdElem d)) 256 0
    let r := b.readRun m f d (sdAddr d e) len
    let part := s.part ++ r.1
    let marks := markRows s.partPoison rb s.part.length len rows r.2.1
    let s1 := { s with pos := s.pos + len, part := part, partPoison := marks }
    if part.length < rows * rb then r.2.2.putSlot s1
    else
      let bad := (marks.filter (fun x => x)).length
      (r.2.2.putSlot { s1 with part := [], partPoison := [], poisonRows := s.poisonRows + bad }).modQueue (sdQueue d)
        (fun q => { q with sats := q.sats.modify k (fun x =>
          { x with data := pitchRows rb (sdPitch d) part, poison := marks }) })

/-- The bytes that a STORE takes from a satchel's rows: RB of each, with those of poisoned rows as R189 gives and those
past the pitch free (log 5). -/
def storeRows (b : Block) (d : Nat) (x : Satchel) : Bytes × Block :=
  let rb := sdRowBytes d
  let n := b.fresh
  ((List.range x.rows).flatMap (fun i =>
    if x.poison.getD i false then poisonRow (sdFmt d) (sdCols d)
    else (List.range rb).map (fun j =>
      if j < x.pitch then (x.data.getD (i * x.pitch + j) 0) else Config.freeSatchelByte n.1 (i * rb + j))),
    if x.pitch < rb then n.2 else b)

/-- One run of a STORE: written, or, with CRC, gathered until its block is whole (R340, R361, R363). The satchel is
released when its rows, or the sequence, are written. -/
def storeRun (b : Block) (f : Flow) (n : Nat) : Block :=
  let s := b.slot n
  let d := s.active
  match b.emptying f with
  | none => b
  | some x =>
    let rb := sdRowBytes d
    let all := b.storeRows d x
    let e := s.pos / sdElem d
    let left := min (x.rows * rb - f.taken) (sdTotal d - s.pos)
    let len := sdElem d * runLength d e (ceilDiv left (sdElem d)) 256 0
    let bytes := slice all.1 f.taken len
    let bad := (List.range x.rows).any (fun i =>
      x.poison.getD i false && i * rb < f.taken + len && f.taken < i * rb + rb)
    let begun := ((List.range x.rows).filter (fun i =>
      x.poison.getD i false && f.taken ≤ i * rb && i * rb < f.taken + len)).length
    let s1 := { s with pos := s.pos + len, poisonRows := s.poisonRows + begun }
    let b1 :=
      if !sdCrc d then (all.2.putSlot s1).writeOut f.id (sdAddr d e) bytes
      else
        let part := s.part ++ bytes
        let mark := bad || s.partPoison.any (fun p => p)
        if part.length < 4096 then all.2.putSlot { s1 with part := part, partPoison := [mark] }
        else (all.2.putSlot { s1 with part := [], partPoison := [] }).writeBlock f.id (sdAddr d e / 4096 * 4096) part mark
    let used := f.taken + len
    if x.rows * rb ≤ used || sdTotal d ≤ s.pos + len then
      (b1.releaseHeld (sdQueue d) f.id).modFlow f.id (fun g => { g with taken := 0 })
    else b1.modFlow f.id (fun g => { g with taken := used })

/-- One run of the slot's generation. -/
def issueRun (m : Memory) (b : Block) (n : Nat) : Block :=
  match (b.slot n).gen.bind b.flow? with
  | none => b
  | some f => if sdKind (b.slot n).active == 0 then b.loadRun m f n else b.storeRun f n

/-- The slot that the timetable grants the stream unit's address generator now (R378, R380). -/
def grantRun (b : Block) (su : Nat) : Option (Nat × Block) :=
  let fs := ((slotsOf su).filter b.runReady).filterMap (fun n => (b.slot n).gen.bind b.flow?)
  (b.grant (16 + su) fs).bind (fun r => r.1.stream.map (fun n => (n, r.2)))

/-- The transfers of a generation are performed, and its satchels have arrived or been released (R357). -/
def genDone (b : Block) (f : Flow) (s : StreamSlot) : Bool :=
  sdTotal s.active ≤ s.pos && !b.writesWait f.id && !b.claims f.id && (b.emptying f).isNone && (b.filling f).isNone &&
    (sdKind s.active != 0 || f.tilesFormed ≤ f.tilesDone)

/-! ### Satchels (R368 to R371) -/

/-- The consumer of a queue takes its next satchel now: a PROJECT or a VEC_CHAIN until it holds a row group, a STORE one at
a time (R252, R253, R281, R361). -/
def wantsSatchel (b : Block) (q : SatQueue) (f : Flow) : Bool :=
  let held := (b.heldBy q.number f.id).length
  match f.stream with
  | some n => held < 1 && (b.slot n).pos < sdTotal (b.slot n).active && !(b.slot n).stopped
  | none =>
    f.stage == .running &&
      (if f.opcode == opProject then held < f.pjSatchels && f.formed < f.pjRows * f.pjCols
       else held < colGroups f.vcCols && f.formed < f.vcTiles)

/-! ### The watchdog (R377) -/

/-- Flow x is aborted rather than y: later deadline, none counting as latest; then later start. -/
def laterFlow (x y : Flow) : Bool :=
  match x.deadline, y.deadline with
  | none, none => y.start < x.start
  | none, some _ => true
  | some _, none => false
  | some i, some j => j < i || (i == j && y.start < x.start)

/-- A flow waits for something: it is not the flow of its wing's present pass (log 31). -/
def idle (b : Block) (f : Flow) : Bool := ((b.engine (wingOf f.su)).current.map (·.flow)) != some f.id

/-- A flow holds a satchel of a queue. -/
def holdsSatchel (b : Block) (n : Nat) (f : Flow) : Bool :=
  ((b.queue? n).map (fun q => q.sats.any (fun x => x.holder == some f.id))).getD false

/-- The claim of a flow that waits on a queue. -/
def waitingClaim (b : Block) (id n : Nat) : Option GrantClaim :=
  b.streams.claims.find? (fun c => c.queue == n && (c.tile.map (·.flow)) == some id)

/-- The abort of R377 for flow w on queue n. -/
def stallAbort (b : Block) (w : Flow) (n : Nat) (leaves : Bool) : Block :=
  let cs := w :: (if leaves then [] else b.flows.filter (fun f => f.id != w.id && b.holdsSatchel n f && b.idle f))
  let v := cs.foldl (fun best f => if laterFlow f best then f else best) w
  let b1 := match v.stream with
    | some k => b.endGen k stStallCycle
    | none => b.endFlow v.id stStallCycle
  let b2 := b1.count 0x2603 2 1
  if v.id == w.id then b2
  else { b2 with streams := { b2.streams with
    claims := b2.streams.claims.map (fun c =>
      if c.queue == n && (c.tile.map (·.flow)) == some w.id then { c with since := b2.time } else c) } }

end Block

/-- WRITE: masked words into the shadow copy (R355). -/
def execWrite (flow : Nat) (s : State) : Out := flowStep s flow (fun f => isOp opArm f && isArm 0 f) Block.writeAction
/-- ARM: the shadow copy becomes a generation, current or pending (R355 to R357). -/
def execArm (flow : Nat) (s : State) : Out := flowStep s flow (fun f => isOp opArm f && isArm 1 f) Block.armAction
/-- CANCEL: the pending copy is dropped (R355). -/
def execCancel (flow : Nat) (s : State) : Out := flowStep s flow (fun f => isOp opArm f && isArm 2 f) Block.cancelAction
/-- STOP: the current generation ends early (R355). -/
def execStop (flow : Nat) (s : State) : Out := flowStep s flow (fun f => isOp opArm f && isArm 3 f) Block.stopAction

/-- STREAM_RUN: the address generator issues one run of a generation, when the timetable grants it (R361, R378). -/
def execStreamRun (stream : Nat) (s : State) : Out :=
  if !s.blk.ready || !s.blk.suUp (stream / 4) then .next s
  else match s.blk.grantRun (stream / 4) with
    | none => .next s
    | some (n, b) =>
      if n != stream then .next s
      else
        let b1 := b.issueRun s.mem n
        match (s.blk.slot n).gen.bind s.blk.flow? with
        | none => .next s
        | some f =>
          workStep s f.id b1 ((s.blk.cutFlow f.id).endGen n stOrphaned)

/-- GENERATION_COMPLETE: transfers, satchels and bell done, the generation and its ARM complete, and the pending copy
starts; with BELL_EN it first arrives at its bell; a stopped one ends (R355, R357, R386). -/
def execGenerationComplete (stream : Nat) (s : State) : Out :=
  let b := s.blk
  let t := b.slot stream
  match t.gen.bind b.flow? with
  | none => .next s
  | some f =>
    if t.stopped then finish s (b.endStopped stream)
    else if t.ringing || !b.genDone f t then .next s
    else if sdBellEn t.active then
      finish s ((b.putSlot { t with ringing := true }).arriveBell f.id (sdBell t.active) (sdParties t.active))
    else finish s (b.closeGen stream)

/-- SATCHEL_GRANT: a free satchel of a queue goes to the producer that the timetable puts first (R369, R374, R380). -/
def execSatchelGrant (queue : Nat) (s : State) : Out := finish s (s.blk.grantNext queue)

/-- SATCHEL_ARRIVAL: the next written satchel of a queue arrives, each producer's in order (R369). -/
def execSatchelArrival (queue : Nat) (s : State) : Out :=
  match (s.blk.queue? queue).bind Block.readyToArrive with
  | none => .next s
  | some k => finish s (s.blk.arriveSatchel queue k)

/-- SATCHEL_TAKE: the consumer of a queue takes the satchel that arrived first (R370, R379). -/
def execSatchelTake (queue : Nat) (s : State) : Out :=
  match s.blk.queue? queue with
  | none => .next s
  | some q =>
    match q.consumer.bind s.blk.flow? with
    | none => .next s
    | some f => if s.blk.wantsSatchel q f then finish s (s.blk.takeSatchel queue f.id) else .next s

/-- STALL_CYCLE: a buffer wait has lasted 100 µs, and one flow is aborted (R377). The timebase moves to that moment
(log 2). -/
def execStallCycle (flow queue : Nat) (s : State) : Out :=
  match s.blk.waitingClaim flow queue, s.blk.flow? flow with
  | some c, some w =>
    let b : Block := { s.blk with time := max s.blk.time (c.since + 100000) }
    finish s (b.stallAbort w queue c.leaves)
  | _, _ => .next s

end Sys2Proof.Machine
end

