-- ==== Sys2Proof/Machine/Engine.lean ====
section
/-! DEFINITION. The wings' engines at work: array passes under their hall pass (08_dense_array.md R239 to R241,
18_power_timing_thermal.md R528 to R531), drains (R235, R239, R253), the vector engine's choice of work
(09_vector_engine.md R265 to R267), contexts in THREAD mode (R383). -/

namespace Sys2Proof.Machine

/-! ### The hall pass (R528 to R532) -/

/-- Steps of a 1 µs window under P watts at a core voltage in mV: floor(P * 1 µs / E(V)) (R528, R529). -/
def passSteps (watts mv : Nat) : Nat := 10000 * watts * 562500 / max 1 (415 * mv * mv)

/-- Need of a wing in watts: ceil(E(V) * r), at most 102 (R531); r in million steps per second. -/
def passNeed (rate mv : Nat) : Nat := min 102 (ceilDiv (415 * rate * mv * mv) (10000 * 562500))

namespace Block

/-- Core rail in mV. -/
def railMv (b : Block) : Nat := b.od' 0x2901 1
/-- Free-running step rate of a wing, million steps per second. -/
def stepRate (b : Block) (w : Wing) : Nat := (b.wingPower w).rate
/-- Need of a wing. -/
def need (b : Block) (w : Wing) : Nat := passNeed (b.stepRate w) b.railMv

/-- A REQUEST sent (R530, R532). -/
def sendRequest (b : Block) (w : Wing) : Block :=
  let p := b.wingPower w
  ((b.sendPower (.request (w == .south) (b.need w))).setWingPower w { p with asked := some (b.need w, b.time) }).count
    0x2900 5 1

/-- A wing whose array has work asks for a pass when it holds fewer watts than its need and no REQUEST is open
(R531). -/
def wantPass (b : Block) (w : Wing) : Block :=
  let e := b.engine w
  if (!e.ready.isEmpty || e.current.isSome) && b.pass w < b.need w && (b.wingPower w).asked.isNone then b.sendRequest w
  else b

/-! ### Passes (R239 to R241) -/

/-- The operand copies of a pass are consumed: it begins (R170). -/
def consumePass (b : Block) (w : Wing) (f : Flow) (p : Pass) : Block :=
  let addrs := p.b.filterMap (·.addr)
  let e := b.engine w
  let hit := fun (c : RowCopy) => (c.addr.map addrs.contains).getD false
  let slots := e.slots.map (fun s => { s with cols := s.cols.map (fun c => if hit c then { c with used := true } else c) })
  let b1 := b.setEngine w { e with slots := slots }
  if p.b.isEmpty && p.a.isEmpty then b1.consumeRows f.id (f.needs (f.groupBags p.group)) else b1

/-- A pass begins: it leaves the ready passes, counts, opens a run unless one is under way, and a PROJECT that writes to
another package asks for its tile's grant (R240, R437). -/
def beginPass (b : Block) (w : Wing) (f : Flow) (p : Pass) : Block :=
  let b1 := b.consumePass w f p
  let e := b1.engine w
  let p1 := { p with b := p.b.map (fun c => { c with used := true }) }
  let b2 := (b1.setEngine w { e with ready := e.ready.erase p, current := some p1, running := true }).count (arrayOd w) 1 1
  let b3 := if e.running then b2 else b2.count (arrayOd w) 2 1
  if f.opcode == opProject && f.pjOutKind == 2 then
    let rows := (groupRows f.pjM p.group).length
    b3.askGrant f.id f.pjPeer (f.pjOut % 2 ^ 24) rows (rows * tilePitch (projectOut f))
  else b3

/-- The tile of a pass whose last step has been taken (R234). -/
def tileOf (f : Flow) (p : Pass) : EngineTile :=
  if f.opcode == opProject then projectTile f p
  else if f.opcode == opRecall then (if p.b.isEmpty then recallTile f p else scoreTile f p)
  else poolTile f p.group p.col

/-- The steps of the present window taken for the current pass; its tile when the last one is taken (R239, R529). The
run ends in a gap: no pass ready, no step left in the window, or both second accumulators taken (R240, R533). -/
def stepPass (b : Block) (w : Wing) : Block :=
  let e := b.engine w
  match e.current with
  | none => b
  | some p =>
    match b.flow? p.flow with
    | none => b.setEngine w { e with current := none }
    | some f =>
      let u := b.wingPower w
      let n := min p.left u.steps
      let b1 := b.setWingPower w { u with steps := u.steps - n, lastStep := if 0 < n then b.time else u.lastStep }
      if n < p.left then
        (b1.setEngine w { e with current := some { p with left := p.left - n }, running := false }).count 0x2900 7
          (min p.left (max n (b.stepRate w)) - n)
      else
        b1.setEngine w { e with current := none, finished := e.finished ++ [tileOf f p],
                                running := !e.ready.isEmpty && n < u.steps && e.finished.isEmpty }

/-- The pass that the timetable grants the wing's array (R241, R378). -/
def grantPass (b : Block) (w : Wing) : Option (Flow × Pass × Block) :=
  let e := b.engine w
  (b.grant (wingNo w) (((e.ready.map (·.flow)).eraseDups).filterMap b.flow?)).bind (fun r =>
    (e.ready.find? (fun p => p.flow == r.1.id)).map (fun p => (r.1, p, r.2)))

/-- ARRAY_PASS: the current pass goes on, or the next one begins, as far as the present window allows. -/
def arrayPass (b : Block) (w : Wing) : Block :=
  if !b.ready || !b.wingUp w then b
  else
    let b1 := b.wantPass w
    match (b1.engine w).current with
    | some _ => b1.stepPass w
    | none =>
      if 2 ≤ (b1.engine w).finished.length then b1
      else
        match b1.grantPass w with
        | none => b1
        | some (f, p, b2) =>
          if (b2.wingPower w).steps == 0 then b1.setEngine w { b1.engine w with running := false }
          else (b2.beginPass w f p).stepPass w

/-! ### Drain (R235, R239, R253) -/

/-- Finished tiles of a wing that wait for a grant of a local satchel queue, in their places in the tile queue (R266,
R369). -/
def waitingTiles (b : Block) (w : Wing) : List Flow :=
  b.streams.claims.filterMap (fun c =>
    if c.remote.isSome then none
    else (c.tile.bind (fun t => b.flow? t.flow)).filter (fun f => f.stream.isNone && wingOf f.su == w))

/-- Places of a wing's tile queue that are taken. -/
def tilesHeld (b : Block) (w : Wing) : Nat := (b.engine w).tileQueue.length + (b.waitingTiles w).length

/-- TILE_DRAIN: the oldest finished result enters the tile queue when it has room. -/
def tileDrain (b : Block) (w : Wing) : Block :=
  let e := b.engine w
  match e.finished with
  | [] => b
  | t :: rest =>
    if Config.tileQueueDepth ≤ b.tilesHeld w then b
    else
      let b1 := (b.setEngine w { e with finished := rest, tileQueue := e.tileQueue ++ [t] }).count 0x2400 1 t.sat
      match b1.flow? t.flow with
      | none => b1
      | some f => if f.opcode == opProject then b1.drainSatchels f t else b1

/-! ### The vector engine (R265, R266) -/

/-- A flow's tile or block can pass the vector engine now: its reads and its writes find room, and no tile of its own waits
for a grant (R327, R369). -/
def mayPass (b : Block) (w : Wing) (f : Flow) : Bool :=
  !b.readWaits f && !b.senderHeld f.id && (b.waitingTiles w).all (fun g => g.id != f.id)

/-- The head of the tile queue, when the vector engine may take it: tiles leave the queue in order, so none waits for a
grant (R265, R369). -/
def queueHead (b : Block) (w : Wing) : Option (Flow × EngineTile) :=
  if (b.waitingTiles w).isEmpty then
    ((b.engine w).tileQueue.head?).bind (fun t => ((b.flow? t.flow).filter (b.mayPass w)).map (fun f => (f, t)))
  else none

/-- What the vector engine takes next: the head of the tile queue while that holds 4 tiles; else that or the first block of
the flow the timetable grants (R265, R378). -/
def grantWork (b : Block) (w : Wing) : Option (Flow × (EngineTile ⊕ Pass) × Block) :=
  let e := b.engine w
  let head := b.queueHead w
  let feed := (((e.feed.map (·.flow)).eraseDups).filterMap b.flow?).filter (b.mayPass w)
  if 4 ≤ b.tilesHeld w || feed.isEmpty then head.map (fun h => (h.1, .inl h.2, b))
  else
    let heads := (head.toList.map (·.1)).filter (fun f => feed.all (fun g => g.id != f.id))
    (b.grant (2 + wingNo w) (heads ++ feed)).bind (fun r =>
      match head.filter (fun h => h.1.id == r.1.id) with
      | some h => some (r.1, .inl h.2, r.2)
      | none => (e.feed.find? (fun p => p.flow == r.1.id)).map (fun p => (r.1, .inr p, r.2)))

/-- A tile taken from the tile queue. -/
def takeTile (m : Memory) (b : Block) (w : Wing) (f : Flow) (t : EngineTile) : Block :=
  let e := b.engine w
  let b1 := (b.setEngine w { e with tileQueue := e.tileQueue.tail }).count (vectorOd w) 5 1
  if f.opcode == opProject then b1.projectTake m w f t
  else if f.opcode == opRecall then
    (if f.tilesFormed < f.rcScan then b1.scoreTake w f t else b1.recallTake m w f t)
  else b1.poolTake m w f t

/-- A block taken from the direct feed. -/
def takeBlock (m : Memory) (b : Block) (w : Wing) (f : Flow) (p : Pass) : Block :=
  let e := b.engine w
  let b1 := (b.setEngine w { e with feed := e.feed.erase p }).count (vectorOd w) 6 1
  if f.opcode == opVecChain then b1.vecTake m w f p
  else if f.opcode == opRecall then b1.rawTake m w f p
  else b1.feedTake m w f p

/-! ### Contexts (R383) -/

/-- Satchels that the next row group of a command needs (R252, R281). -/
def satchelsWanted (f : Flow) : Nat := if f.opcode == opProject then f.pjSatchels else colGroups f.vcCols

/-- A context's command has work ready: no row it asked a peer for is outstanding, no row it reads is held, and the
satchels of its next row group are (R383). -/
def workReady (b : Block) (f : Flow) : Bool :=
  f.remote.all (·.answered) && !b.readWaits f &&
    ((f.fromQ.map (fun q => decide (satchelsWanted f ≤ (b.heldBy q f.id).length))).getD true)

/-- CONTEXT_SWITCH: a THREAD stream unit whose current context has no work ready goes on with another that has. -/
def contextSwitch (b : Block) (su : Nat) : Block :=
  if !b.threaded (wingOf su) then b
  else match (b.currentContext su).bind b.flow? with
    | none => b
    | some cur =>
      if b.workReady cur then b
      else
        let fs := ((b.holders su).filterMap b.flow?).filter (fun f => f.id != cur.id && b.workReady f)
        match b.grant (64 + su) fs with
        | none => b
        | some (f, b1) => { b1 with contexts := (su, f.id) :: b1.contexts.filter (· != (su, f.id)) }

end Block

/-- ARRAY_PASS (R234, R239 to R241, R529, R531). -/
def execArrayPass (w : Wing) (s : State) : Out := finish s (s.blk.arrayPass w)
/-- TILE_DRAIN (R235, R239, R253). -/
def execTileDrain (w : Wing) (s : State) : Out := finish s (s.blk.tileDrain w)

/-- VECTOR_TAKE: the vector engine takes its next tile or block, once the timetable also grants the wing's quantiser to the
conversion that ends it (R99, R265 to R267, R378). An operand read that waits leaves the state as it was. -/
def execVectorTake (w : Wing) (s : State) : Out :=
  if !s.blk.ready || !s.blk.wingUp w then .next s
  else match s.blk.grantWork w with
    | none => .next s
    | some (f, x, b) =>
      match if Block.tileConverts f then b.quantiserTurn f else some b with
      | none => .next s
      | some b0 =>
        let b1 := match x with
          | .inl t => b0.takeTile s.mem w f t
          | .inr p => b0.takeBlock s.mem w f p
        workStep s f.id b1 ((s.blk.cutFlow f.id).endFlow f.id stOrphaned)

/-- CONTEXT_SWITCH (R383). -/
def execContextSwitch (su : Nat) (s : State) : Out := finish s (s.blk.contextSwitch su)

end Sys2Proof.Machine
end

