-- ==== Sys2Proof/Machine/Power.lean ====
section
/-! DEFINITION. Power and heat of the block (18_power_timing_thermal.md R528 to R541): the hall passes of the wings, the
core rail, the junction sensors. -/

namespace Sys2Proof.Machine

/-- Serial-number order of R530: a is above c. -/
def seqAbove (a c : Nat) : Bool :=
  let d := (a + 65536 - c % 65536) % 65536
  0 < d && d < 32768

/-- Domain of an island: 0 North, 1 South, 2 shared, in the order of R21 (log 35). -/
def islandDomain (i : Nat) : Nat := if i < 12 then i % 2 else 2

/-- The engine sets messages against the last sequence number; none has come yet. -/
def fresherSeq (last : Option Nat) (seq : Nat) : Bool := (last.map (seqAbove seq)).getD true

namespace Block

/-- Highest reading of a domain (R537). -/
def domainTemp (b : Block) (d : Nat) : Nat :=
  (((List.range 18).filter (fun i => islandDomain i == d)).map (fun i => b.od' 0x2902 (i + 1))).foldl max 0

/-- The POWER event of R541; the pass of the shared domain is no figure that a rule gives, so it is free (log 5). -/
def powerEvent (b : Block) (kind domain fr dest : Nat) : Block :=
  let n := b.fresh
  let watts := if domain < 2 then n.2.od' 0x2900 (1 + domain) else (Config.freeFaultDetail n.1).toNat % 65536
  n.2.event 8 (pack [(0, kind), (8, domain), (16, fr), (18, dest), (32, watts), (48, n.2.domainTemp domain), (64, n.2.time),
    (128, n.2.railMv)])

/-! ### The hall pass (R529 to R532) -/

/-- Thermal state of a wing (OD 0x2902.21, .22). -/
def wingHeat (b : Block) (w : Wing) : Nat := b.od' 0x2902 (0x21 + wingNo w)

/-- Steps of a wing's next window: the cap of its pass, and above NORMAL the share F of its free-running rate (R529,
R538). -/
def windowSteps (b : Block) (w : Wing) : Nat :=
  let cap := passSteps (b.pass w) b.railMv
  if b.wingHeat w == 0 then cap else min cap (b.stepRate w * throttleQuarters (b.wingHeat w) / 4)

/-- A new window of one wing: a waiting grant comes into force (R532); a wing that must not hold a pass gives it back
(R531). -/
def openWindow (b : Block) (w : Wing) : Block :=
  let p := b.wingPower w
  let b1 := match p.next with
    | none => b
    | some watts => (b.setOd 0x2900 (1 + wingNo w) watts).setWingPower w { p with next := none }
  let b2 := if !b1.wingUp w || b1.engineState == 3 || b1.engineState == 5 then b1.returnPass w else b1
  b2.setWingPower w { b2.wingPower w with steps := b2.windowSteps w }

/-- HALL_PASS_WINDOW. -/
def passWindow (b : Block) : Block := if b.powered then (b.openWindow .north).openWindow .south else b

/-- A manager message is applied: its number kept, ACK sent (R530, R532). -/
def applyPower (b : Block) (seq : Nat) : Block :=
  ({ b with power := { b.power with seq := some seq } } : Block).sendPower (.ack seq)

/-- POWER_GRANT: the pass in force from the next window; a REQUEST has its answer. -/
def powerGrant (b : Block) (w : Wing) (watts seq : Nat) : Block :=
  if !b.powered || !fresherSeq b.power.seq seq then b
  else
    let b1 := b.applyPower seq
    b1.setWingPower w { b1.wingPower w with next := some watts, asked := none, silent := false }

/-- REVOKE: the pass lowered from the next window; one POWER event shows the pass it leaves. -/
def powerRevoke (b : Block) (w : Wing) (watts seq : Nat) : Block :=
  if !b.powered || !fresherSeq b.power.seq seq then b
  else
    let b1 := (b.applyPower seq).count 0x2900 6 1
    let now := ((b1.wingPower w).next).getD (b1.pass w)
    let left := min now watts
    let n := pack [(0, 0), (8, wingNo w), (32, left), (48, b1.domainTemp (wingNo w)), (64, b1.time), (128, b1.railMv)]
    (b1.setWingPower w { b1.wingPower w with next := some left }).event 8 n

/-- The wing's array goes on stepping under its pass. -/
def stepsOn (b : Block) (w : Wing) : Bool :=
  let e := b.engine w
  0 < b.windowSteps w && (e.current.isSome || (!e.ready.isEmpty && e.finished.length < 2))

/-- RETURN: an array gives its pass back after OD 0x2900.04 µs without a step (R531, log 2). -/
def idleReturn (b : Block) (w : Wing) : Block :=
  if b.pass w == 0 || b.stepsOn w then b
  else
    ({ b with time := max b.time ((b.wingPower w).lastStep + 1000 * b.od' 0x2900 4) } : Block).returnPass w

/-- PASS_SILENT: a REQUEST without an answer for 100 µs is repeated; one event until a grant is applied (R532). -/
def passSilent (b : Block) (w : Wing) : Block :=
  match (b.wingPower w).asked with
  | none => b
  | some (_, t) =>
    let b1 := ({ b with time := max b.time (t + 100000) } : Block).sendRequest w
    let b2 := if (b.wingPower w).silent then b1 else b1.powerEvent 1 (wingNo w) 0 0
    b2.setWingPower w { b2.wingPower w with silent := true }

/-! ### Voltage and rate (R535, R536) -/

/-- Steps left in a window after the rail moves from `old` to `new` mV: each costs E(V) at the voltage it is taken at. -/
def rescale (steps old new : Nat) : Nat := steps * old * old / max 1 (new * new)

/-- VOLTAGE_CHANGE. -/
def voltage (b : Block) (mv : Nat) : Block :=
  if !b.powered then b
  else
    let f := fun (b : Block) (w : Wing) =>
      b.setWingPower w { b.wingPower w with steps := rescale (b.wingPower w).steps b.railMv mv }
    (f (f b .north) .south).setOd 0x2901 1 mv

/-- RAIL_LOW: a notice that names the shared domain in its event; its record's unit is free (log 5). -/
def railLow (b : Block) : Block :=
  if !b.powered then b
  else
    let n := b.fresh
    (n.2.found 0x41 ((Config.freeFaultDetail n.1).toNat % 65536) 0 false).powerEvent 3 2 0 0

/-! ### Junctions (R537 to R539) -/

/-- Thresholds of OD 0x2903. -/
def junctionThr (b : Block) : List Nat := (List.range 3).map (fun i => b.od' 0x2903 (i + 1))

/-- The own state of a domain after its readings; kept in `heat`. -/
def stepHeat (b : Block) (d : Nat) : Block :=
  let s := thermalNext b.junctionThr (b.od' 0x2903 4) (mapGet b.power.heat 0 d) (b.domainTemp d)
  { b with power := { b.power with heat := mapSet b.power.heat 0 d s } }

/-- State of a domain: SEVERE while one of its sensors has failed. -/
def heatOf (b : Block) (d : Nat) : Nat :=
  if b.power.failed.any (fun i => islandDomain i == d) then 3 else mapGet b.power.heat 0 d

/-- A wing's thermal state, with one event at a change (R538). -/
def showHeat (b : Block) (w : Wing) : Block :=
  let old := b.wingHeat w
  let new := max (b.heatOf (wingNo w)) (b.heatOf 2)
  if new == old then b else (b.setOd 0x2902 (0x21 + wingNo w) new).powerEvent 2 (wingNo w) old new

/-- A wing takes a JUNCTION_TRIP when one of its islands or a shared one reads 110 °C or more (R539). -/
def trips (b : Block) (w : Wing) : Bool := b.wingEnabled w && (110 ≤ b.domainTemp (wingNo w) || 110 ≤ b.domainTemp 2)

/-- JUNCTION_READ: valid readings of the islands 0 on held, states changed, trips raised. An island beyond the list gives no
valid reading. -/
def junctions (b : Block) (temps : List Nat) : Block :=
  if !b.powered then b
  else
    let b2 := (List.range 18).foldl (fun (b : Block) i =>
      match temps[i]? with
      | none => b
      | some t =>
        let b1 := b.setOd 0x2902 (i + 1) t
        { b1 with power := { b1.power with readAt := mapSet b1.power.readAt (2 ^ 64) i b1.time,
                                           failed := b1.power.failed.filter (· != i) } }) b
    let b3 := (((b2.stepHeat 0).stepHeat 1).stepHeat 2)
    let b4 := (b3.showHeat .north).showHeat .south
    let b5 := if b4.trips .north then b4.found 0x40 0x20 0 false else b4
    if b5.trips .south then b5.found 0x40 0x21 0 false else b5

/-- STEP_RATE_MEASURE: the rates measured, and shown in their entries while telemetry samples (R508, R535, log 63). -/
def measureRates (b : Block) (north south : Nat) : Block :=
  if !b.powered then b
  else
    let b1 := (b.setWingPower .north { b.wingPower .north with rate := north }).setWingPower .south
      { b.wingPower .south with rate := south }
    if b1.samples then (b1.setOd 0x2901 2 north).setOd 0x2901 3 south else b1

/-- SENSOR_FAIL: 100 µs without a valid reading (log 2). The record of a wing's island names the wing; of a shared
island, a free unit (log 5). -/
def sensorFail (b : Block) (i : Nat) : Block :=
  if !b.powered || b.power.failed.contains i then b
  else
    let b1 : Block := { b with time := max b.time (mapGet b.power.readAt 0 i + 100000),
                               power := { b.power with failed := b.power.failed ++ [i] } }
    let n := b1.fresh
    let unit := if islandDomain i < 2 then 0x20 + islandDomain i else (Config.freeFaultDetail n.1).toNat % 65536
    ((n.2.found 0x42 unit 0 false).showHeat .north).showHeat .south

end Block

/-- POWER_GRANT (R530, R532). -/
def execPowerGrant (w : Wing) (watts seq : Nat) (s : State) : Out := finish s (s.blk.powerGrant w watts seq)
/-- REVOKE (R530, R532, R541). -/
def execRevoke (w : Wing) (watts seq : Nat) (s : State) : Out := finish s (s.blk.powerRevoke w watts seq)
/-- RETURN (R531). -/
def execHallReturn (w : Wing) (s : State) : Out := finish s (s.blk.idleReturn w)
/-- PASS_SILENT (R532, R541). -/
def execPassSilent (w : Wing) (s : State) : Out := finish s (s.blk.passSilent w)
/-- HALL_PASS_WINDOW (R529, R532, R538). -/
def execHallPassWindow (s : State) : Out := finish s s.blk.passWindow
/-- VOLTAGE_CHANGE (R535). -/
def execVoltageChange (mv : Nat) (s : State) : Out := finish s (s.blk.voltage mv)
/-- STEP_RATE_MEASURE (R535). -/
def execStepRateMeasure (north south : Nat) (s : State) : Out :=
  finish s (s.blk.measureRates north south)
/-- JUNCTION_READ (R537 to R539). -/
def execJunctionRead (temps : List Nat) (s : State) : Out := finish s (s.blk.junctions temps)
/-- SENSOR_FAIL (R539, R540). -/
def execSensorFail (island : Nat) (s : State) : Out := finish s (s.blk.sensorFail island)
/-- RAIL_LOW (R536, R540, R541). -/
def execRailLow (s : State) : Out := finish s s.blk.railLow

end Sys2Proof.Machine
end

