-- ==== Sys2Proof/Machine/Seryo.lean ====
section
/-! DEFINITION. The Seryo fabric at work (14_seryo_fabric.md R418 to R447): flits and link commands as a port receives
them, port timers, and the messages that the transaction engine takes from the receive buffers. -/

namespace Sys2Proof.Machine

/-- The frame word of a codeword pair: MARK and CHECK hold (R418). -/
def frameGood (w : Nat) : Bool :=
  bits w 7 0 == 0x5C && bits w 39 32 == (bits w 7 0 ^^^ bits w 15 8 ^^^ bits w 23 16 ^^^ bits w 31 24)

namespace Block

/-! ### Ports coming up (R425, R439, R440) -/

/-- A port may train: the ports are enabled and the engine is STARTING or READY (R476, R477). -/
def mayTrain (b : Block) : Bool := 8 ≤ b.startUp.step && (b.engineState == 1 || b.engineState == 2)

/-- LANE_LOCK: a DOWN port with light and lane lock enters TRAINING and sends HELLO. -/
def laneLock (b : Block) (n : Nat) : Block :=
  if b.mayTrain && b.portState n == psDown then (b.setPortState n psTraining).sendHello n else b

/-- A port in TRAINING with both HELLOs exchanged enters UP: it sends an ECHO and a BEACON, and its route is new. -/
def tryUp (b : Block) (n : Nat) : Block :=
  let p := b.port n
  if b.portState n == psTraining && p.helloOk && p.acked then
    let old := b.directMap
    (((b.setPortState n psUp).sendEcho n).sendBeacon n).routesChanged old
  else b

/-- A HELLO in conflict isolates its port (R440); it has made the neighbour known (R448). -/
def isolate (b : Block) (n pkg : Nat) : Block :=
  let b1 := if b.neighbour n == 0xFF then b.setOd 0x2701 (0x21 + n) pkg else b
  (b1.leavePort n psIsolated).seryoEvent 4 pkg n 0 0 0 0

/-- A HELLO without conflict: in TRAINING it names the neighbour, and the port's own HELLO goes again. -/
def greet (b : Block) (n pkg : Nat) : Block :=
  if b.portState n == psTraining then
    (((b.modPort n (fun p => { p with helloOk := true })).setOd 0x2701 (0x21 + n) pkg).sendHello n).tryUp n
  else b

/-- A HELLO is checked (R440). -/
def takeHello (b : Block) (n : Nat) (f : Flit) : Block :=
  let pkg := fl f 109 104
  if pkg == b.package then b.isolate n pkg
  else match b.peer? pkg with
    | none => b.greet n pkg
    | some q =>
      if q.ident != fl f 223 160 then b.isolate n pkg
      else (if q.incarn != fl f 159 128 then (b.depart pkg).departLost else b).greet n pkg

/-! ### Good and bad flits (R419 to R424) -/

/-- A port that receives: TRAINING or UP. -/
def receives (b : Block) (n : Nat) : Bool := b.portState n == psTraining || b.portUp n

/-- A discarded flit, or a gap in SEQ, makes one NAK until the expected SEQ arrives (R422). -/
def refuseFlit (b : Block) (n : Nat) : Block := if b.portUp n && !(b.port n).naking then b.sendNak n else b

/-- The flits that an ACK_SEQ covers leave the replay buffer (R422). -/
def ackReplay (now seq : Nat) (p : Port) : Port :=
  match p.replay.findIdx? (fun e => e.1 == seq) with
  | none => p
  | some i => { p with replay := p.replay.drop (i + 1), ackAt := now }

/-- Returned credits, up to the pool sizes (R420, R423). -/
def addCredits (f : Flit) (p : Port) : Port :=
  { p with credits := (List.range 8).map (fun k =>
      min (poolSizes.getD k 0) (p.credits.getD k 0 + fl f (67 + 4 * k) (64 + 4 * k))) }

/-- The last good flit or message of a present package (R447). -/
def heard (b : Block) (p : Nat) : Block := b.modPeer p (fun q => { q with heardAt := b.time })

/-- What every good flit carries: its arrival, ACK_SEQ and CREDIT_RET (R421 to R423). In TRAINING an ACK_SEQ that is
valid acknowledges the port's own HELLO (log 17). -/
def takeHeader (b : Block) (n : Nat) (f : Flit) : Block :=
  let ack := fl f 48 48 == 1
  if b.portUp n then
    ((b.modPort n (fun p =>
      addCredits f (if ack then ackReplay b.time (fl f 47 32) { p with goodAt := b.time } else { p with goodAt := b.time }))).heard
        (b.neighbour n)).pump n
  else (b.modPort n (fun p => { p with goodAt := b.time, acked := p.acked || ack })).tryUp n

/-! ### Messages in the receive buffers (R423, R426) -/

end Block

/-- The flits of the oldest whole message of a pool of a port. -/
def firstMsg (p : Port) (pool : Nat) : Option (List Flit) :=
  let fs := (p.rx.filter (fun e => e.1 == pool)).map (·.2)
  (fs.findIdx? (fun f => fl f 8 8 == 1)).map (fun i => fs.take (i + 1))

/-- The flits of the newest whole message of a pool of a port, when the pool's last flit ends it. -/
def newestMsg (p : Port) (pool : Nat) : Option (List Flit) :=
  match ((p.rx.filter (fun e => e.1 == pool)).map (·.2)).reverse with
  | [] => none
  | f :: fs => if fl f 8 8 == 1 then some ((f :: fs.takeWhile (fun g => fl g 8 8 != 1)).reverse) else none

/-- The bytes of a message: its header and LEN bytes after it. -/
def msgBytes (fs : List Flit) : Bytes :=
  let raw := fs.flatMap flitPayload
  fit (16 + bits (leNat (raw.take 16)) 108 96) raw

/-- The first n flits of a pool taken from the receive buffers. -/
def dropPool (pool : Nat) : Nat → List (Nat × Flit) → List (Nat × Flit)
  | 0, l => l
  | _ + 1, [] => []
  | n + 1, x :: xs => if x.1 == pool then dropPool pool n xs else x :: dropPool pool (n + 1) xs

/-- The last n flits of a pool taken from the receive buffers. -/
def dropNewest (pool n : Nat) (l : List (Nat × Flit)) : List (Nat × Flit) := (dropPool pool n l.reverse).reverse

/-- A message type that is not reserved (R427). -/
def knownType (t : Nat) : Bool := (1 ≤ t && t ≤ 8) || t == mtBeacon || t == mtRoute

namespace Block

/-- The transaction engine takes a message of n flits: their credits are to be returned (R423). -/
def popMsg (b : Block) (port pool n : Nat) : Block :=
  b.modPort port (fun p => { p with rx := dropPool pool n p.rx, owed := updAt p.owed pool (· + n) })

/-- A message addressed to this package comes from a current session, or is a BEACON that discovery takes (R438). -/
def admitted (b : Block) (msg : Bytes) : Bool :=
  let src := mg msg 13 8
  match b.peer? src with
  | some q => q.incarn == mg msg 95 64 || (mg msg 5 0 == mtBeacon && q.ident == leNat (slice msg 64 8))
  | none => mg msg 5 0 == mtBeacon && src != b.package

/-- A message that is dropped at once: of a reserved type, or addressed to this package outside a session (R427,
R438). -/
def unwanted (b : Block) (msg : Bytes) : Bool :=
  !knownType (mg msg 5 0) || (mg msg 21 16 == b.package && !b.admitted msg)

/-- A message that the last flit has completed is dropped and counted where it is unwanted, whatever waits before it. -/
def sift (b : Block) (port pool : Nat) : Block :=
  match newestMsg (b.port port) pool with
  | none => b
  | some fs =>
    if b.unwanted (msgBytes fs) then
      (b.modPort port (fun p => { p with rx := dropNewest pool fs.length p.rx,
                                         owed := updAt p.owed pool (· + fs.length) })).count 0x2704 8 1
    else b

/-- A DATA flit: accepted in order, else discarded with a NAK (R422). -/
def takeData (b : Block) (n : Nat) (f : Flit) : Block :=
  if fl f 31 16 == (b.port n).rxSeq then
    let pool := flitPool f
    let b1 := (b.modPort n (fun p =>
      { p with rxSeq := (p.rxSeq + 1) % 65536, naking := false, rx := p.rx ++ [(pool, f)] })).count 0x2704 2 1
    if fl f 8 8 == 1 then b1.sift n pool else b1
  else b.refuseFlit n

/-- One flit of the replay buffer sent again under a fresh header (R420, R422). -/
def sendAgain (b : Block) (n : Nat) (e : Nat × Flit) : Block :=
  b.launch n (flitHeader (b.port n) 1 (flitPool e.2) (fl e.2 7 7) (fl e.2 8 8) e.1) (flitPayload e.2)

/-- A NAK: what was sent from EXPECT_SEQ on is sent again; the fourth in a row for one SEQ takes the port DOWN (R422,
R425). -/
def takeNak (b : Block) (n : Nat) (f : Flit) : Block :=
  let e := fl f 239 224
  let p := b.port n
  let run := if p.nakSeq == e && p.nakRun != 0 then p.nakRun + 1 else 1
  let b1 := b.modPort n (fun p => { p with nakSeq := e, nakRun := run })
  if 4 ≤ run then b1.leavePort n psDown
  else (p.replay.dropWhile (fun x => x.1 != e)).foldl (fun b x => b.sendAgain n x) b1

/-- An ECHO is answered with the times it arrived and its answer left (R424). -/
def takeEcho (b : Block) (n : Nat) (f : Flit) : Block :=
  b.sendLink n (pack [(96, 4), (240, fl f 303 240), (304, b.time), (368, b.time)])

/-- An ECHO_REPLY gives the four times of R445. -/
def takeEchoReply (b : Block) (n : Nat) (f : Flit) : Block :=
  b.modPort n (fun p => { p with echo := some (fl f 303 240, fl f 367 304, fl f 431 368, b.time) })

/-- What a good flit asks for beyond its header. A reserved FTYPE or LCMD asks for nothing. -/
def actOn (b : Block) (n : Nat) (f : Flit) : Block :=
  if fl f 3 0 == 1 then (if b.portUp n then b.takeData n f else b)
  else if fl f 3 0 == 2 then
    if fl f 103 96 == 1 then b.takeHello n f
    else if !b.portUp n then b
    else if fl f 103 96 == 2 then b.takeNak n f
    else if fl f 103 96 == 3 then b.takeEcho n f
    else if fl f 103 96 == 4 then b.takeEchoReply n f
    else if fl f 103 96 == 5 then b.leavePort n psDown
    else b
  else b

/-- One flit that a port receives (R421, R422). -/
def takeFlit (b : Block) (n : Nat) (f : Flit) : Block :=
  if !b.receives n then b
  else if !flitGood f then b.refuseFlit n
  else
    let b1 := b.takeHeader n f
    if b1.receives n then b1.actOn n f else b1

/-- A flit of a type, or a link command, that a row names; the row asks for nothing on another (log 1). -/
def takeTyped (b : Block) (n : Nat) (f : Flit) (ftype : Nat) (lcmd : Option Nat) : Block :=
  if fl f 3 0 == ftype && (lcmd.map (fun c => fl f 103 96 == c)).getD true then b.takeFlit n f else b

/-- Corrected symbols of a pair: counted, and PORT_DEGRADED when those of 1 ms exceed the limit (R418, R448, log 40). -/
def countSymbols (b : Block) (n symbols : Nat) : Block :=
  let p := b.port n
  let anew := p.symbolAt + 1000000 ≤ b.time
  let old := if anew then 0 else p.symbolSum
  let limit := b.od' 0x2700 5
  let b1 := (b.modPort n (fun p => { p with
    symbols := min 255 symbols, symbolSum := old + symbols, symbolAt := if anew then b.time else p.symbolAt })).count 0x2704 4 symbols
  if old ≤ limit && limit < old + symbols then b1.seryoEvent 5 (if b.portUp n then b.neighbour n else 0) n 0 0 0 0 else b1

/-- CODEWORD_PAIR: the flits of a pair whose codewords are all corrected; a frame word that fails is lost alignment
(R418, R419, log 38). -/
def takePair (b : Block) (n frame symbols : Nat) (corrected : Bool) (flits : List Flit) : Block :=
  if !b.receives n then b
  else
    let b1 := b.countSymbols n symbols
    if !corrected then (b1.count 0x2704 5 1).refuseFlit n
    else if !frameGood frame then b1.leavePort n psDown
    else flits.foldl (fun b f => b.takeFlit n f) b1

/-! ### Port timers (R425, log 2) -/

/-- A port leaves for DOWN at a time. -/
def downAt (b : Block) (n t : Nat) : Block := ({ b with time := max b.time t } : Block).leavePort n psDown

/-- PORT_SILENCE: 1 µs without a good flit. -/
def silence (b : Block) (n : Nat) : Block := if b.portUp n then b.downAt n ((b.port n).goodAt + 1000) else b

/-- ACK_PROGRESS_TIMEOUT: 16 µs without progress of ACK_SEQ while flits are unacknowledged. -/
def ackTimeout (b : Block) (n : Nat) : Block :=
  if b.portUp n && !(b.port n).replay.isEmpty then b.downAt n ((b.port n).ackAt + 16000) else b

/-- HELLO_TIMEOUT: no HELLO within 10 ms of TRAINING. -/
def helloTimeout (b : Block) (n : Nat) : Block :=
  if b.portState n == psTraining && !(b.port n).helloOk then b.downAt n ((b.port n).trainAt + 10000000) else b

/-- LOCK_LOST: lane lock or pair alignment lost; an ISOLATED port stays so (R419, R425). -/
def lockLost (b : Block) (n : Nat) : Block := if b.receives n then b.leavePort n psDown else b

/-! ### The messages of a row (R426 to R430) -/

/-- The oldest whole message of a pool, if it has the type and is addressed to this package: taken, and acted on when
its session is current (R438). -/
def onMsg (b : Block) (port pool mtype : Nat) (act : Block → Nat → Bytes → Block) : Block :=
  if !b.portUp port then b
  else match firstMsg (b.port port) pool with
    | none => b
    | some fs =>
      let msg := msgBytes fs
      if mg msg 5 0 != mtype || mg msg 21 16 != b.package then b
      else
        let b1 := b.popMsg port pool fs.length
        if b1.admitted msg then act (b1.heard (mg msg 13 8)) (mg msg 13 8) msg else b1.count 0x2704 8 1

/-- A message whose TXN is in its source's record counts, and is answered from the record once it has an answer; an answer
still to come travels by the port that the repeat came by (R428, R429). Otherwise it is acted on. -/
def onceOnly (b : Block) (port src : Nat) (msg : Bytes) (act : Block → Block) : Block :=
  let txn := mg msg 63 32
  match ((b.peer? src).bind (fun q => q.performed.find? (fun e => e.txn == txn))) with
  | none => act b
  | some e =>
    let b1 := (b.modPeer src (fun q => { q with
      performed := updFirst (fun x => x.txn == txn) (fun x => { x with port := port }) q.performed })).count 0x2704 9 1
    match e.answer with
    | none => b1
    | some ans => b1.sendOn port 0 ans

/-- The flow that asked a peer under a TXN for something not yet answered, with what it asked. -/
def asker (b : Block) (p txn kind : Nat) : Option (Flow × RemoteRow) :=
  b.flows.findSome? (fun f =>
    (f.remote.find? (fun r => r.kind == kind && r.peer == p && r.txn == txn && !r.answered)).map (fun r => (f, r)))

/-- An answer noted at what a flow asked. -/
def noteAnswer (b : Block) (id : Nat) (r : RemoteRow) (status : Nat) (data : Bytes) : Block :=
  b.modFlow id (fun f => { f with
    remote := updFirst (fun x => x == r) (fun x => { x with answered := true, status := status, data := data }) f.remote })

/-- What a command makes of a STATUS besides poison (R42, R430). -/
def noteStatus (b : Block) (id status : Nat) : Block :=
  if status == 3 then b.note id stTableVersion else if status == 4 then b.note id stEpochMismatch else b

/-! ### Rows (R42, R396, R431, R432) -/

/-- What a holder finds of a row: a STATUS, or its descriptor and address (R430). VERSION is judged before the row's
place (log 39). -/
def holderRow (m : Memory) (b : Block) (src table row version : Nat) : (Nat ⊕ Nat × Nat) × Block :=
  if b.rollRefuses src then (.inl 4, b)
  else
    let t := b.tableBeat m b.nextFlow table false
    match t.1 with
    | none => (.inl 2, t.2.2)
    | some d =>
      if t.2.1 || tableBad d then (.inl 2, t.2.2)
      else if version != 0 && tdVersion d != 0 && version != tdVersion d then (.inl 3, t.2.2)
      else
        let p := t.2.2.resolve m b.nextFlow d row false
        match p.1 with
        | .local a => (.inr (d, a), p.2)
        | _ => (.inl 2, p.2)

/-- The body of a ROWDATA (R431). -/
def rowdataBody (table row : Nat) (data : Bytes) : Bytes :=
  natLE 16 (pack [(0, table), (16, row), (64, data.length)]) ++ data

/-- RGATHER: the holder reads the row under R396 and answers. -/
def takeRgather (m : Memory) (b : Block) (port src : Nat) (msg : Bytes) : Block :=
  let table := mg msg 143 128
  let row := mg msg 183 144
  let h := holderRow m b src table row (mg msg 223 192)
  match h.1 with
  | .inl st => h.2.reply port src mtRowdata st (mg msg 63 32) (rowdataBody table row [])
  | .inr (d, a) =>
    let r := h.2.rowLines m a (tdStride d) 2 none false
    let bad := r.2.1 || (tdShape d).poisoned r.1
    r.2.2.reply port src mtRowdata (b2n bad) (mg msg 63 32) (rowdataBody table row (if bad then [] else r.1))

/-- The message that a request's answer names asked for a blackboard line (R431). -/
def askedForBoard (b : Block) (p txn : Nat) : Bool :=
  (((b.peer? p).bind (fun q => q.awaiting.find? (fun s => s.txn == txn))).map (fun s => mg s.bytes 184 184 == 1)).getD false

/-- ROWDATA: the row that a flow asked for, poisoned where BYTES differs from its own STRIDE (R432). -/
def takeRowdata (b : Block) (src : Nat) (msg : Bytes) : Block :=
  let txn := mg msg 63 32
  let st := mg msg 31 24
  let data := slice msg 32 (mg msg 204 192)
  let b1 := b.answered src txn
  match b.asker src txn mtRgather with
  | none => b1
  | some (f, r) =>
    let bad := st != 0 || data.length != leNat r.data
    let b2 := (b1.noteAnswer f.id r (if st == 0 && bad then 1 else st) data).noteStatus f.id st
    if b.askedForBoard src txn && f.opcode != opBlackboard then
      (b2.refreshRemote r.table r.row (if bad then none else some data)).countBoard
    else b2

/-! ### Adds (R305, R433, R434) -/

/-- The wire row of an RADD for a table, where it fits (R430, R433, R434). -/
def raddWire (d : Nat) (msg : Bytes) : Option Wire :=
  let fmt := mg msg 191 188
  let e0 := mg msg 476 464
  let len := mg msg 460 448
  let dim := tdDim d
  let whole := e0 == 0 && len == packedMin fmt dim
  let n := if whole then dim else min 1024 (dim - e0)
  if fmt != 15 && aligned e0 1024 && e0 < dim && len == packedMin fmt n then
    some { fmt := fmt, elem0 := e0, n := n, data := slice msg 64 len }
  else none

/-- The optimiser step of an RADD (R433). -/
def raddOpt (msg : Bytes) : OptParams :=
  { opt := mg msg 187 185, lr := mg msg 287 256, beta1 := mg msg 319 288, beta2 := mg msg 351 320, eps := mg msg 383 352,
    wd := mg msg 415 384, c2 := mg msg 447 416 }

/-- RADD: the holder's agent performs the add or step, which its RACK then answers; or it is refused (R305, R434). -/
def takeRadd (m : Memory) (b : Block) (port src : Nat) (msg : Bytes) : Block :=
  let table := mg msg 143 128
  let row := mg msg 183 144
  let e0 := mg msg 476 464
  let txn := mg msg 63 32
  let refuse := fun (b : Block) (st : Nat) => b.reply port src mtRack st txn (rackBody table row e0)
  b.onceOnly port src msg (fun b =>
    let h := holderRow m b src table row (mg msg 223 192)
    match h.1 with
    | .inl st => refuse h.2 st
    | .inr (d, a) =>
      let upd := mg msg 184 184 == 1
      match raddWire d msg with
      | none => refuse h.2 2
      | some w =>
        if upd && optVectors (raddOpt msg).opt != some (tdOptCount d) then refuse h.2 2
        else if h.2.absentRange a (tdStride d) then refuse ((h.2.count 0x2504 0x0C 1).unperformed none 1) 1
        else
          let t : RowTarget := { addr := a, stride := tdStride d, desc := d }
          let op := if upd then AgentOp.update t (raddOpt msg) w else .add t w
          (h.2.performed port src txn).sendRowOp none op a
            (some { port := port, peer := src, txn := txn, table := table, row := row, elem0 := e0 }))

/-- RACK: an add performed, or one not performed (R305, R430). -/
def takeRack (b : Block) (src : Nat) (msg : Bytes) : Block :=
  let txn := mg msg 63 32
  let st := mg msg 31 24
  let b1 := b.answered src txn
  match b.asker src txn mtRadd with
  | none => b1.unperformed none (b2n (st != 0))
  | some (f, r) =>
    let b2 := (b1.noteAnswer f.id r st []).noteStatus f.id st
    if st == 0 then b2 else if st == 3 || st == 4 then b2.missed (some f.id) 1 else b2.unperformed (some f.id) 1

/-! ### Tiles (R256, R257, R371, R436, R437) -/

/-- A grant request that is refused: no such queue, REMOTE_IN clear, its wing in detention, or a tile too large (R371,
R430, R513). -/
def grantRefused (b : Block) (q rows bytes : Nat) : Bool :=
  match b.queue? q with
  | none => true
  | some x => !b.queueOk q || !x.remoteIn || b.wingFenced (if x.south then .south else .north) || x.size < bytes ||
      rows == 0 || 128 < rows || bytes == 0

/-- GRANT_REQ: the request waits with the local producers, or is refused. -/
def takeGrantReq (b : Block) (port src : Nat) (msg : Bytes) : Block :=
  let q := mg msg 151 128
  let flow := mg msg 207 192
  let txn := mg msg 63 32
  b.onceOnly port src msg (fun b =>
    if b.rollRefuses src then b.reply port src mtGrant 4 txn (grantBody q 0 flow)
    else if b.grantRefused q (mg msg 159 152) (mg msg 178 160) then b.reply port src mtGrant 5 txn (grantBody q 0 flow)
    else (b.performed port src txn).addClaim { queue := q, tile := none, remote := some (src, txn, port, flow), since := b.time })

/-- GRANT: the flow that asked sends its tile; a grant that no flow waits for goes back (R437). -/
def takeGrant (b : Block) (src : Nat) (msg : Bytes) : Block :=
  let txn := mg msg 63 32
  let st := mg msg 31 24
  let sat := mg msg 157 152
  let b1 := b.answered src txn
  match b.asker src txn mtGrantReq with
  | none => if st == 0 then b1.returnGrant src (mg msg 151 128) sat (mg msg 175 160) else b1
  | some (f, r) => (((b1.noteAnswer f.id r st (natLE 1 sat)).noteStatus f.id st).moveTiles f.id)

/-- Key of a flow of a peer and a queue in `tileNext`. -/
def tileKey (peer queue flow : Nat) : Nat := peer * 2 ^ 64 + flow * 2 ^ 32 + queue

/-- The satchel of a queue that is granted to a flow of a peer. -/
def grantedTo (b : Block) (q k src flow : Nat) : Bool :=
  (((b.queue? q).bind (fun x => x.sats[k]?)).map (fun x => x.state == .granted && x.remote == some (src, flow))).getD false

/-- A satchel back to FREE, with what has arrived of its tile. -/
def freeGranted (b : Block) (q k : Nat) : Block :=
  let b1 : Block := { b with seryo := { b.seryo with
    tiles := b.seryo.tiles.filter (fun t => !(t.queue == q && t.satchel == k)) } }
  b1.modQueue q (fun x => { x with sats := x.sats.set k Satchel.empty })

/-- Every part of an arriving tile is written. -/
def partsDone (t : TileIn) : Bool := (t.total.map (fun n => t.parts.length == max 1 (ceilDiv n 4096))).getD false

/-- A tile may arrive: whole, and every one of a lower TILE_SEQ of its flow has arrived (R437). -/
def tileReady (b : Block) (t : TileIn) : Bool :=
  partsDone t && t.tileSeq ≤ mapGet b.seryo.tileNext 0 (tileKey t.peer t.queue t.flow)

/-- The body of a TILE_ACK (R436). -/
def tileAckBody (q sat flow seq : Nat) : Bytes := natLE 16 (pack [(0, q), (24, sat), (32, flow), (64, seq)])

/-- The record answers every part of a tile with its TILE_ACK (R428). -/
def recordAck (b : Block) (t : TileIn) : Block :=
  b.modPeer t.peer (fun q =>
    let ans := (q.performed.find? (fun e => e.txn == t.lastTxn)).bind (·.answer)
    { q with performed := q.performed.map (fun e => if t.parts.any (fun x => x.2 == e.txn) then { e with answer := ans } else e) })

/-- A tile from another package arrives in its satchel, and is acknowledged (R256, R437). -/
def arriveTile (b : Block) (t : TileIn) : Block :=
  let south := ((b.queue? t.queue).map SatQueue.south).getD false
  let x := b.tileErrs (if south then .south else .north) t.tile.rows
  let b1 := x.2.modQueue t.queue (fun q =>
    { q with
      sats := q.sats.modify t.satchel (fun y =>
        { y with state := .arrived, remote := none, producer := some (some t.peer, t.flow), order := q.count, rows := t.tile.rows, cols := t.tile.cols,
                 fmt := t.tile.fmt, pitch := t.tile.pitch, data := fit (t.tile.rows * t.tile.pitch) t.tile.data,
                 poison := t.tile.poison, err := x.1 }),
      count := q.count + 1 })
  let key := tileKey t.peer t.queue t.flow
  let b2 : Block := { b1 with seryo := { b1.seryo with
    tiles := b1.seryo.tiles.erase t,
    tileNext := mapSet b1.seryo.tileNext 0 key (max (mapGet b1.seryo.tileNext 0 key) (t.tileSeq + 1)) } }
  (b2.reply t.port t.peer mtTileAck 0 t.lastTxn (tileAckBody t.queue t.satchel t.flow t.tileSeq)).recordAck t

/-- Every tile that may arrive does; `fuel` bounds them. -/
def arriveTiles : Nat → Block → Block
  | 0, b => b
  | fuel + 1, b =>
    match b.seryo.tiles.find? b.tileReady with
    | none => b
    | some t => arriveTiles fuel (b.arriveTile t)

/-- One part written at its OFFSET. The first part of tile 0 begins a flow's numbering anew. -/
def writePart (b : Block) (port src : Nat) (msg : Bytes) : Block :=
  let q := mg msg 151 128
  let k := mg msg 157 152
  let flow := mg msg 175 160
  let seq := mg msg 223 192
  let off := mg msg 289 272
  let len := mg msg 302 290
  let txn := mg msg 63 32
  let rows := mg msg 231 224
  let same := fun (t : TileIn) => t.peer == src && t.queue == q && t.satchel == k && t.flow == flow && t.tileSeq == seq
  let old := b.seryo.tiles.find? same
  let t0 : TileIn := old.getD
    { peer := src, queue := q, satchel := k, flow := flow, tileSeq := seq,
      tile := { flow := flow, index := seq, rows := rows, cols := mg msg 241 232, fmt := mg msg 245 242,
                pitch := mg msg 271 256, data := [],
                poison := (List.range rows).map (fun i => (mg msg 447 320).testBit i) },
      parts := [], total := none, lastTxn := 0, port := port }
  let data := patch (fit (max t0.tile.data.length (off + len)) t0.tile.data) off (slice msg 64 len)
  let t1 : TileIn := { t0 with tile := { t0.tile with data := data }, parts := t0.parts ++ [(off, txn)] }
  let t2 : TileIn := if mg msg 158 158 == 1 then { t1 with total := some (off + len), lastTxn := txn, port := port } else t1
  let next := b.seryo.tileNext
  { b with seryo := { b.seryo with
    tiles := b.seryo.tiles.filter (fun t => !same t) ++ [t2],
    tileNext := if old.isNone && seq == 0 then mapSet next 0 (tileKey src q flow) 0 else next } }

/-- A tile refused with a STATUS: its TILE_ACK answers every part and carries the TXN of the part with LAST, so that it is
sent once that part has come; satchel and parts written are given up (R428, R430). -/
def refuseTile (b : Block) (port src : Nat) (msg : Bytes) (st : Nat) : Block :=
  let q := mg msg 151 128
  let k := mg msg 157 152
  let flow := mg msg 175 160
  let seq := mg msg 223 192
  let last := if mg msg 158 158 == 1 then some (mg msg 63 32)
    else (b.seryo.tiles.find? (fun t => t.peer == src && t.queue == q && t.flow == flow && t.tileSeq == seq)).bind (fun t =>
      t.total.map (fun _ => t.lastTxn))
  let b1 := if b.grantedTo q k src flow then b.freeGranted q k else b
  match last with
  | none => b1
  | some txn => b1.reply port src mtTileAck st txn (tileAckBody q k flow seq)

/-- TILE: a part is written into the granted satchel, or a grant comes back. A part for no satchel granted to its flow,
or beyond the satchel, is answered REFUSED (R430, log 39). -/
def takePart (b : Block) (port src : Nat) (msg : Bytes) : Block :=
  let q := mg msg 151 128
  let k := mg msg 157 152
  let flow := mg msg 175 160
  let txn := mg msg 63 32
  b.onceOnly port src msg (fun b =>
    let size := ((b.queue? q).map SatQueue.size).getD 0
    if isReturn msg then
      if b.rollRefuses src then b.reply port src mtTileAck 4 txn (tileAckBody q k flow (mg msg 223 192))
      else
        let b1 := b.performed port src txn
        if b.grantedTo q k src flow then b1.freeGranted q k else b1
    else if b.rollRefuses src then b.refuseTile port src msg 4
    else if !b.grantedTo q k src flow || size < mg msg 289 272 + mg msg 302 290 ||
        size < mg msg 231 224 * mg msg 271 256 then b.refuseTile port src msg 5
    else
      let b1 := (b.performed port src txn).writePart port src msg
      arriveTiles b1.seryo.tiles.length b1)

/-- TILE_ACK: a tile is delivered, or counted as poisoned; it answers every part of the tile (R257, R428, R430). -/
def takeTileAck (b : Block) (src : Nat) (msg : Bytes) : Block :=
  let txn := mg msg 63 32
  let st := mg msg 31 24
  let b0 := b.answeredAll src (fun s => s.txn == txn || sameTile msg s.bytes)
  match b.asker src txn mtTile with
  | none => b0
  | some (f, r) =>
    let b1 := (b0.noteAnswer f.id r st []).noteStatus f.id st
    b1.modFlow f.id (fun g =>
      if st == 0 then { g with tilesDone := g.tilesDone + 1 }
      else { g with poisonSeen := true, poisonCount := g.poisonCount + r.row, tilesDone := g.tilesDone + 1 })

/-! ### Discovery, routes, roll call, timebase (R438 to R447) -/

/-- A neighbour's direct routes have become `map`: messages under way through it go elsewhere, and peers without a
route depart (R429, R441, R447). -/
def setNeighbours (b : Block) (src map : Nat) : Block :=
  (((b.modPeer src (fun q => { q with neighbours := map })).resend
    (fun p s => !bit map p && s.transit == some src)).showPeers).departLost

/-- The neighbour that this package follows: the nearest to the reference, and of those the lowest number (R445). -/
def followed (b : Block) : Option Nat :=
  let r := b.od' 0x2703 3
  if r == b.package then none
  else
    let qs := b.seryo.peers.filter (fun q => q.ref == r && !(b.directPorts q.number).isEmpty)
    (qs.foldl (fun (acc : Option Peer) q =>
      match acc with
      | none => some q
      | some p => if q.refDist < p.refDist || (q.refDist == p.refDist && q.number < p.number) then some q else acc)
        none).map (·.number)

/-- Timebase alignment from a BEACON of the followed neighbour (R445): the offset is kept; until the end of start-up
the counter is set, and from then on it slews by the offset. -/
def align (b : Block) (port src t : Nat) : Block :=
  match if b.followed == some src then (b.port port).echo else none with
  | none => b
  | some (t1, t2, t3, t4) =>
    let delay : Int := Int.fdiv (((t4 : Int) - t1) - ((t3 : Int) - t2)) 2
    let off : Int := (t : Int) + delay - b.time
    let b1 := b.setOd 0x2703 4 (off % 2 ^ 32).toNat
    if b.engineState == 1 && b.startUp.step == 8 then
      { b1 with time := (((t : Int) + delay) % 2 ^ 64).toNat, startUp := { b1.startUp with timebaseSet := true } }
    else { b1 with seryo := { b1.seryo with slew := 10000 * off } }

/-- BEACON: discovery, the sender's routes, roll call and timebase (R438 to R445). -/
def takeBeacon (m : Memory) (b : Block) (port src : Nat) (msg : Bytes) : Block :=
  let incarn := mg msg 95 64
  let body := leNat (slice msg 16 56)
  let ident := bits body 447 384
  let digest := bits body 319 192
  let epoch := bits body 383 320
  let b0 := match b.peer? src with
    | none => b
    | some q => if q.incarn == incarn then b else (b.depart src).departLost
  let b1 := if (b0.peer? src).isNone then b0.arrive src incarn ident else b0
  let b2 := (b1.modPeer src (fun q => { q with
    ref := bits body 77 72, refDist := bits body 79 78, digest := digest, commitEpoch := epoch, heardAt := b.time })).setNeighbours
      src (bits body 191 128)
  let old := b2.od' 0x2702 4
  let map := old - (if b2.mismatched src then 2 ^ src else 0) + (if digest == b2.od' 0x2702 2 then 0 else 2 ^ src)
  let b3 := b2.setMismatch map epoch
  (b3.align port src (bits body 63 0)).tryReady m

/-- ROUTE: the sender has lost or gained direct routes (R441, R443). -/
def takeRoute (b : Block) (src : Nat) (msg : Bytes) : Block :=
  let old := ((b.peer? src).map (fun q => q.neighbours)).getD 0
  let lost := mg msg 191 128
  b.setNeighbours src ((old &&& (lost ^^^ (2 ^ 64 - 1))) ||| mg msg 255 192)

/-! ### Forwarding (R442) -/

/-- What R441 hashes of a message. -/
def msgHash (msg : Bytes) : Nat :=
  if mg msg 5 0 == mtRgather || mg msg 5 0 == mtRadd then mg msg 143 128 * 2 ^ 40 + mg msg 183 144
  else if mg msg 5 0 == mtTile then mg msg 175 160 * 2 ^ 20 + mg msg 289 272
  else mg msg 63 32

/-- FORWARD: the oldest whole message of a pool is for another package: sent on once, or dropped. -/
def forward (b : Block) (port pool : Nat) : Block :=
  if !b.portUp port then b
  else match firstMsg (b.port port) pool with
    | none => b
    | some fs =>
      let msg := msgBytes fs
      let dst := mg msg 21 16
      if dst == b.package then b
      else
        let b1 := b.popMsg port pool fs.length
        let may := mg msg 22 22 == 0 && b.od' 0x2700 3 == 1 && mg msg 5 0 < mtBeacon && knownType (mg msg 5 0)
        let ports := b1.directPorts dst
        match if may then ports[Config.freeRouteHash (msgHash msg) % max 1 ports.length]? else none with
        | some n => (b1.sendOn n 1 (withFwd msg)).count 0x2704 7 1
        | none =>
          let b2 := b1.count 0x2704 8 1
          if may then
            b2.sendOn port 0 (mkMsg mtRoute b.package (b.neighbour port) 0 0 (b.od' 0x2700 4) (natLE 16 (2 ^ dst)))
          else b2

/-- BEACON_INTERVAL: a BEACON on every UP port, and an ECHO on the ports that face the followed neighbour (R443,
R445). -/
def beaconInterval (b : Block) : Block :=
  let b1 := b.sendBeacons
  match b1.followed with
  | none => b1
  | some p => (b1.directPorts p).foldl sendEcho b1

end Block

/-! ### The rows -/

/-- The end of a step after which requests may have been refused: tiles that waited for a grant go on (R257, R444). -/
def linkStep (s : State) (b : Block) : Out := finish s b.moveAllTiles

/-- LANE_LOCK (R425). -/
def execLaneLock (port : Nat) (s : State) : Out := finish s (s.blk.laneLock port)
/-- LOCK_LOST (R419, R425). -/
def execLockLost (port : Nat) (s : State) : Out := linkStep s (s.blk.lockLost port)
/-- CODEWORD_PAIR (R418, R419). -/
def execCodewordPair (port frame symbols : Nat) (corrected : Bool) (flits : List Flit) (s : State) : Out :=
  linkStep s (s.blk.takePair port frame symbols corrected flits)
/-- IDLE (R421). -/
def execIdle (port : Nat) (flit : Flit) (s : State) : Out := finish s (s.blk.takeTyped port flit 0 none)
/-- DATA (R422, R423). -/
def execData (port : Nat) (flit : Flit) (s : State) : Out := finish s (s.blk.takeTyped port flit 1 none)
/-- HELLO (R424, R440). -/
def execHello (port : Nat) (flit : Flit) (s : State) : Out := linkStep s (s.blk.takeTyped port flit 2 (some 1))
/-- NAK (R422, R425). -/
def execNak (port : Nat) (flit : Flit) (s : State) : Out := linkStep s (s.blk.takeTyped port flit 2 (some 2))
/-- ECHO (R424). -/
def execEcho (port : Nat) (flit : Flit) (s : State) : Out := finish s (s.blk.takeTyped port flit 2 (some 3))
/-- ECHO_REPLY (R424, R445). -/
def execEchoReply (port : Nat) (flit : Flit) (s : State) : Out := finish s (s.blk.takeTyped port flit 2 (some 4))
/-- GOODBYE (R425). -/
def execGoodbye (port : Nat) (flit : Flit) (s : State) : Out := linkStep s (s.blk.takeTyped port flit 2 (some 5))
/-- PORT_SILENCE (R425, R446). -/
def execPortSilence (port : Nat) (s : State) : Out := linkStep s (s.blk.silence port)
/-- ACK_PROGRESS_TIMEOUT (R425). -/
def execAckProgressTimeout (port : Nat) (s : State) : Out := linkStep s (s.blk.ackTimeout port)
/-- HELLO_TIMEOUT (R425). -/
def execHelloTimeout (port : Nat) (s : State) : Out := linkStep s (s.blk.helloTimeout port)
/-- RGATHER (R396, R431, R432). A read that waits leaves the message in its buffer. -/
def execRgather (port pool : Nat) (s : State) : Out :=
  finishRead s (s.blk.onMsg port pool mtRgather (fun b src msg => Block.takeRgather s.mem b port src msg))
/-- ROWDATA (R431, R432). -/
def execRowdata (port pool : Nat) (s : State) : Out :=
  finish s (s.blk.onMsg port pool mtRowdata (fun b src msg => b.takeRowdata src msg))
/-- RADD (R305, R433, R434). A read that waits leaves the message in its buffer. -/
def execRadd (port pool : Nat) (s : State) : Out :=
  finishRead s (s.blk.onMsg port pool mtRadd (fun b src msg => Block.takeRadd s.mem b port src msg))
/-- RACK (R433). -/
def execRack (port pool : Nat) (s : State) : Out :=
  finish s (s.blk.onMsg port pool mtRack (fun b src msg => b.takeRack src msg))
/-- GRANT_REQ (R436, R437). -/
def execGrantReq (port pool : Nat) (s : State) : Out :=
  finish s (s.blk.onMsg port pool mtGrantReq (fun b src msg => b.takeGrantReq port src msg))
/-- GRANT (R436, R437). -/
def execGrant (port pool : Nat) (s : State) : Out :=
  finish s (s.blk.onMsg port pool mtGrant (fun b src msg => b.takeGrant src msg))
/-- TILE (R436, R437). -/
def execTile (port pool : Nat) (s : State) : Out :=
  finish s (s.blk.onMsg port pool mtTile (fun b src msg => b.takePart port src msg))
/-- TILE_ACK (R436, R437). -/
def execTileAck (port pool : Nat) (s : State) : Out :=
  finish s (s.blk.onMsg port pool mtTileAck (fun b src msg => b.takeTileAck src msg))
/-- BEACON (R438 to R445). -/
def execBeacon (port pool : Nat) (s : State) : Out :=
  linkStep s (s.blk.onMsg port pool mtBeacon (fun b src msg => Block.takeBeacon s.mem b port src msg))
/-- ROUTE (R441, R443). -/
def execRoute (port pool : Nat) (s : State) : Out :=
  linkStep s (s.blk.onMsg port pool mtRoute (fun b src msg => b.takeRoute src msg))
/-- FORWARD (R442). -/
def execForward (port pool : Nat) (s : State) : Out := finish s (s.blk.forward port pool)
/-- BEACON_INTERVAL (R443). -/
def execBeaconInterval (s : State) : Out := finish s s.blk.beaconInterval

end Sys2Proof.Machine
end

