-- ==== Sys2Proof/Machine/Dispatch.lean ====
section
/-! DEFINITION. One arm per command: a direct call of its meaning. -/

namespace Sys2Proof.Machine

/-- A command's effect on everything but the queue. -/
def exec (i : Instr) (s : State) : Host.Outcome State Fault Refusal :=
  match i with
  | .gatherPool flow => Sys2Proof.Machine.execGatherPool flow s
  | .gatherRaw flow => Sys2Proof.Machine.execGatherRaw flow s
  | .recall flow => Sys2Proof.Machine.execRecall flow s
  | .scatterAdd flow => Sys2Proof.Machine.execScatterAdd flow s
  | .rowUpdateOpt flow => Sys2Proof.Machine.execRowUpdateOpt flow s
  | .rowCommit flow => Sys2Proof.Machine.execRowCommit flow s
  | .project flow => Sys2Proof.Machine.execProject flow s
  | .vecChain flow => Sys2Proof.Machine.execVecChain flow s
  | .quantise flow => Sys2Proof.Machine.execQuantise flow s
  | .calibrate flow => Sys2Proof.Machine.execCalibrate flow s
  | .blackboardLoad flow => Sys2Proof.Machine.execBlackboardLoad flow s
  | .copy flow => Sys2Proof.Machine.execCopy flow s
  | .fence flow => Sys2Proof.Machine.execFence flow s
  | .flush flow => Sys2Proof.Machine.execFlush flow s
  | .acquire flow => Sys2Proof.Machine.execAcquire flow s
  | .bell flow => Sys2Proof.Machine.execBell flow s
  | .signal flow => Sys2Proof.Machine.execSignal flow s
  | .wait flow => Sys2Proof.Machine.execWait flow s
  | .write flow => Sys2Proof.Machine.execWrite flow s
  | .arm flow => Sys2Proof.Machine.execArm flow s
  | .cancel flow => Sys2Proof.Machine.execCancel flow s
  | .stop flow => Sys2Proof.Machine.execStop flow s
  | .nop flow => Sys2Proof.Machine.execNop flow s
  | .doorbellWrite offset size value => Sys2Proof.Machine.execDoorbellWrite offset size value s
  | .dispatch => Sys2Proof.Machine.execDispatch s
  | .headerRecheck ring => Sys2Proof.Machine.execHeaderRecheck ring s
  | .completionRecord flow => Sys2Proof.Machine.execCompletionRecord flow s
  | .swHeadReread cq => Sys2Proof.Machine.execSwHeadReread cq s
  | .coalTimeout cq => Sys2Proof.Machine.execCoalTimeout cq s
  | .sqEnable number => Sys2Proof.Machine.execSqEnable number s
  | .sqDisable number => Sys2Proof.Machine.execSqDisable number s
  | .sqResume number => Sys2Proof.Machine.execSqResume number s
  | .sqAbort number => Sys2Proof.Machine.execSqAbort number s
  | .cqEnable number => Sys2Proof.Machine.execCqEnable number s
  | .cqDisable number => Sys2Proof.Machine.execCqDisable number s
  | .rowRead addr len => Sys2Proof.Machine.execRowRead addr len s
  | .blockRead addr len => Sys2Proof.Machine.execBlockRead addr len s
  | .blockWrite port => Sys2Proof.Machine.execBlockWrite port s
  | .crcWrite port => Sys2Proof.Machine.execCrcWrite port s
  | .writeBack port => Sys2Proof.Machine.execWriteBack port s
  | .agentAdd port => Sys2Proof.Machine.execAgentAdd port s
  | .update port => Sys2Proof.Machine.execUpdate port s
  | .agentCommit port => Sys2Proof.Machine.execAgentCommit port s
  | .append port => Sys2Proof.Machine.execAppend port s
  | .record port => Sys2Proof.Machine.execRecord port s
  | .rowFill addr hint => Sys2Proof.Machine.execRowFill addr hint s
  | .shareWindow => Sys2Proof.Machine.execShareWindow s
  | .arrayPass w => Sys2Proof.Machine.execArrayPass w s
  | .tileDrain w => Sys2Proof.Machine.execTileDrain w s
  | .vectorTake w => Sys2Proof.Machine.execVectorTake w s
  | .contextSwitch su => Sys2Proof.Machine.execContextSwitch su s
  | .streamRun stream => Sys2Proof.Machine.execStreamRun stream s
  | .generationComplete stream => Sys2Proof.Machine.execGenerationComplete stream s
  | .satchelGrant queue => Sys2Proof.Machine.execSatchelGrant queue s
  | .satchelArrival queue => Sys2Proof.Machine.execSatchelArrival queue s
  | .satchelTake queue => Sys2Proof.Machine.execSatchelTake queue s
  | .stallCycle flow queue => Sys2Proof.Machine.execStallCycle flow queue s
  | .bellTimeout flow => Sys2Proof.Machine.execBellTimeout flow s
  | .waitTimeout flow => Sys2Proof.Machine.execWaitTimeout flow s
  | .fenceTimeout flow => Sys2Proof.Machine.execFenceTimeout flow s
  | .signalWordWrite n value => Sys2Proof.Machine.execSignalWordWrite n value s
  | .stackTemperatureRead temps => Sys2Proof.Machine.execStackTemperatureRead temps s
  | .stackRetrain stack => Sys2Proof.Machine.execStackRetrain stack s
  | .stackHoldExpiry stack => Sys2Proof.Machine.execStackHoldExpiry stack s
  | .tierTrainingDone repaired unusable unusableBulk => Sys2Proof.Machine.execTierTrainingDone repaired unusable unusableBulk s
  | .laneLock port => Sys2Proof.Machine.execLaneLock port s
  | .lockLost port => Sys2Proof.Machine.execLockLost port s
  | .codewordPair port frame symbols corrected flits => Sys2Proof.Machine.execCodewordPair port frame symbols corrected flits s
  | .idle port flit => Sys2Proof.Machine.execIdle port flit s
  | .data port flit => Sys2Proof.Machine.execData port flit s
  | .hello port flit => Sys2Proof.Machine.execHello port flit s
  | .nak port flit => Sys2Proof.Machine.execNak port flit s
  | .echo port flit => Sys2Proof.Machine.execEcho port flit s
  | .echoReply port flit => Sys2Proof.Machine.execEchoReply port flit s
  | .goodbye port flit => Sys2Proof.Machine.execGoodbye port flit s
  | .portSilence port => Sys2Proof.Machine.execPortSilence port s
  | .ackProgressTimeout port => Sys2Proof.Machine.execAckProgressTimeout port s
  | .helloTimeout port => Sys2Proof.Machine.execHelloTimeout port s
  | .rgather port pool => Sys2Proof.Machine.execRgather port pool s
  | .rowdata port pool => Sys2Proof.Machine.execRowdata port pool s
  | .radd port pool => Sys2Proof.Machine.execRadd port pool s
  | .rack port pool => Sys2Proof.Machine.execRack port pool s
  | .grantReq port pool => Sys2Proof.Machine.execGrantReq port pool s
  | .grant port pool => Sys2Proof.Machine.execGrant port pool s
  | .tile port pool => Sys2Proof.Machine.execTile port pool s
  | .tileAck port pool => Sys2Proof.Machine.execTileAck port pool s
  | .beacon port pool => Sys2Proof.Machine.execBeacon port pool s
  | .route port pool => Sys2Proof.Machine.execRoute port pool s
  | .forward port pool => Sys2Proof.Machine.execForward port pool s
  | .beaconInterval => Sys2Proof.Machine.execBeaconInterval s
  | .dictWrite offset size value => Sys2Proof.Machine.execDictWrite offset size value s
  | .mctpRead frames => Sys2Proof.Machine.execMctpRead frames s
  | .mctpWrite frames => Sys2Proof.Machine.execMctpWrite frames s
  | .readBlock frames => Sys2Proof.Machine.execReadBlock frames s
  | .mctpControl first rest => Sys2Proof.Machine.execMctpControl first rest s
  | .setOpen set owner => Sys2Proof.Machine.execSetOpen set owner s
  | .setCommit set owner => Sys2Proof.Machine.execSetCommit set owner s
  | .commitPoint set => Sys2Proof.Machine.execCommitPoint set s
  | .setAbort set owner => Sys2Proof.Machine.execSetAbort set owner s
  | .reattachCqResume number => Sys2Proof.Machine.execReattachCqResume number s
  | .reattachCqReset number => Sys2Proof.Machine.execReattachCqReset number s
  | .reattachSqResume number => Sys2Proof.Machine.execReattachSqResume number s
  | .reattachSqReset number => Sys2Proof.Machine.execReattachSqReset number s
  | .drop number => Sys2Proof.Machine.execDrop number s
  | .unitFence unit => Sys2Proof.Machine.execUnitFence unit s
  | .unitRestore unit => Sys2Proof.Machine.execUnitRestore unit s
  | .wingReturn w => Sys2Proof.Machine.execWingReturn w s
  | .faultAcknowledge number => Sys2Proof.Machine.execFaultAcknowledge number s
  | .injectionArm word => Sys2Proof.Machine.execInjectionArm word s
  | .orderedReset path => Sys2Proof.Machine.execOrderedReset path s
  | .forcedReset path => Sys2Proof.Machine.execForcedReset path s
  | .configurationHold path value => Sys2Proof.Machine.execConfigurationHold path value s
  | .portEnable path mask => Sys2Proof.Machine.execPortEnable path mask s
  | .overlapMode path w mode => Sys2Proof.Machine.execOverlapMode path w mode s
  | .fault cls unit addr detail => Sys2Proof.Machine.execFault cls unit addr detail s
  | .islandStall island => Sys2Proof.Machine.execIslandStall island s
  | .bridgeDown => Sys2Proof.Machine.execBridgeDown s
  | .autoAck slot => Sys2Proof.Machine.execAutoAck slot s
  | .leaseRenewal => Sys2Proof.Machine.execLeaseRenewal s
  | .leaseLapse => Sys2Proof.Machine.execLeaseLapse s
  | .tokenClaim => Sys2Proof.Machine.execTokenClaim s
  | .powerGrant w watts seq => Sys2Proof.Machine.execPowerGrant w watts seq s
  | .revoke w watts seq => Sys2Proof.Machine.execRevoke w watts seq s
  | .hallReturn w => Sys2Proof.Machine.execHallReturn w s
  | .passSilent w => Sys2Proof.Machine.execPassSilent w s
  | .hallPassWindow => Sys2Proof.Machine.execHallPassWindow s
  | .voltageChange mv => Sys2Proof.Machine.execVoltageChange mv s
  | .stepRateMeasure north south => Sys2Proof.Machine.execStepRateMeasure north south s
  | .junctionRead temps => Sys2Proof.Machine.execJunctionRead temps s
  | .sensorFail island => Sys2Proof.Machine.execSensorFail island s
  | .railLow => Sys2Proof.Machine.execRailLow s
  | .coreRailGood => Sys2Proof.Machine.execCoreRailGood s
  | .configurationRecord identity siliconStep v => Sys2Proof.Machine.execConfigurationRecord identity siliconStep v s
  | .rowCacheInitialised => Sys2Proof.Machine.execRowCacheInitialised s
  | .timebaseWaitExpiry => Sys2Proof.Machine.execTimebaseWaitExpiry s
  | .linkUp epoch => Sys2Proof.Machine.execLinkUp epoch s
  | .retrainBegin => Sys2Proof.Machine.execRetrainBegin s
  | .retrainEnd epoch => Sys2Proof.Machine.execRetrainEnd epoch s
  | .holdExpired => Sys2Proof.Machine.execHoldExpired s
  | .epochChange epoch => Sys2Proof.Machine.execEpochChange epoch s
  | .coreRailGoodWithdrawn => Sys2Proof.Machine.execCoreRailGoodWithdrawn s
  | .forwardingInTransit path value => Sys2Proof.Machine.execForwardingInTransit path value s

end Sys2Proof.Machine
end

