-- ==== Sys2Proof/Safety.lean ====
section
/-! DEFINITION. What counts as a safe run, and the words that statements about commands use: a settled state, what a
command gives, what it leaves alone, when the dictionary window takes writes. -/

namespace Sys2Proof

/-- The next step answers a next state. -/
def Safe (s : Machine.State) : Prop := ∃ t, Machine.step s = .next t

/-- `n` steps, each of them safe. -/
def SafeFor : Nat → Machine.State → Prop
  | 0, _ => True
  | n + 1, s => ∃ t, Machine.step s = .next t ∧ SafeFor n t

namespace Machine

/-- Every port that sends has completed its pair and told what it must (R421, R423). -/
abbrev Block.portsQuiet (b : Block) : Prop :=
  ∀ n ∈ b.seryo.ports.map (·.number), (b.portState n = psTraining ∨ b.portUp n = true) → Block.mustSend (b.port n) = false

/-- The end of a step finds nothing to do: no fault to grade, no effect of a RELEASE to let go, no flit to send. -/
abbrev Block.Quiet (b : Block) : Prop := b.raised = [] ∧ b.heldBack = [] ∧ b.portsQuiet

/-- What a step keeps for its own use is gone: where a read waits, and what the share windows held as it began. -/
abbrev Block.AgentsIdle (b : Block) : Prop :=
  b.agents.heldAt = none ∧ b.agents.heldRange = none ∧ b.agents.began = b.agents.moved

/-- Nothing of the last step is left over: no write still to land, no fault still to be graded, no effect held back, no
read that waits, no flit to send. -/
abbrev Settled (s : State) : Prop := s.blk.posted = [] ∧ s.blk.blocked = false ∧ s.blk.Quiet ∧ s.blk.AgentsIdle

/-- What every step keeps: memory in its canonical form, and no write, waiting read or mark of the step left over. -/
abbrev Inv (s : State) : Prop := s.mem.wf ∧ s.blk.posted = [] ∧ s.blk.blocked = false ∧ s.blk.AgentsIdle

/-- The command reads beyond 2^52, where no unit of the block sees an address (R318). -/
def LeavesMap : Instr → Prop
  | .rowRead a n => 2 ^ 52 < a + n
  | .blockRead a n => 2 ^ 52 < a + n
  | .rowFill a _ => 2 ^ 52 < a + 1
  | _ => False

/-- The command answers a next state, with the queue of commands as it was, of which P holds. -/
abbrev Gives (c : Instr) (s : State) (P : State → Prop) : Prop :=
  ∃ t, exec c s = .next t ∧ t.pending = s.pending ∧ P t

/-- The command answers a next state; P holds of the block as the command's own work leaves it, before the end of the
step grades the faults that the work found (R500) and lands its writes. -/
abbrev Works (c : Instr) (s : State) (P : Block → Prop) : Prop :=
  ∃ b, exec c s = .next (landed s b.settle) ∧ P b

/-- Flows in flight of other epochs than the current one (R494). -/
def Block.oldFlows (b : Block) : Nat := (b.flows.filter (fun f => f.epoch != b.od' 0x2202 1)).length

/-- The state at the end of a step whose work left the block b, quiet: the writes of b have landed, OD 0x2202.0D shows the
old flows anew (R494), and the marks of the step are gone. -/
def quietEnd (s : State) (b : Block) : State :=
  { s with mem := land s.mem b.posted,
           blk := { b.setOd 0x2202 0x0D b.oldFlows with
             posted := [], blocked := false,
             agents := { b.agents with began := b.agents.moved, heldAt := none, heldRange := none } } }

/-- A write of the engine's own, of `len` bytes at a, reaches memory in the step that makes it: host memory with the link
up; or a tier whose owner is present, has room in its share window and nothing for those units before it, the units being
sound or written whole (R319, R324, R326, R349, R488). -/
abbrev Block.Lands (b : Block) (a len : Nat) : Prop :=
  0 < len ∧ ((isHost a = true ∧ b.hostUp = true) ∨
    (isHost a = false ∧ b.ownWaits a len = false ∧ b.absentRange a len = false ∧ b.stackOut a = false ∧
      ∀ u ∈ unitsOf a len, coversUnit a len u = true ∨
        (b.agents.poisoned.contains u = false ∧ b.agents.failing.contains u = false)))

/-- No write of the engine's own is on its way into a ring of `len` bytes. -/
abbrev Block.NoneInto (b : Block) (ring len : Nat) : Prop := ∀ r ∈ b.agents.queue, Block.ownInto ring len r = false

/-- A flow's step has been made: it waits nowhere (R324, R383). -/
def Block.wentOn (b : Block) (id : Nat) : Block :=
  ({ b with agents := { b.agents with shareWaits := b.agents.shareWaits.filter (fun w => w.2 != id) } } : Block).modFlow id
    (fun f => { f with waitsOn := none })

/-- The command answers the next state in which its work has left the block b, and nothing else has changed. -/
abbrev Ends (c : Instr) (s : State) (b : Block) : Prop := exec c s = .next (quietEnd s b)

/-- A ring command's stream unit works on it in this step: it may begin, or has begun, under the opcode that `is` names;
b is the block with it begun, f the flow (R130, R139, R383). -/
abbrev Begun (s : State) (is : Flow → Bool) (id : Nat) (b : Block) (f : Flow) : Prop :=
  ∃ g, s.blk.startable id is = some g ∧ b = s.blk.begun g ∧ b.mayWork id = true ∧ b.flow? id = some f

/-- The work of a step, which leaves the block b, left nothing to wait for, did not cut the flow off, and has its turn at
every stack and bulk channel that it used (R324, R326, R378, R487, R488). -/
abbrev GoesOn (s : State) (b : Block) (f : Flow) : Prop :=
  b.blocked = false ∧ (((b.flow? f.id).getD f).cut = true → f.cut = true) ∧ (s.blk.shareTurns b f.id).isOk = true

/-- Every flit that a port has put into its pairs, oldest first (R418, R420). -/
def Block.onLanes (b : Block) (n : Nat) : List Flit := (b.port n).sent.flatMap (·.flits) ++ (b.port n).lane

/-- No tile on its way to another package waits for its grant (R256). -/
abbrev Block.NoneLeaves (b : Block) : Prop := ∀ c ∈ b.streams.claims, c.leaves = false

/-- Offset of an entry's slot in the dictionary window (R454). -/
def slotOff (i j : Nat) : Nat := (i - 0x1000) * 2048 + 8 * j

/-- An entry that software writes and that only holds its value: no rule gives a write of it a further effect. -/
def PlainEntry (i j : Nat) (r : OdRow) : Prop :=
  odFind (odKey i j) = some r ∧ r.acc = .rw ∧ isSignalKey (odKey i j) = false ∧
    (i, j) ∉ [(0x1100, 3), (0x2602, 1), (0x2700, 2), (0x2700, 3), (0x2804, 1)]

/-- The dictionary differs in the listed entries alone, and in OD 0x2202.0D, the count of old flows that every step
shows anew (R494). -/
abbrev OdOnly (s t : State) (ks : List (Nat × Nat)) : Prop :=
  ∀ i j, j < 256 → (i, j) ∉ ks → (i, j) ≠ (0x2202, 0x0D) → t.blk.od' i j = s.blk.od' i j

/-- Memory and everything of the block but the dictionary are as they were. -/
abbrev OnlyOd (s t : State) : Prop := t.mem = s.mem ∧ { t.blk with od := s.blk.od } = s.blk

/-- The dictionary window takes writes: power is good, the engine is STARTING or READY, and OD 0x1100.03 is set (R454,
R457, R476). -/
abbrev WindowOpen (s : State) : Prop :=
  s.blk.powered = true ∧ (s.blk.engineState = 1 ∨ s.blk.engineState = 2) ∧ s.blk.od' 0x1100 3 ≠ 0

/-- A window write of entry (i, j) is recorded with a result code (R456). -/
abbrev Recorded (s t : State) (code i j : Nat) : Prop :=
  bits (t.blk.od' 0x2000 1) 15 0 = code ∧ bits (t.blk.od' 0x2000 1) 23 16 = j ∧ bits (t.blk.od' 0x2000 1) 39 24 = i ∧
    bits (t.blk.od' 0x2000 1) 63 40 = (bits (s.blk.od' 0x2000 1) 63 40 + 1) % 2 ^ 24

/-- The entries that the record of a window write takes (R456). -/
def windowKeys : List (Nat × Nat) := [(0x2000, 1), (0x2000, 2), (0x2000, 3)]

end Machine

end Sys2Proof
end

