-- ==== Sys2Proof/Certificates/Slice0/Obligations.lean ====
section
/-! DEFINITION. The statements for the provers, in the order of OBLIGATIONS.json. -/

open Sys2Proof Sys2Proof.Machine

/-! ### The machine -/

/-- A step with a command at the front of the queue is exec of that command on the state with the rest of the queue. -/
def Obligations.StepRunsFrontCommand : Prop :=
  ∀ (s : State) (c : Instr) (rest : List Instr), s.pending = c :: rest → step s = exec c { s with pending := rest }

/-- On an empty queue one nanosecond of the package timebase passes. The engine's counter moves on by one, or, while it
is off its reference, slews: by at most 100 ppm up to 10 µs of offset and by at most 1,000 ppm beyond, without a step,
and closer to the reference each time (R10, R445). Nothing else happens. That the empty queue stands for the tick, and
the slew at the highest rate allowed, are the model's choices (logs 2, 8): the commands' table has no row for a tick. -/
def Obligations.EmptyQueueIdles : Prop :=
  ∀ s : State, s.pending = [] → ∃ t, step s = .next t ∧
    { t with blk := { t.blk with time := s.blk.time, seryo := { t.blk.seryo with slew := s.blk.seryo.slew, frac := s.blk.seryo.frac } } } = s ∧
    (s.blk.seryo.slew = 0 → t.blk.time = (s.blk.time + 1) % 2 ^ 64 ∧ t.blk.seryo = s.blk.seryo) ∧
    (s.blk.seryo.slew ≠ 0 → s.blk.time + 3 < 2 ^ 64 → s.blk.seryo.frac < 10000 →
      let rate : Int := if s.blk.seryo.slew.natAbs ≤ 10000 * 10000 then 1 else 10
      t.blk.seryo.slew.natAbs + rate = s.blk.seryo.slew.natAbs ∧ t.blk.seryo.frac < 10000 ∧ s.blk.time ≤ t.blk.time ∧
      (10000 * t.blk.time + t.blk.seryo.frac : Int) =
        10000 * (s.blk.time + 1) + s.blk.seryo.frac + (if 0 < s.blk.seryo.slew then rate else -rate))

/-- Right after reset every dictionary entry holds its default, the engine is STARTING at step 2 of start-up, and no
ring, flow, line, port, peer, stream, record or write is there (R470, R476, R477, R545). Memory's zeros are the model's
choice (log 3). -/
def Obligations.ResetHoldsDefaults : Prop :=
  (∀ i j r, j < 256 → odFind (odKey i j) = some r → (i, j) ≠ (0x2703, 3) →
    State.reset.blk.od' i j = odDefaultIn 2 (odKey i j) r) ∧
  State.reset.blk.engineState = 1 ∧ State.reset.blk.startUp.step = 2 ∧ State.reset.pending = [] ∧
  State.reset.blk.rings = [] ∧ State.reset.blk.cqs = [] ∧ State.reset.blk.flows = [] ∧ State.reset.blk.waiting = [] ∧
  State.reset.blk.cache.lines = [] ∧ State.reset.blk.streams.slots = [] ∧ State.reset.blk.streams.queues = [] ∧
  State.reset.blk.seryo.ports = [] ∧ State.reset.blk.seryo.peers = [] ∧ State.reset.blk.dict.staging = [] ∧
  State.reset.blk.agents.queue = [] ∧ ∀ a, memByte State.reset.mem a = 0

/-- The state after reset meets the invariant that every step keeps. -/
def Obligations.ResetMeetsInvariant : Prop := Inv State.reset

/-- Every step keeps memory in its canonical form, lands every write it makes and leaves no read waiting: one that a
held access or a waiting row operation stops is made again from the start by a later command (R326, R488). -/
def Obligations.EveryStepKeepsInvariant : Prop := ∀ s t : State, Inv s → step s = .next t → Inv t

/-- Every command answers a next state and leaves the queue as it was, but for the three that read a given address:
they fault beyond 2^52, where the address map ends (R318). -/
def Obligations.EveryCommandAnswers : Prop :=
  ∀ (c : Instr) (s : State),
    (¬ LeavesMap c → Gives c s (fun _ => True)) ∧ (LeavesMap c → ∃ a, exec c s = .fault (.outsideAddressMap a))

/-- The end of a quiet step, which found no fault and has no effect and no flit to let go: its writes land in order, so
that a byte outside them reads as before and, after one write, its bytes read as written; OD 0x2202.0D shows the flows
in flight of other epochs (R494), the share windows note what has moved, and no other entry and nothing else of the
block changes. -/
def Obligations.QuietStepLandsItsWrites : Prop :=
  ∀ (s : State) (b : Block), b.Quiet →
    finish s b = .next (quietEnd s b) ∧ (quietEnd s b).pending = s.pending ∧
    (∀ x, (∀ w ∈ b.posted, x < w.addr ∨ w.addr + w.data.length ≤ x) →
      memByte (quietEnd s b).mem x = memByte s.mem x) ∧
    (∀ (a : Nat) (d : Bytes) (k : Nat) (hk : k < d.length), b.posted = [⟨a, d⟩] →
      memByte (quietEnd s b).mem (a + k) = d[k]) ∧
    (quietEnd s b).blk.od' 0x2202 0x0D = (b.flows.filter (fun f => f.epoch != b.od' 0x2202 1)).length ∧
    (∀ i j, j < 256 → (i, j) ≠ (0x2202, 0x0D) → (quietEnd s b).blk.od' i j = b.od' i j) ∧
    (quietEnd s b).blk.agents = { b.agents with began := b.agents.moved, heldAt := none, heldRange := none } ∧
    { (quietEnd s b).blk with od := b.od, posted := b.posted, blocked := b.blocked, agents := b.agents } = b

/-! ### Records, addresses, costs -/

/-- The fields of a completion record (R148), with every reserved field zero. -/
def Obligations.CompletionRecordFields : Prop :=
  ∀ (w : WaitingRecord) (phase : Bool) (head : Nat), w.status < 2 ^ 16 → w.sq < 2 ^ 18 → head < 2 ^ 16 →
    w.detail < 2 ^ 16 → w.tag < 2 ^ 32 →
    let r := recordBits w phase head
    bits r 15 0 = w.status ∧ bit r 16 = phase ∧ bit r 17 = w.poison ∧ bit r 18 = w.late ∧ bits r 31 19 = 0 ∧
      bits r 49 32 = w.sq ∧ bits r 63 50 = 0 ∧ bits r 79 64 = head ∧ bits r 95 80 = w.detail ∧ bits r 127 96 = w.tag ∧
      r < 2 ^ 128

/-- An event that the event ring has room for, the record landing at once and no earlier one on its way, without an
interrupt address: one 64-byte record at the next place of the ring with the fields of R519, the write index and SEQ
moved on (R519, R523). -/
def Obligations.EventWritesItsRecord : Prop :=
  ∀ (b : Block) (ty payload : Nat),
    let size := 2 ^ b.od' 0x2800 2
    let base := b.od' 0x2800 1
    let place := b.faults.eventNext % size
    b.eventFull = false → b.Lands (base + 64 * place) 64 → b.NoneInto base (64 * size) →
    b.od' 0x2800 6 = 0 → ty < 2 ^ 8 → b.faults.eventSeq < 2 ^ 32 → b.time < 2 ^ 64 → payload < 2 ^ 256 →
    ∃ r, (b.event ty payload).posted = b.posted ++ [⟨base + 64 * place, natLE 64 r⟩] ∧
      bits r 7 0 = ty ∧ bit r 8 = b.faults.eventPhase ∧ bits r 31 9 = 0 ∧ bits r 63 32 = b.faults.eventSeq ∧
      bits r 127 64 = b.time ∧ bits r 255 128 = 0 ∧ bits r 511 256 = payload ∧
      (b.event ty payload).od' 0x2800 3 = (place + 1) % size ∧
      (b.event ty payload).faults.eventSeq = (b.faults.eventSeq + 1) % 2 ^ 32

/-- The CRC of the nine ASCII bytes "123456789" (R338). -/
def Obligations.BlockCrcCheckValue : Prop :=
  crc32c [0x31, 0x32, 0x33, 0x34, 0x35, 0x36, 0x37, 0x38, 0x39] = 0xE306_9283

/-- The owner of an address (R318, R320, R321): channel ch of stack s, whose 4 KiB unit u hashes to ch, belongs to agent
32 s + ch; bulk channel c to agent 256 + c; every other address below 2^52 to the host link. -/
def Obligations.AddressHasItsOwner : Prop :=
  (∀ s o, s < 8 → o < 2 ^ 36 →
    let u := o / 2 ^ 12
    let ch := u % 32 ^^^ (u / 2 ^ 5) % 32 ^^^ (u / 2 ^ 10) % 32 ^^^ (u / 2 ^ 15) % 32 ^^^ (u / 2 ^ 20) % 16
    agentOf (0x0100_0000_0000 + s * 2 ^ 36 + o) = 32 * s + ch ∧ ch < 32) ∧
  (∀ c o, c < 24 → o < 2 ^ 37 → agentOf (0x0200_0000_0000 + c * 2 ^ 37 + o) = 256 + c) ∧
  (∀ a, a < 2 ^ 52 → (a < 0x0100_0000_0000 ∨ 0x0100_0000_0000 + 8 * 2 ^ 36 ≤ a) →
    (a < 0x0200_0000_0000 ∨ 0x0200_0000_0000 + 24 * 2 ^ 37 ≤ a) → isHost a = true ∧ agentOf a = 280)

/-- Channel time within one tier (R322), whose unit is U bytes: a read costs U for each unit it touches; a write costs U
for each unit that it covers whole and 2 U for each that it covers in part. -/
def Obligations.ChannelTimeOfAccesses : Prop :=
  ∀ a n, 0 < n → ((inFast a = true ∧ inFast (a + n - 1) = true) ∨ (inBulk a = true ∧ inBulk (a + n - 1) = true)) →
    let u := if inBulk a then 512 else 256
    let touched := (a + n - 1) / u - a / u + 1
    let whole := (a + n) / u - (a + u - 1) / u
    readCost a n = touched * u ∧ writeCost a n = (whole + 2 * (touched - whole)) * u

/-! ### The object dictionary -/

/-- R457: while OD 0x1100.03 holds 0, every window write to an entry other than a signal word is refused with
ACCESS_PATH; OD 0x1100.03 refuses a window write whatever its value, and takes one over MCTP. A refused write leaves its
record in OD 0x2000 and changes nothing else. -/
def Obligations.WindowIsShutWithoutReach : Prop :=
  (∀ (s : State) (i j size v : Nat) (r : OdRow), Settled s → s.blk.powered = true → 0x1000 ≤ i → i < 0x3000 → j < 256 →
    odFind (odKey i j) = some r → (size = 8 ∨ (size = 4 ∧ r.ty.bytes ≤ 4)) →
    ((s.blk.od' 0x1100 3 = 0 ∧ isSignalKey (odKey i j) = false) ∨ (i, j) = (0x1100, 3)) →
    Gives (.dictWrite (slotOff i j) size v) s (fun t =>
      Recorded s t 0x0809 i j ∧ t.blk.od' 0x2000 2 = add64 (s.blk.od' 0x2000 2) 1 ∧ OdOnly s t windowKeys ∧ OnlyOd s t)) ∧
  (∀ (s : State) (v : Nat), Settled s → s.blk.powered = true → (s.blk.engineState = 1 ∨ s.blk.engineState = 2) → v ≤ 1 →
    s.blk.od' 0x1100 1 < 256 → s.blk.dict.assembly = [] →
    Gives (.mctpWrite (s.blk.frames 0 (s.blk.od' 0x1100 1) 8 1 0 (s.blk.writeMessage 0x1100 3 v))) s (fun t =>
      t.blk.od' 0x1100 3 = v))

/-- A window write of a plain entry in range gives the entry its value, with result 0, and changes nothing else (R453,
R454, R456, R460). -/
def Obligations.WindowWriteTakesAPlainEntry : Prop :=
  ∀ (s : State) (i j size v : Nat) (r : OdRow), Settled s → WindowOpen s → 0x1000 ≤ i → i < 0x3000 → j < 256 →
    PlainEntry i j r → (size = 8 ∨ (size = 4 ∧ r.ty.bytes ≤ 4)) → odInRange (s.blk.od' 0x1000 6) (odKey i j) r v = true →
    Gives (.dictWrite (slotOff i j) size v) s (fun t =>
      t.blk.od' i j = v ∧ Recorded s t 0 i j ∧ OdOnly s t ((i, j) :: windowKeys) ∧ OnlyOd s t)

/-- A window write that an entry refuses changes nothing but the record of the write: NO_ENTRY for an entry that no
chapter names, READ_ONLY, NEEDS_COMMIT for a member of a set that is not STAGING, LOCKED outside STARTING, RANGE; and
WIDTH for a write that is not the whole of a slot (R453, R454, R456, R460, R465). -/
def Obligations.RefusedWindowWriteChangesNothing : Prop :=
  ∀ (s : State) (i j size v code : Nat), Settled s → WindowOpen s → 0x1000 ≤ i → i < 0x3000 → j < 256 →
    ((size = 8 ∧ odFind (odKey i j) = none ∧ code = 0x0802) ∨
     (size = 8 ∧ (∃ r, odFind (odKey i j) = some r ∧ r.acc = .ro) ∧ code = 0x0803) ∨
     (size = 8 ∧ (∃ r, odFind (odKey i j) = some r ∧ r.acc = .rwc) ∧ s.blk.staging? (odSet (odKey i j)) = none ∧
       code = 0x0801) ∨
     (size = 8 ∧ (∃ r, odFind (odKey i j) = some r ∧ r.acc = .rwl) ∧ mctpOnly (odKey i j) = false ∧
       s.blk.engineState = 2 ∧ code = 0x0804) ∨
     (size = 8 ∧ (∃ r, odFind (odKey i j) = some r ∧ r.acc = .rw ∧
        odInRange (s.blk.od' 0x1000 6) (odKey i j) r v = false) ∧ mctpOnly (odKey i j) = false ∧ code = 0x0805) ∨
     ((size = 1 ∨ size = 2) ∧ code = 0x0806)) →
    Gives (.dictWrite (slotOff i j) size v) s (fun t =>
      Recorded s t code i j ∧ t.blk.od' 0x2000 2 = add64 (s.blk.od' 0x2000 2) 1 ∧ OdOnly s t windowKeys ∧ OnlyOd s t)

/-- READ, READ_BLOCK and WRITE over the management port (R458, R459), sent by any endpoint under any tag: a READ of a
readable entry of at most 8 bytes is answered with its value, a READ_BLOCK with the values of its entries at one
instant, a WRITE of a plain entry in range with result 0 once the entry holds the value. The response goes to the
endpoint that asked, under its tag, repeats operation, count, index and subindex, and the two counters of messages move
on. The form of the packets is the model's (log 36). -/
def Obligations.ManagementMessagesAnswered : Prop :=
  ∀ (s : State) (i j n v peer tag : Nat), Settled s → s.blk.powered = true → (s.blk.engineState = 1 ∨ s.blk.engineState = 2) →
    i < 2 ^ 16 → j + n ≤ 256 → 0 < n → n ≤ 32 → peer < 256 → tag < 8 → s.blk.od' 0x1100 1 < 256 →
    (∀ a ∈ s.blk.dict.assembly, a.source ≠ peer ∨ a.tag ≠ tag) →
    let own := s.blk.od' 0x1100 1
    let ask (op k : Nat) (value : Bytes) : List Bytes := s.blk.frames 0 own peer 1 tag
      (s.blk.vendorHead ++ natLE 12 (pack [(0, 1), (8, op), (24, k), (32, i), (48, j)]) ++ value)
    let answer (op k : Nat) (value : Bytes) : List Bytes := s.blk.dict.mctpOut ++ s.blk.frames 1 peer own 0 tag
      (s.blk.vendorHead ++ natLE 12 (pack [(0, 1), (8, op), (15, 1), (24, k), (32, i), (48, j)]) ++ value)
    let readable (q : Nat) : Prop := ∀ r, odFind (odKey i q) = some r → r.acc ≠ .wo ∧
      (i, q) ∉ [(0x2000, 3), (0x2901, 4), (0x2504, 1), (0x2504, 3)]
    let shown (q : Nat) : Nat := if (odFind (odKey i q)).isSome then s.blk.od' i q else 0
    let counted (t : State) (ks : List (Nat × Nat)) : Prop :=
      t.blk.od' 0x2000 3 = add64 (s.blk.od' 0x2000 3) 1 ∧ t.blk.od' 0x1100 4 = add64 (s.blk.od' 0x1100 4) 1 ∧
        OdOnly s t ((0x2000, 3) :: (0x1100, 4) :: ks) ∧ t.mem = s.mem
    ((∃ r, odFind (odKey i j) = some r ∧ r.ty.bytes ≤ 8) → readable j →
      Gives (.mctpRead (ask 1 1 [])) s (fun t =>
        t.blk.dict.mctpOut = answer 1 1 (natLE 8 (s.blk.od' i j)) ∧ counted t [])) ∧
    ((∀ q, j ≤ q → q < j + n → readable q) →
      Gives (.readBlock (ask 3 n [])) s (fun t =>
        t.blk.dict.mctpOut = answer 3 n ((List.range n).flatMap (fun k => natLE 8 (shown (j + k)))) ∧ counted t [])) ∧
    (∀ r, PlainEntry i j r → odInRange (s.blk.od' 0x1000 6) (odKey i j) r v = true →
      Gives (.mctpWrite (ask 2 1 (natLE 8 v))) s (fun t =>
        t.blk.dict.mctpOut = answer 2 1 [] ∧ t.blk.od' i j = v ∧ counted t [(i, j)]))

/-- The control messages of DSP0236 that a responder must take (R458; their formats are the model's, log 36): Set
Endpoint ID with an identifier that is no reserved one is accepted and held in OD 0x1100.01; Get Endpoint ID answers
with it; an unknown command is answered with completion code 5. The response carries the request's instance number. -/
def Obligations.ManagementControlAnswered : Prop :=
  ∀ (s : State) (eid c peer tag inst : Nat), Settled s → s.blk.powered = true → 0 < eid → eid < 255 → peer < 256 → tag < 8 →
    inst < 32 → s.blk.od' 0x1100 1 < 256 → (∀ a ∈ s.blk.dict.assembly, a.source ≠ peer ∨ a.tag ≠ tag) →
    let own := s.blk.od' 0x1100 1
    let ask (command : Nat) (args : Bytes) : Instr :=
      let fs := s.blk.frames 0 own peer 1 tag ([0, BitVec.ofNat 8 (128 + inst), BitVec.ofNat 8 command] ++ args)
      .mctpControl (fs.headD []) fs.tail
    let answer (source command code : Nat) (data : Bytes) : List Bytes := s.blk.dict.mctpOut ++
      s.blk.frames 1 peer source 0 tag ([0, BitVec.ofNat 8 inst, BitVec.ofNat 8 command, BitVec.ofNat 8 code] ++ data)
    Gives (ask 1 [0, BitVec.ofNat 8 eid]) s (fun t =>
      t.blk.od' 0x1100 1 = eid ∧ t.blk.dict.mctpOut = answer eid 1 0 [0, BitVec.ofNat 8 eid, 0] ∧
        OdOnly s t [(0x1100, 1), (0x1100, 4)]) ∧
    Gives (ask 2 []) s (fun t =>
      t.blk.dict.mctpOut = answer own 2 0 (natLE 3 own) ∧ OdOnly s t [(0x1100, 4)]) ∧
    (c < 256 → c ∉ [1, 2, 4, 5, 6] → Gives (ask c []) s (fun t =>
      t.blk.dict.mctpOut = answer own c 5 [] ∧ OdOnly s t [(0x1100, 4)]))

/-- OPEN and ABORT of a commit set (R464, R465, R468, R548): OPEN of an IDLE set by an owner makes it STAGING with an
empty copy; ABORT by its owner, or with 0xFFFF, drops the copy. The set's state and the result are shown. -/
def Obligations.CommitSetOpensAndAborts : Prop :=
  ∀ (s : State) (n owner : Nat), Settled s → WindowOpen s → 1 ≤ n → n ≤ 10 → owner < 2 ^ 16 →
    (s.blk.staging? n = none → owner ≠ 0xFFFF →
      Gives (.setOpen n owner) s (fun t =>
        t.blk.staging? n = some { set := n, owner := owner, copy := [], committing := false } ∧
        t.blk.od' 0x1F00 (0x20 + n) = 1 + owner * 2 ^ 16 ∧ t.blk.od' 0x1F00 2 = n * 2 ^ 16 ∧ Recorded s t 0 0x1F00 1 ∧
        OdOnly s t ((0x1F00, 0x20 + n) :: (0x1F00, 2) :: windowKeys) ∧ t.mem = s.mem)) ∧
    (∀ x, s.blk.staging? n = some x → x.committing = false → (x.owner = owner ∨ owner = 0xFFFF) →
      Gives (.setAbort n owner) s (fun t =>
        t.blk.staging? n = none ∧ t.blk.od' 0x1F00 (0x20 + n) = 0 ∧ t.blk.od' 0x1F00 2 = n * 2 ^ 16 ∧
        Recorded s t 0 0x1F00 1 ∧ OdOnly s t ((0x1F00, 0x20 + n) :: (0x1F00, 2) :: windowKeys) ∧ t.mem = s.mem))

/-- COMMIT of a STAGING set by its owner, and the commit point of a COMMITTING set, once the checks of the set pass
(R463, R464, R466, R468, R473). At the point every staged member takes its value, the set is IDLE and the two counts of
commits move on; memory stands for the sets whose commit reaches no unit but the dictionary: 3, 4, 5, 8, 9 and 10. Set 2
also waits for a load under way. A check that fails sends the set back to STAGING with its copy, COMMIT_REFUSED in OD
0x1F00.02 with the member (log 41), and the refusal counted. -/
def Obligations.CommitSetTakesEffect : Prop :=
  ∀ (s : State) (n : Nat) (x : Staging), Settled s → 1 ≤ n → n ≤ 10 → s.blk.staging? n = some x → x.set = n →
    (WindowOpen s → x.owner < 0xFFFF → x.committing = false → Block.commitFault s.mem s.blk x = (none, s.blk) →
      Gives (.setCommit n x.owner) s (fun t =>
        t.blk.staging? n = some { x with committing := true } ∧ Recorded s t 0 0x1F00 1 ∧
        OdOnly s t ((0x1F00, 0x20 + n) :: windowKeys) ∧ t.mem = s.mem)) ∧
    (n ∈ [3, 4, 5, 8, 9, 10] → x.committing = true → (s.blk.engineState = 1 ∨ s.blk.engineState = 2) →
      Block.commitFault s.mem s.blk x = (none, s.blk) → (x.copy.map (·.1)).Nodup →
      (∀ e ∈ x.copy, odSet e.1 = n ∧ ∃ r, odFind e.1 = some r ∧ r.acc = .rwc) →
      Gives (.commitPoint n) s (fun t =>
        t.blk.staging? n = none ∧ (∀ e ∈ x.copy, t.blk.od' (e.1 / 256) (e.1 % 256) = e.2) ∧
        t.blk.od' 0x1F00 3 = add64 (s.blk.od' 0x1F00 3) 1 ∧ t.blk.od' 0x2702 3 = add64 (s.blk.od' 0x2702 3) 1 ∧
        t.blk.od' 0x1F00 2 = n * 2 ^ 16 ∧ t.mem = s.mem)) ∧
    (n ∈ [1, 2, 6, 7] → x.committing = true → (s.blk.engineState = 1 ∨ s.blk.engineState = 2) →
      (n = 2 → s.blk.loadUnderWay = false) → (Block.commitFault s.mem s.blk x).1 = none →
      (Block.commitPoint s.mem s.blk n).blocked = false → (x.copy.map (·.1)).Nodup →
      (∀ e ∈ x.copy, odSet e.1 = n ∧ ∃ r, odFind e.1 = some r ∧ r.acc = .rwc) →
      Works (.commitPoint n) s (fun b =>
        b.staging? n = none ∧ (∀ e ∈ x.copy, b.od' (e.1 / 256) (e.1 % 256) = e.2) ∧
        b.od' 0x1F00 3 = add64 (s.blk.od' 0x1F00 3) 1 ∧ b.od' 0x2702 3 = add64 (s.blk.od' 0x2702 3) 1 ∧
        b.od' 0x1F00 2 = n * 2 ^ 16)) ∧
    (∀ k, Block.commitFault s.mem s.blk x = (some k, s.blk) →
      let refused (t : State) : Prop := t.blk.staging? n = some { x with committing := false } ∧
        t.blk.od' 0x1F00 2 = pack [(0, 0x0808), (16, n), (24, k)] ∧
        t.blk.od' 0x1F00 4 = add64 (s.blk.od' 0x1F00 4) 1 ∧ t.mem = s.mem
      (WindowOpen s → x.owner < 0xFFFF → x.committing = false → Gives (.setCommit n x.owner) s (fun t => refused t ∧
        Recorded s t 0 0x1F00 1 ∧ OdOnly s t ((0x1F00, 0x20 + n) :: (0x1F00, 2) :: (0x1F00, 4) :: windowKeys))) ∧
      (x.committing = true → (s.blk.engineState = 1 ∨ s.blk.engineState = 2) → Gives (.commitPoint n) s (fun t => refused t ∧
        OdOnly s t [(0x1F00, 0x20 + n), (0x1F00, 2), (0x1F00, 4)])))

/-- R506: a fault number written to OD 0x2801.03 closes the open record that carries it, with result 0 in OD 0x2801.04;
with no such record the result is 1. Nothing is restored: the entries of detention stay as they were. -/
def Obligations.FaultRecordAcknowledged : Prop :=
  ∀ (s : State) (number : Nat), Settled s → WindowOpen s → number < 2 ^ 32 →
    (∀ k, s.blk.openRecs.find? (fun k => bits (s.blk.slotRec k) 31 0 == number) = some k →
      Gives (.faultAcknowledge number) s (fun t =>
        Block.recOpen (t.blk.slotRec k) = false ∧ t.blk.od' 0x2801 4 = 0 ∧ Recorded s t 0 0x2801 3 ∧
        (∀ q, q < 256 → q ≠ k → t.blk.slotRec q = s.blk.slotRec q) ∧
        (∀ j, j < 256 → t.blk.od' 0x2802 j = s.blk.od' 0x2802 j) ∧
        OdOnly s t ((0x2810, k) :: (0x2801, 1) :: (0x2801, 4) :: windowKeys) ∧ t.mem = s.mem)) ∧
    (s.blk.openRecs.find? (fun k => bits (s.blk.slotRec k) 31 0 == number) = none →
      Gives (.faultAcknowledge number) s (fun t =>
        t.blk.od' 0x2801 4 = 1 ∧ Recorded s t 0 0x2801 3 ∧ OdOnly s t ((0x2801, 4) :: windowKeys) ∧ OnlyOd s t))

/-- The fence control word (R508, R509, R511, R520). A FENCE of a known unit in service that is no last one is accepted
with result 0, and the step ends with the fault MAINTENANCE (0x0E) found for the unit. A FENCE or RESTORE that is not
accepted says why in OD 0x2802.02. A RESTORE of a unit whose records are closed takes it out of detention: a stream unit
with one RESTORED event (type 2) and no other stream unit with it, a port to the state that OD 0x2700.02 gives it, an
agent if its channel is usable; a wing returns later (R514, log 34). -/
def Obligations.UnitsFencedAndRestored : Prop :=
  ∀ (s : State) (u : Nat), Settled s → WindowOpen s → u < 2 ^ 16 →
    (unitKnown u = true → s.blk.fenced u = false → s.blk.lastOne u = false →
      Works (.unitFence u) s (fun b => b.raised = [(0x0E, u, 0, false)] ∧ b.od' 0x2802 2 = 0 ∧ b.posted = [])) ∧
    (∀ code, ((unitKnown u = false ∧ code = 1) ∨ (unitKnown u = true ∧ s.blk.fenced u = true ∧ code = 2) ∨
        (unitKnown u = true ∧ s.blk.fenced u = false ∧ s.blk.lastOne u = true ∧ code = 5)) →
      Gives (.unitFence u) s (fun t => t.blk.od' 0x2802 2 = code ∧ OdOnly s t ((0x2802, 2) :: windowKeys) ∧ OnlyOd s t)) ∧
    (∀ code, ((unitKnown u = false ∧ code = 1) ∨ (unitKnown u = true ∧ s.blk.fenced u = false ∧ code = 2) ∨
        (unitKnown u = true ∧ s.blk.fenced u = true ∧ s.blk.openNames u = true ∧ code = 3) ∨
        (s.blk.fenced u = true ∧ s.blk.openNames u = false ∧
          ((isAgent u = true ∧ s.blk.agentUsable (u - 0x100) = false) ∨ (isWing u = true ∧ s.blk.faults.bridgeFenced = true)) ∧
          code = 4)) →
      Gives (.unitRestore u) s (fun t => t.blk.od' 0x2802 2 = code ∧ OdOnly s t ((0x2802, 2) :: windowKeys) ∧ OnlyOd s t)) ∧
    (u < 32 → s.blk.suFenced u = true → s.blk.openNames u = false →
      Works (.unitRestore u) s (fun b => b.suFenced u = false ∧ b.od' 0x2802 2 = 0 ∧
        b.faults.eventSeq = (s.blk.faults.eventSeq + 1) % 2 ^ 32 ∧ ∀ k, k < 32 → k ≠ u → b.suFenced k = s.blk.suFenced k)) ∧
    (s.blk.fenced u = true → s.blk.openNames u = false →
      ((isAgent u = true ∧ s.blk.agentUsable (u - 0x100) = true) ∨ isWay u = true ∨ isCopy u = true ∨ u = 0x500 ∨ u = 0x700 →
        Works (.unitRestore u) s (fun b => b.fenced u = false ∧ b.od' 0x2802 2 = 0)) ∧
      (isPortUnit u = true → s.blk.portState (u - 0x300) = psDisabled →
        (∀ p, p < 32 → (bit (s.blk.od' 0x2700 2) p = false ∨ s.blk.portFenced p = true) → s.blk.portState p = psDisabled) →
        Works (.unitRestore u) s (fun b => b.fenced u = false ∧ b.od' 0x2802 2 = 0 ∧
          b.portState (u - 0x300) =
            if 8 ≤ s.blk.startUp.step ∧ bit (s.blk.od' 0x2700 2) (u - 0x300) = true then psDown else psDisabled)) ∧
      (isWing u = true → s.blk.faults.bridgeFenced = false → Works (.unitRestore u) s (fun b =>
        (u - 0x20) ∈ b.faults.returning ∧ b.fenced u = true ∧ b.od' 0x2802 2 = 0)))

/-- A write of a signal word acts as a SIGNAL with OP SET (R387): the word takes the value, and every WAIT on it
compares. With no WAIT of the word begun, nothing else changes. -/
def Obligations.SignalWordTakesAWrite : Prop :=
  ∀ (s : State) (n v : Nat), Settled s → s.blk.powered = true → (s.blk.engineState = 1 ∨ s.blk.engineState = 2) →
    n < 4096 → v < 2 ^ 64 → (∀ f ∈ s.blk.flows, Block.waitsFor f n = false) →
    Gives (.signalWordWrite n v) s (fun t =>
      t.blk.signalWord n = v ∧ Recorded s t 0 (0x2610 + n / 256) (n % 256) ∧
        OdOnly s t ((0x2610 + n / 256, n % 256) :: windowKeys) ∧ OnlyOd s t)

/-- An injection word that the unit's checker can take (R524), while OD 0x2804.01 allows injection: armed for COUNT
accesses of that checker and counted in OD 0x2804.03; a word of a pair of copies, both in service, makes its comparison
fail at once (0x0A), and with one of the two in detention nothing is compared (R508). Without the allowance it is
refused with ACCESS_PATH. -/
def Obligations.InjectionsArmed : Prop :=
  ∀ (s : State) (u c n : Nat), Settled s → WindowOpen s → u < 2 ^ 16 → hasChecker u c = true → 0 < n → n < 256 →
    let word := pack [(0, u), (16, c), (20, n)]
    (s.blk.od' 0x2804 1 = 1 → c ≠ 6 → Gives (.injectionArm word) s (fun t =>
      t.blk.faults.injections = s.blk.faults.injections ++ [{ unit := u, checker := c, left := n }] ∧
        t.blk.od' 0x2804 3 = add64 (s.blk.od' 0x2804 3) 1 ∧ Recorded s t 0 0x2804 2 ∧
        OdOnly s t ((0x2804, 3) :: windowKeys) ∧ t.mem = s.mem)) ∧
    (s.blk.od' 0x2804 1 = 1 → c = 6 → Works (.injectionArm word) s (fun b =>
      b.raised = (if s.blk.fenced (u - u % 2) || s.blk.fenced (u - u % 2 + 1) then [] else [(0x0A, u - u % 2 + 1, 0, true)]) ∧
      b.od' 0x2804 3 = add64 (s.blk.od' 0x2804 3) 1)) ∧
    (s.blk.od' 0x2804 1 = 0 → Gives (.injectionArm word) s (fun t =>
      Recorded s t 0x0809 0x2804 2 ∧ OdOnly s t windowKeys ∧ OnlyOd s t))

/-- An engine reset of a READY engine by order of the package management or by a write over MCTP of OD 0x2000.05 begins
start-up at step 2 again (R482, R483, R545): STARTING, no ring, flow, line, request or port; every entry that R545 does
not keep at its default, but for the count of responses that the MCTP answer itself moves, and the core rail and the
step rates, which have no default and stand (log 4); OD 0x2000.08 says which kind of reset it was. -/
def Obligations.ResetsRestartTheEngine : Prop :=
  ∀ (s : State) (p : Path) (forced : Bool), Settled s → s.blk.powered = true → s.blk.engineState = 2 →
    (p = .management ∨ p = .mctp) →
    Gives (if forced then .forcedReset p else .orderedReset p) s (fun t =>
      t.blk.engineState = 1 ∧ t.blk.startUp.step = 2 ∧ t.blk.rings = [] ∧ t.blk.cqs = [] ∧ t.blk.flows = [] ∧
      t.blk.cache.lines = [] ∧ t.blk.agents.queue = [] ∧
      (∀ p ∈ t.blk.seryo.ports, p = { blankPort p.number with sent := p.sent, pairNo := p.pairNo }) ∧
      t.blk.od' 0x2000 8 = (if forced then 2 else 1) ∧
      ∀ i j, j < 256 → odKey i j ∉ odKept → odKey i j ∉ odOutside → (i, j) ≠ (0x1100, 4) →
        t.blk.od' i j = State.reset.blk.od' i j)

/-- Writes of the entries that a path may carry (R383, R425, R442, R479), over any path, in range: OD 0x2101.01 or
0x2181.01 selects a wing's overlap mode; OD 0x2700.02 holds the port mask, before step 8 of start-up without more;
OD 0x2700.03, unchanged, changes nothing else; OD 0x2000.09 set in STARTING holds start-up, but over the window it is
refused with ACCESS_PATH. -/
def Obligations.PathEntriesTakeWrites : Prop :=
  ∀ (s : State) (p : Path) (w : Wing) (v : Nat), Settled s → WindowOpen s →
    let only (t : State) (i j : Nat) : Prop :=
      OdOnly s t ((i, j) :: (0x1100, 4) :: windowKeys) ∧ t.mem = s.mem ∧
        { t.blk with od := s.blk.od, dict := s.blk.dict } = s.blk
    (v ≤ 1 → Gives (.overlapMode p w v) s (fun t =>
      t.blk.threaded w = (v == 1) ∧ only t (if w = .north then 0x2101 else 0x2181) 1)) ∧
    (v < 2 ^ 32 → s.blk.startUp.step < 8 → Gives (.portEnable p v) s (fun t =>
      t.blk.od' 0x2700 2 = v ∧ only t 0x2700 2)) ∧
    (v ≤ 1 → s.blk.od' 0x2700 3 = v → Gives (.forwardingInTransit p v) s (fun t =>
      t.blk.od' 0x2700 3 = v ∧ only t 0x2700 3)) ∧
    (s.blk.engineState = 1 → p ≠ .window → Gives (.configurationHold p 1) s (fun t =>
      t.blk.od' 0x2000 9 = 1 ∧ only t 0x2000 9)) ∧
    Gives (.configurationHold .window v) s (fun t => Recorded s t 0x0809 0x2000 9 ∧ OdOnly s t windowKeys ∧ OnlyOd s t)

/-! ### Queues -/

/-- SQ_ENABLE and CQ_ENABLE of a ring that exists and is DISABLED, whose descriptor, read without poison, is valid
(R119, R122, R124 to R128, R486), no earlier word of the two control words waiting: the ring starts empty, at phase 1,
bound to the current host epoch where it lies in host memory; the result is 0; other rings and memory stay. A submission
ring needs its completion ring enabled. -/
def Obligations.RingsEnabled : Prop :=
  ∀ (s : State) (n : Nat), Settled s → WindowOpen s → s.blk.words = [] →
    (let r := Block.readSq s.mem s.blk n
     n < s.blk.sqCount → n < 2 ^ 18 → s.blk.ring? n = none → s.blk.wordWaits (false, pack [(0, n), (20, 1)]) = false →
     r.2.1 = false →
     r.2.2.blocked = false → s.blk.sqDescOk r.1 = true → (s.blk.cq? (bits r.1 63 48)).isSome = true →
     s.blk.sqBinding r.1 ≠ some 0 →
      Gives (.sqEnable n) s (fun t =>
        t.blk.ring? n = some { number := n, state := .active, desc := r.1, head := 0, tail := 0, phase := true,
                               epoch := s.blk.sqBinding r.1, tries := 0, readAt := 0, bells := [] } ∧
        (∀ k, k ≠ n → t.blk.ring? k = s.blk.ring? k) ∧ t.blk.cqs = s.blk.cqs ∧ t.blk.od' 0x2201 2 = 0 ∧
        Recorded s t 0 0x2201 1 ∧ OdOnly s t ((0x2201, 2) :: windowKeys) ∧ t.mem = s.mem)) ∧
    (let r := Block.readCq s.mem s.blk n
     n < s.blk.cqCount → n < 2 ^ 16 → s.blk.cq? n = none → s.blk.wordWaits (false, pack [(0, n), (20, 5)]) = false →
     r.2.1 = false →
     r.2.2.blocked = false → Block.cqDescOk r.1 = true → s.blk.cqBinding r.1 ≠ some 0 →
      Gives (.cqEnable n) s (fun t =>
        t.blk.cq? n = some { number := n, desc := r.1, wr := 0, phase := true, swHead := s.blk.swHeadIn r.1, readAt := 0,
                             since := 0, firstAt := none, epoch := s.blk.cqBinding r.1, stale := false } ∧
        (∀ k, k ≠ n → t.blk.cq? k = s.blk.cq? k) ∧ t.blk.rings = s.blk.rings ∧ t.blk.od' 0x2201 2 = 0 ∧
        Recorded s t 0 0x2201 1 ∧ OdOnly s t ((0x2201, 2) :: windowKeys) ∧ t.mem = s.mem))

/-- SQ_DISABLE, SQ_ABORT, SQ_RESUME and CQ_DISABLE that are accepted (R125 to R127, R129, R130). A ring with commands in
flight, or records that wait, drains; one without is DISABLED at once. SQ_ABORT also ends, with ABORTED, the commands
that their stream unit has not begun: with none of those it is as SQ_DISABLE. SQ_RESUME makes a PAUSED ring ACTIVE. A
completion ring that no submission ring names is disabled. -/
def Obligations.RingsDisabledAndResumed : Prop :=
  ∀ (s : State) (n : Nat), Settled s → WindowOpen s → s.blk.words = [] → n < 2 ^ 18 →
    let only (t : State) : Prop :=
      t.blk.od' 0x2201 2 = 0 ∧ Recorded s t 0 0x2201 1 ∧ OdOnly s t ((0x2201, 2) :: windowKeys) ∧ t.mem = s.mem ∧
        t.blk.flows = s.blk.flows ∧ (∀ k, k ≠ n → t.blk.ring? k = s.blk.ring? k)
    (∀ r, n < s.blk.sqCount → s.blk.ring? n = some r → r.number = n →
      (r.state = .active ∨ r.state = .paused →
        let left := (s.blk.inFlight n).isEmpty && s.blk.waiting.all (fun w => w.sq != n)
        let after := if left then none else some { r with state := .draining, tries := 0 }
        Gives (.sqDisable n) s (fun t => t.blk.ring? n = after ∧ t.blk.cqs = s.blk.cqs ∧ only t) ∧
        ((∀ f ∈ s.blk.inFlight n, f.stage ≠ .waiting) →
          Gives (.sqAbort n) s (fun t => t.blk.ring? n = after ∧ t.blk.cqs = s.blk.cqs ∧ only t))) ∧
      (r.state = .paused → Gives (.sqResume n) s (fun t =>
        t.blk.ring? n = some { r with state := .active, tries := 0 } ∧ t.blk.cqs = s.blk.cqs ∧ only t))) ∧
    (∀ c, n < 2 ^ 16 → n < s.blk.cqCount → s.blk.cq? n = some c → (∀ r ∈ s.blk.rings, r.cqNo ≠ n) →
      Gives (.cqDisable n) s (fun t =>
        t.blk.cq? n = none ∧ (∀ k, k ≠ n → t.blk.cq? k = s.blk.cq? k) ∧ t.blk.rings = s.blk.rings ∧ only t))

/-- A queue control word that is refused changes nothing but its result in OD 0x2201.02 (R126 to R129): 1 for a ring
that does not exist, 2 for a ring in another state than the action needs. -/
def Obligations.QueueControlRefused : Prop :=
  ∀ (s : State) (n code : Nat) (c : Instr), Settled s → WindowOpen s → n < 2 ^ 18 → s.blk.words = [] →
    s.blk.wordWaits (false, pack [(0, n), (20, 1)]) = false → s.blk.wordWaits (false, pack [(0, n), (20, 5)]) = false →
    (((c = .sqEnable n ∨ c = .sqDisable n ∨ c = .sqResume n ∨ c = .sqAbort n) ∧ s.blk.sqCount ≤ n ∧ code = 1) ∨
     ((c = .cqEnable n ∨ c = .cqDisable n) ∧ n < 2 ^ 16 ∧ s.blk.cqCount ≤ n ∧ code = 1) ∨
     (c = .sqEnable n ∧ n < s.blk.sqCount ∧ (s.blk.ring? n).isSome = true ∧ code = 2) ∨
     ((c = .sqDisable n ∨ c = .sqResume n ∨ c = .sqAbort n) ∧ n < s.blk.sqCount ∧ s.blk.ring? n = none ∧ code = 2) ∨
     (c = .cqEnable n ∧ n < 2 ^ 16 ∧ n < s.blk.cqCount ∧ (s.blk.cq? n).isSome = true ∧ code = 2) ∨
     (c = .cqDisable n ∧ n < 2 ^ 16 ∧ n < s.blk.cqCount ∧ s.blk.cq? n = none ∧ code = 2)) →
    Gives c s (fun t => t.blk.od' 0x2201 2 = code ∧ Recorded s t 0 0x2201 1 ∧
      OdOnly s t ((0x2201, 2) :: windowKeys) ∧ OnlyOd s t)

/-- Re-attach words that are accepted (R495, R496). A stale completion ring takes the descriptor and the epoch it now
has: RESUME keeps its write index and phase, RESET starts it anew. An ORPHANED submission ring, its completion ring not
stale, becomes ACTIVE: RESUME, with the same base and size, keeps HEAD, TAIL and phase; RESET starts it anew. DROP of an
ORPHANED ring drains it, or disables it when nothing is left. The result in OD 0x2202.09 is 0. -/
def Obligations.RingsReattached : Prop :=
  ∀ (s : State) (n : Nat), Settled s → WindowOpen s → s.blk.words = [] → n < 2 ^ 18 →
    let only (t : State) : Prop :=
      t.blk.od' 0x2202 9 = 0 ∧ Recorded s t 0 0x2202 8 ∧ OdOnly s t ((0x2202, 9) :: windowKeys) ∧ t.mem = s.mem ∧
        t.blk.flows = s.blk.flows
    (let r := Block.readCq s.mem s.blk n
     ∀ c, n < 2 ^ 16 → n < s.blk.cqCount → s.blk.cq? n = some c → c.stale = true → s.blk.wordWaits (true, pack [(0, n), (18, 1)]) = false →
      s.blk.wordWaits (true, pack [(0, n), (18, 1), (19, 1)]) = false → r.2.1 = false →
      r.2.2.blocked = false → Block.cqDescOk r.1 = true → s.blk.cqBinding r.1 ≠ some 0 →
      let fresh : CompRing := { number := n, desc := r.1, wr := 0, phase := true, swHead := s.blk.swHeadIn r.1, readAt := 0,
                                since := 0, firstAt := none, epoch := s.blk.cqBinding r.1, stale := false }
      Gives (.reattachCqResume n) s (fun t =>
        t.blk.cq? n = some { fresh with wr := c.wr, phase := c.phase } ∧ t.blk.rings = s.blk.rings ∧ only t) ∧
      Gives (.reattachCqReset n) s (fun t => t.blk.cq? n = some fresh ∧ t.blk.rings = s.blk.rings ∧ only t)) ∧
    (let x := Block.readSq s.mem s.blk n
     ∀ r c, n < s.blk.sqCount → s.blk.ring? n = some r → r.number = n → r.state = .orphaned →
      s.blk.wordWaits (true, pack [(0, n)]) = false → s.blk.wordWaits (true, pack [(0, n), (19, 1)]) = false →
      x.2.1 = false → x.2.2.blocked = false → s.blk.sqDescOk x.1 = true → s.blk.sqBinding x.1 ≠ some 0 →
      (∀ d, s.blk.cq? r.cqNo = some d → d.stale = false) → s.blk.cq? (bits x.1 63 48) = some c → c.stale = false →
      let up : SubRing := { r with state := .active, desc := x.1, epoch := s.blk.sqBinding x.1, tries := 0 }
      (bits x.1 115 64 = r.base → bits x.1 12 8 = bits r.desc 12 8 →
        Gives (.reattachSqResume n) s (fun t => t.blk.ring? n = some up ∧ t.blk.cqs = s.blk.cqs ∧ only t)) ∧
      Gives (.reattachSqReset n) s (fun t =>
        t.blk.ring? n = some { up with head := 0, tail := 0, phase := true, bells := [] } ∧ t.blk.cqs = s.blk.cqs ∧
          only t)) ∧
    (∀ r, n < s.blk.sqCount → s.blk.ring? n = some r → r.number = n → r.state = .orphaned →
      Gives (.drop n) s (fun t =>
        t.blk.ring? n = (if (s.blk.inFlight n).isEmpty && s.blk.waiting.all (fun w => w.sq != n) then none
          else some { r with state := .draining, tries := 0 }) ∧ t.blk.cqs = s.blk.cqs ∧ only t))

/-- A doorbell write (R129, R132 to R135, R153). Of 4 or 8 bytes at a ring's doorbell, with a TAIL below the ring's
size, it gives the ring that TAIL; a PAUSED ring becomes ACTIVE. Of another size or place, for a ring that is DISABLED
or ORPHANED, beyond the ring, or while the engine is not READY, it is dropped and counted in OD 0x2201.03. -/
def Obligations.DoorbellsMoveTails : Prop :=
  ∀ (s : State) (q off size v : Nat), Settled s →
    let c : Instr := .doorbellWrite off size v
    let tail := v % 2 ^ 16
    (∀ r, s.blk.ready = true → off = 0x0100_0000 + 8 * q → (size = 8 ∨ size = 4) → q < s.blk.sqCount →
      s.blk.ring? q = some r → r.number = q → r.state ≠ .orphaned → tail < r.size →
      Gives c s (fun t => ∃ r', t.blk.ring? q = some r' ∧ r'.tail = tail ∧ r'.head = r.head ∧ r'.desc = r.desc ∧
        r'.phase = r.phase ∧ r'.state = (if r.state = .paused then .active else r.state) ∧ (tail, s.blk.time) ∈ r'.bells ∧
        (∀ k, k ≠ q → t.blk.ring? k = s.blk.ring? k) ∧ t.mem = s.mem ∧ OdOnly s t [] ∧
        { t.blk with rings := s.blk.rings, od := s.blk.od } = s.blk)) ∧
    (0x0100_0000 ≤ off →
      (s.blk.ready = false ∨ (size ≠ 8 ∧ size ≠ 4) ∨ off % 8 ≠ 0 ∨ s.blk.sqCount ≤ (off - 0x0100_0000) / 8 ∨
        s.blk.ring? ((off - 0x0100_0000) / 8) = none ∨
        (∃ r, s.blk.ring? ((off - 0x0100_0000) / 8) = some r ∧ (r.state = .orphaned ∨ r.size ≤ tail))) →
      Gives c s (fun t => t.blk.od' 0x2201 3 = add64 (s.blk.od' 0x2201 3) 1 ∧ OdOnly s t [(0x2201, 3)] ∧ OnlyOd s t))

/-- DISPATCH of the ring that the rotation puts first, whose entries are read without poison (R136 to R145, R152). A
header that fails its check is left in place and waits for its first recheck. A good header moves HEAD past the command
and its inline entries, flipping the phase where HEAD wraps; one that is refused (R142, R143) enters as a command that
does no work, with every status that applies, and a NOP enters, under the next flow number, which no flow in flight has,
as one that waits for its stream unit. Reads may count in the memory counters alone. -/
def Obligations.DispatchReadsOneHeader : Prop :=
  ∀ (s : State) (su : Nat) (r : SubRing), Settled s → s.blk.ready = true → Block.pick s.mem s.blk = some (su, r) →
    s.blk.ring? r.number = some r →
    let x := Block.readOwn s.mem s.blk (r.entryAt r.head) 64
    let e := leNat x.1
    let n := bits e 19 17
    let head' := (r.head + 1 + n) % r.size
    let phase' := if r.size ≤ r.head + 1 + n then !r.phase else r.phase
    let counted := [(0x2504, 2), (0x2504, 4), (0x2504, 0x0C)]
    x.2.1 = false →
    (Block.headerGood r e false = false →
      Gives .dispatch s (fun t => t.blk.ring? r.number = some { r with tries := 1, readAt := s.blk.time } ∧
        t.blk.flows = s.blk.flows ∧ t.blk.nextFlow = s.blk.nextFlow ∧ t.mem = s.mem ∧ OdOnly s t [])) ∧
    (Block.headerGood r e false = true → (Block.readInline s.mem x.2.2 r n).2.raised = [] →
      (Block.headerStatuses e ≠ [] →
        Gives .dispatch s (fun t => ∃ f r', t.blk.flows = s.blk.flows ++ [f] ∧ f.id = s.blk.nextFlow ∧ f.entry = e ∧
          f.ring = r.number ∧ f.su = su ∧ f.stage = .closing ∧ f.statuses = Block.headerStatuses e ∧
          t.blk.nextFlow = s.blk.nextFlow + 1 ∧ t.blk.ring? r.number = some r' ∧ r'.head = head' ∧ r'.phase = phase' ∧
          r'.tail = r.tail ∧ t.mem = s.mem ∧ OdOnly s t counted)) ∧
      (Block.headerStatuses e = [] → bits e 7 0 = 0x3F → s.blk.flow? s.blk.nextFlow = none →
        Gives .dispatch s (fun t => ∃ f r', t.blk.flows = s.blk.flows ++ [f] ∧ f.id = s.blk.nextFlow ∧ f.entry = e ∧
          f.ring = r.number ∧ f.su = su ∧ f.stage = .waiting ∧ f.statuses = [] ∧
          t.blk.nextFlow = s.blk.nextFlow + 1 ∧ t.blk.ring? r.number = some r' ∧ r'.head = head' ∧ r'.phase = phase' ∧
          r'.tail = r.tail ∧ t.blk.od' 0x2201 6 = add64 (s.blk.od' 0x2201 6) 1 ∧ t.mem = s.mem ∧
          OdOnly s t ((0x2201, 6) :: counted))))

/-- HEADER_RECHECK of a ring whose header, read without poison, still fails (R152): the second and third failures are
counted at the ring; the fourth pauses the queue, counted as DOORBELL_EARLY where the phase is stale and as BAD_CHECK
where it is not. That the four reads lie 330 ns apart, and that the command moves the timebase to its read, is log 2. -/
def Obligations.FailedHeaderPausesItsQueue : Prop :=
  ∀ (s : State) (n : Nat) (r : SubRing), Settled s → s.blk.ready = true → s.blk.ring? n = some r → r.number = n →
    r.state = .active → 0 < r.tries → 0 < r.readyEntries → s.blk.ringReadable r = true →
    let x := Block.readOwn s.mem s.blk (r.entryAt r.head) 64
    let e := leNat x.1
    let later := max s.blk.time (r.readAt + 330 * r.tries)
    x.2.1 = false → x.2.2.blocked = false → Block.headerGood r e false = false →
    (r.tries < 3 → Gives (.headerRecheck n) s (fun t =>
      t.blk.ring? n = some { r with tries := r.tries + 1 } ∧ t.blk.time = later ∧ t.mem = s.mem ∧ OdOnly s t [] ∧
        { t.blk with rings := s.blk.rings, od := s.blk.od, time := s.blk.time, agents := s.blk.agents,
                     freeCount := s.blk.freeCount } = s.blk)) ∧
    (3 ≤ r.tries → Works (.headerRecheck n) s (fun b =>
      b.ring? n = some { r with state := .paused, tries := 0 } ∧ b.time = later ∧
        b.od' 0x2201 (if bit e 16 != r.phase then 4 else 5) =
          add64 (s.blk.od' 0x2201 (if bit e 16 != r.phase then 4 else 5)) 1))

/-- COMPLETION_RECORD of a flow whose work has been performed (R141, R146 to R150): it leaves the flows in flight. With
COMPLETE set or a status other than OK its record is written at the write index of its completion ring, which moves on:
here for a ring that has room, with interrupts off, where the record lands at once. -/
def Obligations.CompletedFlowLeavesItsRecord : Prop :=
  ∀ (s : State) (id : Nat) (f : Flow), Settled s → s.blk.ready = true → s.blk.flow? id = some f →
    s.blk.flowDone f = true →
    Works (.completionRecord id) s (fun b => b.flow? id = none ∧
      (∀ c, (f.status s.blk.time ≠ 0 ∨ f.complete = true) → f.logged = false → s.blk.cq? f.cq = some c → c.number = f.cq →
        c.isFull = false → (∀ w ∈ s.blk.waiting, w.cq ≠ f.cq) → c.irqEn = false → s.blk.Lands (c.base + 16 * c.wr) 16 →
        (⟨c.base + 16 * c.wr, natLE 16 (recordBits (s.blk.recordOf f) c.phase (s.blk.headOf f.ring))⟩ : Store) ∈ b.posted ∧
        ∃ c', b.cq? f.cq = some c' ∧ c'.wr = (c.wr + 1) % c.size ∧
          c'.phase = (if (c.wr + 1) % c.size = 0 then !c.phase else c.phase)))

/-- SW_HEAD_REREAD while a record waits, with the built-in completion descriptor (R122, R150): the ring takes SW_HEAD
from OD 0x2200.09 when that lies below its size; still full, it writes nothing. COAL_TIMEOUT of a ring with a record not
yet signalled, none on its way (R151): MSI_DATA is written to MSI_ADDR, and the count begins anew. That the commands
move the timebase to 1 µs after the read before, and to COAL_US after the record, is log 2. -/
def Obligations.CompletionRingTimers : Prop :=
  ∀ (s : State) (n : Nat) (c : CompRing), Settled s → s.blk.cq? n = some c → c.number = n →
    ((∃ w ∈ s.blk.waiting, w.cq = n) → (∀ r ∈ s.blk.rings, r.state ≠ .draining) → s.blk.od' 0x2200 3 = 0 →
      s.blk.od' 0x2200 9 < c.size → (c.wr + 1) % c.size = s.blk.od' 0x2200 9 →
      Gives (.swHeadReread n) s (fun t =>
        t.blk.time = max s.blk.time (c.readAt + 1000) ∧
        t.blk.cq? n = some { c with swHead := s.blk.od' 0x2200 9, readAt := t.blk.time } ∧
        t.blk.waiting = s.blk.waiting ∧ t.mem = s.mem ∧ OdOnly s t [])) ∧
    (∀ t0, c.firstAt = some t0 → c.irqEn = true → c.coalUs ≠ 0 → c.stale = false → s.blk.Lands c.msiAddr 4 →
      s.blk.NoneInto c.base (16 * c.size) →
      Gives (.coalTimeout n) s (fun t =>
        t.blk.time = max s.blk.time (t0 + 1000 * c.coalUs) ∧
        t.blk.cq? n = some { c with since := 0, firstAt := none } ∧
        memRead t.mem c.msiAddr 4 = natLE 4 c.msiData ∧
        (∀ a, (a < c.msiAddr ∨ c.msiAddr + 4 ≤ a) → memByte t.mem a = memByte s.mem a) ∧ OdOnly s t [] ∧
        { t.blk with cqs := s.blk.cqs, time := s.blk.time, od := s.blk.od, agents := s.blk.agents } = s.blk))

/-! ### Channel agents and the row cache -/

/-- ROW_READ and BLOCK_READ inside the address map (R319, R322, R325, R326, R330, R337). Host memory answers with its
bytes while the link is up. A tier answers with its bytes when its range is present, is not held, has room in its share
window, no unit that fails, no poisoned unit and no row operation ahead, and its stack or channel is charged the units;
a poisoned unit poisons the answer; a range that touches an absent unit answers with poison and counts once. Memory does
not change. That such a range counts once is log 7. -/
def Obligations.AgentsAnswerReads : Prop :=
  ∀ (s : State) (a len : Nat), Settled s → a + len ≤ 2 ^ 52 → 0 < len →
    ∀ c, (c = Instr.rowRead a len ∨ c = Instr.blockRead a len) →
    (isHost a = true → s.blk.hostUp = true → Gives c s (fun t =>
      t.blk.agents.answer = memRead s.mem a len ∧ t.blk.agents.answerPoison = false ∧ t.mem = s.mem ∧ OdOnly s t [] ∧
        { t.blk with od := s.blk.od, agents := s.blk.agents } = s.blk)) ∧
    (isHost a = false → s.blk.rowOpAhead a len = false → s.blk.stackHeld a = false → s.blk.stackOut a = false →
      (s.blk.absentRange a len = false → inTier a = true → s.blk.shareRoom a (readCost a len) = true →
        (∀ u ∈ unitsOf a len, s.blk.agents.failing.contains u = false) →
        (s.blk.badUnits a len = [] → Gives c s (fun t =>
          t.blk.agents.answer = Block.agentView s.mem s.blk a len ∧ t.blk.agents.answerPoison = false ∧
          mapGet t.blk.agents.moved 0 (Block.shareKey a) =
            mapGet s.blk.agents.moved 0 (Block.shareKey a) + readCost a len ∧ t.mem = s.mem ∧ OdOnly s t [] ∧
          { t.blk with od := s.blk.od, agents := s.blk.agents } = s.blk)) ∧
        (s.blk.badUnits a len ≠ [] → Works c s (fun b => b.agents.answerPoison = true ∧ b.posted = []))) ∧
      (s.blk.absentRange a len = true → Gives c s (fun t =>
        t.blk.agents.answer.length = len ∧ t.blk.agents.answerPoison = true ∧
        t.blk.od' 0x2504 0x0C = add64 (s.blk.od' 0x2504 0x0C) 1 ∧ t.mem = s.mem ∧ OdOnly s t [(0x2504, 0x0C)] ∧
        { t.blk with od := s.blk.od, agents := s.blk.agents, freeCount := s.blk.freeCount } = s.blk)))

/-- BLOCK_WRITE, CRC_WRITE and WRITE_BACK of the oldest request of a port whose share window has room (R319, R325, R332,
R337, R340, R487, R488). The request leaves the queue and exactly its bytes are written at its address; a unit written
whole loses its poison, the unit of a line marked poisoned takes it, and a block's CRC word is asked for behind its
data. The frame is said for a write of the block's own. A range that touches an absent unit is dropped and counted; that
it counts once is log 7. A write to host memory is sent while its flow is not cut off, is dropped where it is, and waits
while the link holds. -/
def Obligations.AgentsPerformWrites : Prop :=
  ∀ (s : State) (port a : Nat) (d : Bytes) (p : Bool) (crc : Option (Nat × Nat)) (r : AgentReq) (c : Instr), Settled s →
    s.blk.words = [] → s.blk.agents.shareWaits = [] → d ≠ [] → s.blk.front port = some r → r.port = port →
    s.blk.shareRoom a (writeCost a d.length) = true →
    ((c = .blockWrite port ∧ r.op = .blockWrite a d crc ∧ p = false) ∨
     (c = .crcWrite port ∧ r.op = .crcWrite a d ∧ p = false ∧ crc = none ∧ r.after = []) ∨
     (c = .writeBack port ∧ r.op = .writeBack a d p ∧ crc = none ∧ r.after = [])) →
    let plain := r.flow = none ∧ crc = none ∧ r.after = []
    (port ≠ Config.hostPort → s.blk.absentRange a d.length = false → s.blk.stackOut a = false →
      Works c s (fun b => (∃ more, b.posted = ⟨a, d⟩ :: more ∧ (r.after = [] → more = [])) ∧
        (∀ u ∈ unitsOf a d.length, coversUnit a d.length u = true → p = false → u ∉ b.agents.poisoned) ∧
        (p = true → unitBase a ∈ b.agents.poisoned) ∧
        (∀ w v, crc = some (w, v) → s.blk.faults.injections = [] → ∃ q ∈ b.agents.queue ++ b.heldBack, ∃ x y,
          q.op = .crcWrite x (y ++ natLE 4 v) ∧ x + y.length = w ∧ q.flow = r.flow)) ∧
      (plain → p = false → (∀ u ∈ unitsOf a d.length, s.blk.agents.failing.contains u = false ∧
          (s.blk.agents.poisoned.contains u = true → coversUnit a d.length u = true)) →
        Gives c s (fun t =>
          (∀ k (hk : k < d.length), memByte t.mem (a + k) = d[k]) ∧
          (∀ x, (x < a ∨ a + d.length ≤ x) → memByte t.mem x = memByte s.mem x) ∧
          t.blk.agents.queue = s.blk.agents.queue.erase r ∧
          t.blk.agents.poisoned = s.blk.agents.poisoned.filter (fun u => !coversUnit a d.length u) ∧ OdOnly s t [] ∧
          { t.blk with od := s.blk.od, agents := s.blk.agents } = s.blk))) ∧
    (port ≠ Config.hostPort → plain → s.blk.absentRange a d.length = true →
      Gives c s (fun t => t.mem = s.mem ∧ t.blk.od' 0x2504 0x0C = add64 (s.blk.od' 0x2504 0x0C) 1 ∧
        t.blk.agents.queue = s.blk.agents.queue.erase r ∧ OdOnly s t [(0x2504, 0x0C)] ∧
        { t.blk with od := s.blk.od, agents := s.blk.agents } = s.blk)) ∧
    (port = Config.hostPort → c = .blockWrite port →
      (s.blk.hostHolds = true → exec c s = .next s) ∧
      (s.blk.hostHolds = false →
        ((r.flow.bind s.blk.flow? = none ∧ s.blk.hostUp = true) ∨
          (∃ f, r.flow.bind s.blk.flow? = some f ∧ s.blk.cutsOff f = false) →
          Works c s (fun b => ∃ more, b.posted = ⟨a, d⟩ :: more ∧ (r.after = [] → more = []))) ∧
        ((r.flow.bind s.blk.flow? = none ∧ s.blk.hostUp = false) ∨
          (∃ f, r.flow.bind s.blk.flow? = some f ∧ s.blk.cutsOff f = true) → r.after = [] →
          Works c s (fun b => b.posted = []))))

/-- AGENT_ADD, UPDATE and AGENT_COMMIT of the oldest request of a port, its row not locked and its share window with
room (R292 to R298, R302, R306, R310 to R312). The dirty lines over the row are written back first. On a row that is
then undamaged, the step's last write is the whole row, with the wire row added, the optimiser step taken, or the source
row committed; a MONOTONIC commit does so when its stamp lies above the row's, and else writes nothing and counts as
skipped. A damaged row, or a damaged source of a commit, is left alone and counted. -/
def Obligations.AgentsPerformRowOperations : Prop :=
  ∀ (s : State) (port : Nat) (r : AgentReq) (t : RowTarget), Settled s → s.blk.words = [] →
    s.blk.agents.shareWaits = [] → s.blk.front port = some r → r.port = port → port ≠ Config.hostPort →
    s.blk.lockWaits r = false → s.blk.shareRoom t.addr (readCost t.addr t.stride + writeCost t.addr t.stride) = true →
    let own := s.blk.popFront r
    let b0 := own.flushRow t.addr t.stride
    let shape := tdShape t.desc
    let x := Block.agentRow s.mem b0 t
    let spoilt (c : Instr) (b0 : Block) : Prop := Works c s (fun b => b.posted = b0.posted ∧
      b.od' 0x2303 6 = add64 (s.blk.od' 0x2303 6) 1)
    (∀ w, r.op = .add t w →
      (x.2.1 = false → Works (.agentAdd port) s (fun b =>
        b.posted = b0.posted ++ [⟨t.addr, (addedRow shape x.1 w).1⟩] ∧
          b.od' 0x2303 1 = add64 (s.blk.od' 0x2303 1) 1)) ∧
      (x.2.1 = true → spoilt (.agentAdd port) b0)) ∧
    (∀ p w, r.op = .update t p w →
      (x.2.1 = false → Works (.update port) s (fun b =>
        b.posted = b0.posted ++ [⟨t.addr, (steppedRow shape x.1 p w).1⟩] ∧
          b.od' 0x2303 3 = add64 (s.blk.od' 0x2303 3) 1)) ∧
      (x.2.1 = true → spoilt (.update port) b0)) ∧
    (∀ e src bad, r.op = .commit t e src bad →
      let spoiltSource := bad || shape.poisoned (slice src 0 shape.stride)
      let y := if needsCurrent shape (bit e 82) (bits e 81 80) then x
        else (memRead (land s.mem b0.posted) t.addr t.stride, false, b0)
      let row := committedRow shape y.1 src (bits e 81 80) (bits e 127 96)
      let above := bits (shape.header y.1) 63 32 < bits e 127 96
      (spoiltSource = true → spoilt (.agentCommit port) own) ∧
      (spoiltSource = false → own.absentRange t.addr t.stride = false → own.stackOut t.addr = false →
        (y.2.1 = true → spoilt (.agentCommit port) b0) ∧
        (y.2.1 = false → row ≠ [] → row.length = t.stride → (bit e 82 = true → above) →
          Works (.agentCommit port) s (fun b => b.posted = b0.posted ++ [⟨t.addr, row⟩] ∧
            b.agents.locks = s.blk.agents.locks ∧ b.od' 0x2303 4 = add64 (s.blk.od' 0x2303 4) 1)) ∧
        (y.2.1 = false → bit e 82 = true → ¬ above → r.flow.isSome = true →
          Works (.agentCommit port) s (fun b => b.posted = b0.posted ∧
            b.od' 0x2303 5 = add64 (s.blk.od' 0x2303 5) 1))))

/-- APPEND of the oldest request of a port to a desk that is not SEALED, and not FULL or one that wraps (R52, R53, R225,
R325, R326): where nothing stands before them at their agents, key and value are written into slot NEXT, then the
descriptor with NEXT moved on (to 0, with FULL set, after the last slot); where something does, they are asked of their
agents, and the append stays in front until they are written. A SEALED desk takes nothing. RECORD (R107, R109): a
calibration record is written whole with its GENERATION counted up by one; a drift mark sets DRIFTED of the record that
it was judged on, with one event, and else nothing. -/
def Obligations.AgentsAppendAndRecord : Prop :=
  ∀ (s : State) (port : Nat) (r : AgentReq), Settled s → s.blk.words = [] → s.blk.agents.shareWaits = [] →
    s.blk.front port = some r → r.port = port → s.blk.partsWait r = false →
    (∀ a key value sent f, r.op = .append a key value sent → port ≠ Config.hostPort →
      r.flow.bind s.blk.flow? = some f → f.statuses.any endsEarly = false →
      s.blk.shareRoom a (readCost a 32 + writeCost a 32) = true →
      (sent = true ∨ (Block.agentReads (s.blk.popFront r) a 32).1 = false) →
      let own := s.blk.popFront r
      let d := leNat (memRead s.mem a 32)
      let parts := Block.appendParts f d (ddNext d) key value
      let last := ddNext d + 1 == 2 ^ ddCap d
      let waits (w : Store) : Bool := agentOf w.addr != port && own.ownWaits w.addr w.data.length
      let written (b : Block) (ws : List Store) : Prop := (∃ d', b.posted = ws ++ [⟨a, natLE 32 d'⟩] ∧
        (ddNext d < 2 ^ ddCap d → ddCap d ≤ 24 → ddNext d' = (if last then 0 else ddNext d + 1) ∧
          ddFull d' = (ddFull d || last))) ∧ b.od' 0x2302 3 = add64 (s.blk.od' 0x2302 3) 1
      (ddSealed d = true → Works (.append port) s (fun b => b.posted = [])) ∧
      (ddSealed d = false → (ddFull d = false ∨ dcWrap (f.copyAt 1) = true) →
        (sent = true → Works (.append port) s (fun b => written b [])) ∧
        (sent = false → key ≠ [] → value ≠ [] → (∀ q ∈ own.agents.queue, q.flow = r.flow → Block.writeSpan q.op = none) →
          (∀ w ∈ parts, s.blk.absentRange w.addr w.data.length = false ∧ s.blk.stackOut w.addr = false) →
          ((∀ w ∈ parts, waits w = false) → Works (.append port) s (fun b => written b parts)) ∧
          ((∃ w ∈ parts, waits w = true) → Works (.append port) s (fun b =>
            b.agents.queue.head? = some { r with op := .append a key value true } ∧ (∀ w ∈ b.posted, w ∈ parts) ∧
            b.od' 0x2302 3 = s.blk.od' 0x2302 3))))) ∧
    (∀ a d mark, r.op = .record a d mark →
      s.blk.shareRoom a (readCost a d.length + writeCost a d.length) = true →
      let now := memRead s.mem a 64
      let counted (x : Bytes) : Prop := x.length = d.length ∧ (∀ k, (k < 16 ∨ 20 ≤ k) → x[k]? = d[k]?) ∧
        leNat (slice x 16 4) = (leNat (slice now 16 4) + 1) % 2 ^ 32
      (port ≠ Config.hostPort →
        (mark = false → d.length = recordBytes → s.blk.absentRange a d.length = false → s.blk.stackOut a = false →
          Works (.record port) s (fun b => ∃ x, b.posted = [⟨a, x⟩] ∧ counted x)) ∧
        (mark = true → s.blk.absentRange a 64 = false → s.blk.stackOut a = false →
          (Block.marks now d = true → Works (.record port) s (fun b =>
            (∃ more, b.posted = ⟨a, natLE 1 (leNat (slice now 0 1) + 2)⟩ :: more) ∧
            b.faults.eventSeq = (s.blk.faults.eventSeq + 1) % 2 ^ 32)) ∧
          (Block.marks now d = false → Works (.record port) s (fun b => b.posted = [] ∧ b.faults = s.blk.faults)))) ∧
      (port = Config.hostPort → s.blk.hostHolds = false → mark = false → d.length = recordBytes →
        ((r.flow.bind s.blk.flow? = none ∧ s.blk.hostUp = true) ∨
          (∃ f, r.flow.bind s.blk.flow? = some f ∧ s.blk.cutsOff f = false)) →
        Works (.record port) s (fun b => ∃ x, b.posted = [⟨a, x⟩] ∧ counted x)))

/-- ROW_FILL of an address of a tier (R165, R331, R332, R335): a line that the row cache holds sound answers with its
bytes, and a line that it does not hold is fetched from its present agent, answers with memory's bytes and is held from
then on, unless its way must first be written back at an agent that is full. SHARE_WINDOW begins a window that holds
only what each stack or bulk channel moved beyond its budget (R324, log 8). -/
def Obligations.LinesFilledAndWindowsBegun : Prop :=
  (∀ (s : State) (a hint : Nat), Settled s → a < 2 ^ 52 → isHost a = false → s.blk.absentRange (lineAddr a) 256 = false →
    (∀ l ∈ s.blk.cache.lines, l.err = 0) →
    (∀ l, s.blk.line? a = some l → l.data.length = 256 → Gives (.rowFill a hint) s (fun t =>
      t.blk.agents.answer = l.data ∧ t.blk.agents.answerPoison = false ∧
        t.blk.od' 0x2504 8 = add64 (s.blk.od' 0x2504 8) 1 ∧ t.mem = s.mem ∧ OdOnly s t [(0x2504, 8)])) ∧
    (s.blk.line? a = none → s.blk.fillWaits a = false → s.blk.rowOpAhead (lineAddr a) 256 = false →
      s.blk.stackHeld (lineAddr a) = false → s.blk.stackOut (lineAddr a) = false →
      s.blk.shareRoom (lineAddr a) (readCost (lineAddr a) 256) = true → s.blk.badUnits (lineAddr a) 256 = [] →
      (∀ u ∈ unitsOf (lineAddr a) 256, s.blk.agents.failing.contains u = false) →
      Gives (.rowFill a hint) s (fun t =>
        t.blk.agents.answer = Block.agentView s.mem s.blk (lineAddr a) 256 ∧ t.blk.agents.answerPoison = false ∧
        t.blk.od' 0x2504 9 = add64 (s.blk.od' 0x2504 9) 1 ∧ t.mem = s.mem ∧
        (0 < (s.blk.ordinaryWays (s.blk.half a)).length → s.blk.faults.injections = [] →
          ∃ l, t.blk.line? a = some l ∧ l.data = Block.agentView s.mem s.blk (lineAddr a) 256 ∧ l.dirty = false)))) ∧
  (∀ s : State, Settled s → s.blk.words = [] → s.blk.agents.moved.Pairwise (fun x y => x.1 < y.1) →
    Gives .shareWindow s (fun t =>
      (∀ k, mapGet t.blk.agents.moved 0 k = mapGet s.blk.agents.moved 0 k - s.blk.shareBudget k) ∧
      t.blk.agents.began = t.blk.agents.moved ∧
      { t.blk.agents with moved := s.blk.agents.moved, began := s.blk.agents.began } = s.blk.agents ∧
      t.mem = s.mem ∧ OdOnly s t [] ∧ { t.blk with od := s.blk.od, agents := s.blk.agents } = s.blk))
/-! ### Wing engines -/

/-- ARRAY_PASS of a wing in service (R239 to R241, R528 to R531). With enough watts in hand, the pass that has begun
takes the steps that the 1 µs window still has: with its last one the tile leaves for the cells' second accumulators;
without it the pass stays, and the shortfall counts. With no pass begun, room for a tile and a step left in the window,
the oldest ready pass of the one flow that has any begins and counts, and a run where none was under way. With no step
left nothing begins, and a wing that holds fewer watts than it needs asks for them, once. -/
def Obligations.ArraysTakeTheirSteps : Prop :=
  ∀ (s : State) (w : Wing) (p : Pass) (f : Flow), Settled s → s.blk.ready = true → s.blk.wingUp w = true →
    s.blk.flow? p.flow = some f →
    let e := s.blk.engine w
    let n := (s.blk.wingPower w).steps
    (s.blk.need w ≤ s.blk.pass w → e.current = some p → Gives (.arrayPass w) s (fun t =>
      (t.blk.wingPower w).steps = n - min p.left n ∧ t.blk.engine (otherWing w) = s.blk.engine (otherWing w) ∧
      t.blk.flows = s.blk.flows ∧ t.mem = s.mem ∧ (t.blk.engine w).ready = e.ready ∧
      (p.left ≤ n → (t.blk.engine w).current = none ∧ (t.blk.engine w).finished = e.finished ++ [Block.tileOf f p] ∧
        OdOnly s t []) ∧
      (n < p.left → (t.blk.engine w).current = some { p with left := p.left - n } ∧
        (t.blk.engine w).finished = e.finished ∧ OdOnly s t [(0x2900, 7)]))) ∧
    (∀ rest, s.blk.need w ≤ s.blk.pass w → e.current = none → e.ready = p :: rest → (∀ q ∈ rest, q.flow = p.flow) →
      e.finished.length < 2 → 0 < n → Works (.arrayPass w) s (fun b =>
        (b.engine w).ready = rest ∧ (b.wingPower w).steps = n - min p.left n ∧ b.posted = [] ∧
        b.od' (Block.arrayOd w) 1 = add64 (s.blk.od' (Block.arrayOd w) 1) 1 ∧
        b.od' (Block.arrayOd w) 2 = (if e.running then s.blk.od' (Block.arrayOd w) 2
          else add64 (s.blk.od' (Block.arrayOd w) 2) 1) ∧
        (p.left ≤ n → (b.engine w).current = none ∧
          ∃ x, (b.engine w).finished = e.finished ++ [x] ∧ x.flow = p.flow) ∧
        (n < p.left → ∃ q, (b.engine w).current = some q ∧ q.flow = p.flow ∧ q.left = p.left - n))) ∧
    (∀ rest, s.blk.pass w < s.blk.need w → (s.blk.wingPower w).asked = none → e.current = none → e.ready = p :: rest →
      (∀ q ∈ rest, q.flow = p.flow) → n = 0 → Gives (.arrayPass w) s (fun t =>
        t.blk.power.out = s.blk.power.out ++ [.request (w == .south) (s.blk.need w)] ∧
        (t.blk.wingPower w).asked = some (s.blk.need w, s.blk.time) ∧
        { t.blk.engine w with running := e.running } = e ∧
        t.blk.od' 0x2900 5 = add64 (s.blk.od' 0x2900 5) 1 ∧ OdOnly s t [(0x2900, 5)] ∧ t.mem = s.mem))

/-- TILE_DRAIN and VECTOR_TAKE (R99, R239, R253, R265, R266, R369). The oldest finished result enters the tile queue
while that, with the tiles that wait for a grant of a satchel, holds fewer than 8, its saturated cells counted; a full
queue changes nothing. The vector engine then takes what the timetable grants it, and the quantiser where it converts,
the tile or the block leaving its queue and counted at the wing, and the flow's finished tiles move on by one.
CONTEXT_SWITCH (R383): in THREAD mode a stream unit whose current context has no work ready goes on with the other one
that has; in SEQ mode, and while work is ready, nothing happens. -/
def Obligations.TilesDrainAndAreTaken : Prop :=
  (∀ (s : State) (w : Wing) (x : EngineTile) (rest : List EngineTile), Settled s →
    let e := s.blk.engine w
    e.finished = x :: rest →
    (8 ≤ s.blk.tilesHeld w → Ends (.tileDrain w) s s.blk) ∧
    (s.blk.tilesHeld w < 8 → Gives (.tileDrain w) s (fun t =>
      t.blk.engine w = { e with finished := rest, tileQueue := e.tileQueue ++ [x] } ∧
      t.blk.engine (otherWing w) = s.blk.engine (otherWing w) ∧
      t.blk.od' 0x2400 1 = add64 (s.blk.od' 0x2400 1) x.sat ∧ OdOnly s t [(0x2400, 1)] ∧ t.mem = s.mem ∧
      ((∀ f, s.blk.flow? x.flow = some f → f.fromQ = none) →
        t.blk.flows = s.blk.flows ∧ t.blk.streams = s.blk.streams)))) ∧
  (∀ (s : State) (w : Wing) (f : Flow) (x : EngineTile ⊕ Pass) (c b0 : Block), Settled s → s.blk.ready = true →
    s.blk.wingUp w = true → s.blk.grantWork w = some (f, x, c) →
    (if Block.tileConverts f then c.quantiserTurn f else some c) = some b0 →
    let e := s.blk.engine w
    let b := match x with
      | .inl t => b0.takeTile s.mem w f t
      | .inr p => b0.takeBlock s.mem w f p
    GoesOn s b f → Works (.vectorTake w) s (fun b =>
      (∃ g, b.flow? f.id = some g ∧ g.tilesFormed = f.tilesFormed + 1) ∧
      match x with
      | .inl _ => (b.engine w).tileQueue = e.tileQueue.tail ∧ (b.engine w).feed = e.feed ∧
          b.od' (Block.vectorOd w) 5 = add64 (s.blk.od' (Block.vectorOd w) 5) 1
      | .inr p => (b.engine w).feed = e.feed.erase p ∧ (b.engine w).tileQueue = e.tileQueue ∧
          b.od' (Block.vectorOd w) 6 = add64 (s.blk.od' (Block.vectorOd w) 6) 1)) ∧
  (∀ (s : State) (su c : Nat) (cur : Flow), Settled s → s.blk.currentContext su = some c → s.blk.flow? c = some cur →
    (s.blk.threaded (Block.wingOf su) = false ∨ s.blk.workReady cur = true → Ends (.contextSwitch su) s s.blk) ∧
    (∀ g, s.blk.threaded (Block.wingOf su) = true → s.blk.workReady cur = false →
      ((s.blk.holders su).filterMap s.blk.flow?).filter (fun f => f.id != cur.id && s.blk.workReady f) = [g] →
      Gives (.contextSwitch su) s (fun t =>
        t.blk.contexts = (su, g.id) :: s.blk.contexts.filter (· != (su, g.id)) ∧ t.mem = s.mem ∧
        OdOnly s t [(0x2603, 3)] ∧
        { t.blk with contexts := s.blk.contexts, od := s.blk.od, streams := s.blk.streams } = s.blk)))

/-! ### Streams -/

/-- The four actions of a STREAM_ARM that its stream unit works on (R355 to R357, R362). WRITE puts the words that MASK
selects into the slot's shadow copy. ARM of an idle slot starts a generation on the descriptor it forms, numbered one
above the last; of a slot with a generation it queues one; of a slot with a queued one it is refused with ARM_BUSY.
CANCEL drops the queued copy, whose ARM completes with STREAM_STOPPED; STOP does so too, and the current generation, of
which no further run is issued, ends with its ARM, STREAM_STOPPED, once its issued writes have been performed. Either
with a MASK is BAD_STREAM. -/
def Obligations.StreamActions : Prop :=
  ∀ (s : State) (id : Nat) (b : Block) (f : Flow), Settled s → f.su < 32 →
    let n := f.saStream
    let sl := s.blk.slot n
    let is (a : Nat) : Flow → Bool := fun g => isOp opArm g && isArm a g
    let closed (t : State) (st : List Nat) : Prop :=
      ∃ g, t.blk.flow? id = some g ∧ g.stage = .closing ∧ g.statuses = f.statuses ++ st
    (Begun s (is 0) id b f → Gives (.write id) s (fun t =>
      (∀ w, w < 8 → bit f.saMask w = false →
        bits (t.blk.slot n).shadow (64 * w + 63) (64 * w) = bits sl.shadow (64 * w + 63) (64 * w)) ∧
      (∀ w, w < 8 → bit f.saMask w = true → 64 ≤ f.inline.length → f.slots ≠ 0 →
        bits (t.blk.slot n).shadow (64 * w + 63) (64 * w) = leNat (slice f.inline (8 * w) 8)) ∧
      { t.blk.slot n with shadow := sl.shadow } = sl ∧ (∀ k, k ≠ n → t.blk.slot k = s.blk.slot k) ∧ closed t [] ∧
      t.mem = s.mem ∧ OdOnly s t [(0x2604, n + 1)])) ∧
    (Begun s (is 1) id b f → f.genNo = none →
      let d := s.blk.maskedShadow f
      let no := (sl.counter + 1) % 2 ^ 32
      (sl.pendingGen.isSome = true → Gives (.arm id) s (fun t => closed t [0x0201] ∧
        t.blk.od' 0x2603 6 = add64 (s.blk.od' 0x2603 6) 1 ∧ t.blk.streams = s.blk.streams ∧ t.mem = s.mem ∧
        OdOnly s t [(0x2603, 6)])) ∧
      (∀ q, sl.pendingGen = none → f.statuses = [] → sdFmt d ≠ 15 → s.blk.queueOk (sdQueue d) = true →
        s.blk.cycleBad (sdQueue d) = false → s.blk.queue? (sdQueue d) = some q → 0 < q.depth →
        s.blk.wingFenced (if q.south then .south else .north) = false → streamBad f d q.size = false →
        (sl.gen = none → Gives (.arm id) s (fun t =>
          (t.blk.slot n).active = d ∧ (t.blk.slot n).shadow = d ∧ (t.blk.slot n).counter = no ∧
          (t.blk.slot n).gen = some s.blk.nextFlow ∧ (t.blk.slot n).arm = id ∧ (t.blk.slot n).pos = 0 ∧
          (∀ k, k ≠ n → t.blk.slot k = s.blk.slot k) ∧
          (∃ g, t.blk.flow? id = some g ∧ g.stage = f.stage ∧ g.genNo = some no) ∧
          (∃ h ∈ t.blk.flows, h.id = s.blk.nextFlow ∧ h.stream = some n ∧ h.entry = d ∧ h.stage = .running) ∧
          t.mem = s.mem ∧ OdOnly s t [(0x2604, n + 1)])) ∧
        (∀ c, sl.gen = some c → Gives (.arm id) s (fun t =>
          t.blk.slot n = { sl with shadow := d, counter := no, pendingGen := some d, pendingArm := id } ∧
          (∀ k, k ≠ n → t.blk.slot k = s.blk.slot k) ∧
          (∃ g, t.blk.flow? id = some g ∧ g.stage = f.stage ∧ g.genNo = some no) ∧ t.mem = s.mem ∧
          OdOnly s t [(0x2604, n + 1)])))) ∧
    (Begun s (is 2) id b f →
      (f.saMask = 0 → Gives (.cancel id) s (fun t => (t.blk.slot n).pendingGen = none ∧ (t.blk.slot n).gen = sl.gen ∧
        (∃ g, t.blk.flow? id = some g ∧ g.stage = .closing) ∧
        (∀ a, sl.pendingGen.isSome = true → sl.pendingArm ≠ id → s.blk.flow? sl.pendingArm = some a →
          ∃ g, t.blk.flow? sl.pendingArm = some g ∧ g.stage = .closing ∧ g.statuses = a.statuses ++ [0x1005]) ∧
        (∀ k, k ≠ n → t.blk.slot k = s.blk.slot k) ∧ t.mem = s.mem ∧ OdOnly s t [(0x2604, n + 1)])) ∧
      (f.saMask ≠ 0 → Gives (.cancel id) s (fun t => closed t [0x1001] ∧ t.blk.streams = s.blk.streams ∧ OdOnly s t []))) ∧
    (Begun s (is 3) id b f →
      (f.saMask = 0 → sl.gen ≠ some id →
        let stopped (t : State) (i : Nat) : Prop := ∃ g, t.blk.flow? i = some g ∧ g.stage = .closing ∧ 0x1005 ∈ g.statuses
        Gives (.stop id) s (fun t => (t.blk.slot n).pendingGen = none ∧
          (∃ g, t.blk.flow? id = some g ∧ g.stage = .closing) ∧
          (sl.pendingGen.isSome = true → sl.gen ≠ some sl.pendingArm → (s.blk.flow? sl.pendingArm).isSome = true →
            stopped t sl.pendingArm) ∧
          (∀ c, sl.gen = some c → sl.stopped = false → (s.blk.flow? c).isSome = true →
            (s.blk.writesWait c = false → (t.blk.slot n).gen = none ∧ t.blk.flow? c = none ∧
              (sl.arm ≠ c → (s.blk.flow? sl.arm).isSome = true → stopped t sl.arm)) ∧
            (s.blk.writesWait c = true → (t.blk.slot n).gen = some c ∧ (t.blk.slot n).stopped = true)) ∧
          (∀ k, k ≠ n → t.blk.slot k = s.blk.slot k) ∧ t.mem = s.mem ∧ OdOnly s t [(0x2604, n + 1)])) ∧
      (f.saMask ≠ 0 → Gives (.stop id) s (fun t => closed t [0x1001] ∧ t.blk.streams = s.blk.streams ∧ OdOnly s t [])))

/-- STREAM_RUN of the slot that the timetable grants (R360, R361, R363, R369): a LOAD asks for the satchel of its next
rows before it reads them, then reads run by run, and hands the satchel over when its last row is in; a STORE asks the
owners of its addresses to write the bytes of its satchel's rows, with CRC once they fill a block. The requests of a
generation whose ARM has RELEASE set are held back while earlier commands of its queue are in flight. The generation's
place in its sequence moves on by the run. -/
def Obligations.StreamRunsMoveOn : Prop :=
  ∀ (s : State) (n : Nat) (f : Flow) (b0 : Block), Settled s → s.blk.ready = true → s.blk.suUp (n / 4) = true →
    s.blk.grantRun (n / 4) = some (n, b0) → (s.blk.slot n).gen.bind s.blk.flow? = some f →
    let sl := s.blk.slot n
    let d := sl.active
    let e := sl.pos / sdElem d
    (sdKind d = 0 → s.blk.filling f = none → Gives (.streamRun n) s (fun t =>
      t.blk.streams.claims = s.blk.streams.claims ++ [
        { queue := sdQueue d, remote := none, since := s.blk.time,
          tile := some { flow := f.id, index := f.tilesFormed, rows := Block.satchelRowsLeft d sl.pos, cols := sdCols d,
                         fmt := sdFmt d, pitch := sdPitch d, data := [], poison := [] } }] ∧
      (∃ g, t.blk.flow? f.id = some g ∧ g.tilesFormed = f.tilesFormed + 1) ∧ t.blk.slot n = sl ∧ t.mem = s.mem ∧
      OdOnly s t [(0x2603, 3), (0x2603, 7)])) ∧
    (∀ k x, sdKind d = 0 → s.blk.filling f = some k → (s.blk.queue? (sdQueue d)).bind (fun q => q.sats[k]?) = some x →
      GoesOn s (b0.loadRun s.mem f n) f →
      let whole := x.rows * sdRowBytes d
      let len := sdElem d * runLength d e (ceilDiv (whole - sl.part.length) (sdElem d)) 256 0
      let part := sl.part ++ (b0.readRun s.mem f d (sdAddr d e) len).1
      Works (.streamRun n) s (fun b => (b.slot n).pos = sl.pos + len ∧ b.posted = [] ∧
        (part.length < whole → (b.slot n).part = part) ∧
        (whole ≤ part.length → (b.slot n).part = [] ∧ ∃ y, (b.queue? (sdQueue d)).bind (fun q => q.sats[k]?) = some y ∧
          y.data = Block.pitchRows (sdRowBytes d) (sdPitch d) part))) ∧
    (∀ x, sdKind d ≠ 0 → s.blk.emptying f = some x →
      let left := min (x.rows * sdRowBytes d - f.taken) (sdTotal d - sl.pos)
      let len := sdElem d * runLength d e (ceilDiv left (sdElem d)) 256 0
      let bytes := slice (s.blk.storeRows d x).1 f.taken len
      let part := sl.part ++ bytes
      let asks (t : State) (rs : List AgentReq) : Prop :=
        if s.blk.effectsHeld f then t.blk.heldBack = rs ∧ t.blk.agents.queue = s.blk.agents.queue
        else t.blk.heldBack = [] ∧ t.blk.agents.queue = s.blk.agents.queue ++ rs
      Gives (.streamRun n) s (fun t => (t.blk.slot n).pos = sl.pos + len ∧ t.mem = s.mem ∧
        (∀ j, j ≠ n → t.blk.slot j = s.blk.slot j) ∧
        (sdCrc d = false → asks t ((cutPages (sdAddr d e) len).map (fun p =>
          { port := agentOf p.1, flow := some f.id, remote := none,
            op := .blockWrite p.1 (slice bytes (p.1 - sdAddr d e) p.2) none }))) ∧
        (sdCrc d = true → part.length < 4096 → asks t [] ∧ (t.blk.slot n).part = part) ∧
        (sdCrc d = true → 4096 ≤ part.length → (t.blk.slot n).part = [] ∧ ∃ crc,
          (crc.isSome = (s.blk.crcWord f.id (sdAddr d e / 4096 * 4096)).isSome) ∧ asks t
            [{ port := agentOf (sdAddr d e / 4096 * 4096), flow := some f.id, remote := none,
               op := .blockWrite (sdAddr d e / 4096 * 4096) part crc }])))

/-- GENERATION_COMPLETE (R355, R357, R386): a generation whose transfers are performed, without a bell, leaves, its ARM
completes with what it found, and a queued copy starts in the same step; with a bell that waits for others it arrives
there; a stopped one leaves once its issued writes have been performed. SATCHEL_GRANT, SATCHEL_ARRIVAL and SATCHEL_TAKE
(R368 to R370, R379): the claim that the timetable grants takes a FREE satchel; a written one arrives, numbered in
arrival order; the consumer holds the earliest arrival. -/
def Obligations.GenerationsAndSatchelsMoveOn : Prop :=
  (∀ (s : State) (n : Nat) (f : Flow), Settled s → n < 128 → (s.blk.slot n).gen.bind s.blk.flow? = some f →
    let sl := s.blk.slot n
    sl.stopped = false → sl.ringing = false → s.blk.genDone f sl = true →
    (sdBellEn sl.active = false → sl.pendingGen = none → Gives (.generationComplete n) s (fun t =>
      (t.blk.slot n).gen = none ∧ t.blk.flow? f.id = none ∧ (∀ k, k ≠ n → t.blk.slot k = s.blk.slot k) ∧
      (∀ a, sl.arm ≠ f.id → s.blk.flow? sl.arm = some a →
        ∃ g, t.blk.flow? sl.arm = some g ∧ g.stage = .closing ∧ g.statuses = a.statuses ++ f.statuses) ∧
      t.mem = s.mem ∧ OdOnly s t [(0x2604, n + 1)])) ∧
    (∀ d, sdBellEn sl.active = false → sl.pendingGen = some d → s.blk.genFenced n d = false → Gives (.generationComplete n) s (fun t =>
      (t.blk.slot n).gen = some s.blk.nextFlow ∧ (t.blk.slot n).active = d ∧ (t.blk.slot n).pos = 0 ∧
      (t.blk.slot n).pendingGen = none ∧ (t.blk.slot n).arm = sl.pendingArm ∧ t.blk.nextFlow = s.blk.nextFlow + 1 ∧
      t.mem = s.mem ∧ OdOnly s t [(0x2604, n + 1)])) ∧
    (sdBellEn sl.active = true → s.blk.bell? (sdBell sl.active) = none → 1 < sdParties sl.active →
      Gives (.generationComplete n) s (fun t => (t.blk.slot n).ringing = true ∧
        t.blk.bell? (sdBell sl.active) =
          some { number := sdBell sl.active, parties := sdParties sl.active, arrivals := [f.id] } ∧
        t.mem = s.mem ∧ OdOnly s t [(0x2604, n + 1)]))) ∧
  (∀ (s : State) (n : Nat) (f : Flow), Settled s → n < 128 → (s.blk.slot n).gen.bind s.blk.flow? = some f →
    (s.blk.slot n).stopped = true → s.blk.writesWait f.id = false → (s.blk.slot n).pendingGen = none →
    Gives (.generationComplete n) s (fun t => (t.blk.slot n).gen = none ∧ t.blk.flow? f.id = none ∧
      (∀ k, k ≠ n → t.blk.slot k = s.blk.slot k) ∧ t.mem = s.mem ∧ OdOnly s t [(0x2604, n + 1)])) ∧
  (∀ (s : State) (n : Nat) (q : SatQueue), Settled s → s.blk.queue? n = some q → q.number = n →
    (∀ f b1 c g k, s.blk.grant (2 ^ 16 + n) ((s.blk.openClaims q).map (·.2)) = some (f, b1) →
      (s.blk.openClaims q).find? (fun x => x.2.id == f.id) = some (c, g) →
      q.sats.findIdx? (fun x => x.state == .free) = some k → s.blk.faults.injections = [] →
      Works (.satchelGrant n) s (fun b => b.queue? n = some { q with sats := q.sats.set k (Block.grantedSatchel c) } ∧
        b.streams.claims = s.blk.streams.claims.erase c ∧ b.posted = [])) ∧
    (∀ k x, Block.readyToArrive q = some k → q.sats[k]? = some x → Gives (.satchelArrival n) s (fun t =>
      t.blk.queue? n = some
        { q with sats := q.sats.set k { x with state := .arrived, holder := none, order := q.count },
                 count := q.count + 1 } ∧
      (∀ i f, x.holder = some i → s.blk.flow? i = some f →
        ∃ g, t.blk.flow? i = some g ∧ g.tilesDone = f.tilesDone + 1) ∧ t.mem = s.mem ∧ OdOnly s t [])) ∧
    (∀ f k x, q.consumer.bind s.blk.flow? = some f → s.blk.wantsSatchel q f = true → Block.nextArrived q = some k →
      q.sats[k]? = some x → x.err = [] → x.state = .arrived → Gives (.satchelTake n) s (fun t =>
        t.blk.queue? n = some
          { q with sats := q.sats.set k { x with state := .held, holder := some f.id },
                   interval := Block.takeInterval q s.blk.time, lastTake := some s.blk.time } ∧
        t.blk.flows = s.blk.flows ∧ t.mem = s.mem ∧ OdOnly s t [])))

/-- Timers that run out move the timebase to the end of their wait (log 2) and end the wait. BELL_TIMEOUT, WAIT_TIMEOUT
and FENCE_TIMEOUT: the command ends with SYNC_TIMEOUT, a BELL's arrival withdrawn, a FENCE counted (R386, R390, R408).
STALL_CYCLE: a wait of 100 µs for a satchel counts and ends a flow with STALL_CYCLE: the one that waits, where no other
flow that waits holds a satchel of the queue (R377). -/
def Obligations.TimersEndWaits : Prop :=
  ∀ (s : State) (id : Nat) (f : Flow), Settled s → s.blk.flow? id = some f → f.stream = none →
    let ended (t : State) (st began len : Nat) : Prop :=
      t.blk.time = max s.blk.time (began + len) ∧ t.mem = s.mem ∧
        ∃ g, t.blk.flow? id = some g ∧ g.stage = .closing ∧ g.statuses = f.statuses ++ [st] ∧ g.arrived = false
    (f.timeoutUs ≠ 0 → f.stage ≠ .closing → f.formed = 0 →
      (f.opcode = opBell → f.arrived = true → Gives (.bellTimeout id) s (fun t =>
        ended t 0x1006 f.since (1000 * f.timeoutUs) ∧ (∀ x ∈ t.blk.streams.bells, id ∉ x.arrivals) ∧ OdOnly s t [])) ∧
      (f.opcode = opWait → f.stage = .running → Gives (.waitTimeout id) s (fun t =>
        ended t 0x1006 f.since (1000 * f.timeoutUs) ∧ OdOnly s t [])) ∧
      (f.opcode = opFence → s.blk.snapshotOpen f = true → Gives (.fenceTimeout id) s (fun t =>
        ended t 0x1006 f.start (1000 * f.timeoutUs) ∧ t.blk.od' 0x2506 6 = add64 (s.blk.od' 0x2506 6) 1 ∧
          OdOnly s t [(0x2506, 6)]))) ∧
    (∀ q c, s.blk.waitingClaim id q = some c →
      (c.leaves = true ∨ ∀ g ∈ s.blk.flows, g.id ≠ id → s.blk.holdsSatchel q g = true → s.blk.idle g = false) →
      Gives (.stallCycle id q) s (fun t => ended t 0x0501 c.since 100000 ∧
        t.blk.od' 0x2603 2 = add64 (s.blk.od' 0x2603 2) 1 ∧ OdOnly s t [(0x2603, 2)] ∧
        ∀ x ∈ t.blk.streams.claims, (x.tile.map (·.flow)) ≠ some id))

/-! ### Synchronisation and ordering commands -/

/-- BELL, SIGNAL and WAIT without ACQUIRE (R386 to R390, R399). A BELL arrives; the round that reaches its PARTIES
rings: every command that arrived is done, and the bell counts. A SIGNAL changes its word in one step and is done, and
so is every WAIT on the word whose comparison now holds; with RELEASE it does so once the earlier commands of its queue
have completed. A WAIT is done when its comparison holds, and stays otherwise. -/
def Obligations.BellsAndSignals : Prop :=
  ∀ (s : State) (id : Nat) (b : Block) (f : Flow), Settled s → f.acquires = false →
    let closed (t : State) (i : Nat) : Prop := ∃ g, t.blk.flow? i = some g ∧ g.stage = .closing
    (Begun s (isOp opBell) id b f → f.formed ≠ 1 → f.arrived = false →
      (∀ x, s.blk.bell? f.blNo = some x → x.arrivals.length + 1 < x.parties → Gives (.bell id) s (fun t =>
        t.blk.bell? f.blNo = some { x with arrivals := x.arrivals ++ [id] } ∧
        (∃ g, t.blk.flow? id = some g ∧ g.stage = f.stage ∧ g.arrived = true ∧ g.since = s.blk.time) ∧
        t.blk.od' 0x2603 5 = add64 (s.blk.od' 0x2603 5) (b2n (f.blParties != x.parties)) ∧ t.mem = s.mem ∧
        OdOnly s t [(0x2603, 5)])) ∧
      (∀ x, s.blk.bell? f.blNo = some x → x.parties ≤ x.arrivals.length + 1 →
        (∀ i ∈ x.arrivals, ∃ g, s.blk.flow? i = some g ∧ g.stream = none ∧ g.acquires = false) →
        Gives (.bell id) s (fun t => t.blk.bell? f.blNo = none ∧ (∀ i ∈ x.arrivals ++ [id], closed t i) ∧
          t.blk.od' 0x2603 4 = add64 (s.blk.od' 0x2603 4) 1 ∧ t.mem = s.mem ∧
          OdOnly s t [(0x2603, 4), (0x2603, 5)])) ∧
      (s.blk.bell? f.blNo = none → 1 < f.blParties → Gives (.bell id) s (fun t =>
        t.blk.bell? f.blNo = some { number := f.blNo, parties := f.blParties, arrivals := [id] } ∧
        (∃ g, t.blk.flow? id = some g ∧ g.stage = f.stage ∧ g.arrived = true ∧ g.since = s.blk.time) ∧ t.mem = s.mem ∧
        OdOnly s t [])) ∧
      (s.blk.bell? f.blNo = none → f.blParties ≤ 1 → Gives (.bell id) s (fun t =>
        t.blk.bell? f.blNo = none ∧ closed t id ∧ t.blk.od' 0x2603 4 = add64 (s.blk.od' 0x2603 4) 1 ∧ t.mem = s.mem ∧
        OdOnly s t [(0x2603, 4)]))) ∧
    (Begun s (isOp opSignal) id b f →
      let old := s.blk.signalWord f.sgNo
      let v := (match f.sgOp with
        | 0 => old + f.sgValue
        | 1 => f.sgValue
        | _ => max old f.sgValue) % 2 ^ 64
      (s.blk.effectsHeld f = true → Ends (.signal id) s (b.wentOn id)) ∧
      (s.blk.effectsHeld f = false → Gives (.signal id) s (fun t => t.blk.signalWord f.sgNo = v ∧ closed t id ∧ t.mem = s.mem ∧
        OdOnly s t [(0x2610 + f.sgNo / 256, f.sgNo % 256)] ∧
        ∀ i g, i ≠ id → s.blk.flow? i = some g → Block.waitsFor g f.sgNo = true → g.acquires = false →
          ((g.sgOp = 0 ∧ g.sgValue ≤ v) ∨ (g.sgOp = 1 ∧ v = g.sgValue) ∨ (g.sgOp = 2 ∧ v ≠ g.sgValue)) → closed t i))) ∧
    (Begun s (isOp opWait) id b f → f.formed ≠ 1 →
      (s.blk.waitHolds f = true → Gives (.wait id) s (fun t => closed t id ∧ t.mem = s.mem ∧ OdOnly s t [])) ∧
      (s.blk.waitHolds f = false → Gives (.wait id) s (fun t =>
        t.blk.flow? id = some { f with waitsOn := none } ∧ t.mem = s.mem ∧ OdOnly s t [])))

/-- NOP, FENCE, FLUSH and ACQUIRE, the first three without ACQUIRE (R142, R399 to R408). A NOP is done at once, a FENCE
once every flow of its snapshot has completed. A FLUSH without INVALIDATE has each dirty line of its range written back,
for which it answers, and keeps the lines. An ACQUIRE, with no blackboard line held, leaves no line of its ranges in
the row cache, and later commands use no panel slot that holds such data. Both are said for lines without bit errors. -/
def Obligations.FencesAndFlushes : Prop :=
  ∀ (s : State) (id : Nat) (b : Block) (f : Flow), Settled s →
    let closed (t : State) : Prop := ∃ g, t.blk.flow? id = some g ∧ g.stage = .closing
    (Begun s (isOp opNop) id b f → f.acquires = false →
      Ends (.nop id) s ((b.close id).wentOn id) ∧ Gives (.nop id) s (fun t => closed t ∧ t.mem = s.mem ∧ OdOnly s t [])) ∧
    (Begun s (isOp opFence) id b f → f.acquires = false →
      (b.snapshotOpen f = false → Ends (.fence id) s ((b.close id).wentOn id)) ∧
      (b.snapshotOpen f = true → Ends (.fence id) s (b.wentOn id))) ∧
    (Begun s (isOp opFlush) id b f → f.acquires = false → f.flInvalidate = false →
      (∀ l ∈ s.blk.cache.lines, l.err = 0) →
      let r := if f.flAll then none else some (f.flBase, f.flPages)
      Gives (.flush id) s (fun t => closed t ∧ t.mem = s.mem ∧
        OdOnly s t [(0x2506, 2), (0x2506, 3), (0x2506, 4)] ∧ t.blk.cache.lines.length = s.blk.cache.lines.length ∧
        (∀ l ∈ s.blk.cache.lines, l.dirty = true → Block.inPages r l = true →
          ∃ q ∈ t.blk.agents.queue, q.op = .writeBack l.addr l.data false ∧ q.flow = some id) ∧
        (s.blk.cache.lines.Pairwise (fun x y => x.same y = false) →
          ∀ l ∈ t.blk.cache.lines, l.dirty = true → Block.inPages r l = false))) ∧
    (Begun s (isOp opAcquire) id b f → (∀ l ∈ s.blk.cache.lines, l.bb = false ∧ l.err = 0) →
      let rs := if f.aqAll then [none] else (((List.range 3).map f.aqRange).filter (fun r => r.2 != 0)).map some
      Gives (.acquire id) s (fun t => closed t ∧ t.mem = s.mem ∧
        (∀ r ∈ rs, (∀ l ∈ t.blk.cache.lines, Block.inPages r l = false) ∧
          ∀ x ∈ t.blk.north.slots ++ t.blk.south.slots, Block.sliceTouches x r = true → x.stale = true) ∧
        t.blk.od' 0x2506 1 = add64 (s.blk.od' 0x2506 1) 1))

/-! ### Commands that move and compute -/

/-- A COPY, SCATTER_ADD, ROW_UPDATE_OPT, ROW_COMMIT, QUANTISE, CALIBRATE or BLACKBOARD_LOAD that its stream unit may not
work on yet changes nothing (R130, R139, R383). Else its work issues what the command does: nothing is written in the
step itself, every write and row operation is asked of the owner of its address (R325, R398), and the command then only
awaits their performance. A SCATTER_ADD, ROW_UPDATE_OPT or ROW_COMMIT whose next read waits for its own row operations,
and a QUANTISE whose next row waits for a read or the quantiser, go on from there in a later step (R99, R303, R326); a
load ends once every peer has answered (R58). -/
def Obligations.CommandsIssueTheirWork : Prop :=
  ∀ (s : State) (id op : Nat) (c : Instr) (work : Memory → Block → Flow → Block), Settled s →
    ((c = .copy id ∧ op = opCopy ∧ work = Block.copyWork) ∨ (c = .scatterAdd id ∧ op = opScatterAdd ∧ work = Block.scatterWork) ∨
     (c = .rowUpdateOpt id ∧ op = opRowUpdate ∧ work = Block.scatterWork) ∨
     (c = .rowCommit id ∧ op = opRowCommit ∧ work = Block.commitWork) ∨
     (c = .quantise id ∧ op = opQuantise ∧ work = Block.quantiseWork) ∨
     (c = .calibrate id ∧ op = opCalibrate ∧ work = Block.calibrateWork) ∨
     (c = .blackboardLoad id ∧ op = opBlackboard ∧ work = Block.boardWork)) →
    (s.blk.startable id (isOp op) = none → exec c s = .next s) ∧
    (∀ b f, Begun s (isOp op) id b f → f.stage = .running → f.cut = false → GoesOn s (work s.mem b f) f →
      (op = opBlackboard → b.loadAhead f = false) → (op = opScatterAdd ∨ op = opRowUpdate ∨ op = opRowCommit → 0 < f.trCount) →
      Works c s (fun b' => b'.posted = [] ∧
        ∃ g, b'.flow? id = some g ∧ (op = opCopy ∨ op = opCalibrate → g.stage = .closing) ∧
          (op = opQuantise → g.stage = .closing ∨ f.taken < g.taken) ∧
          (op = opScatterAdd ∨ op = opRowUpdate ∨ op = opRowCommit → g.stage = .closing ∨
            (g.positions.length, g.formed, g.taken) ≠ (f.positions.length, f.formed, f.taken)) ∧
          (op = opBlackboard → (∀ x ∈ g.rows, (copyNow g x).isSome = true) → g.stage = .closing)))

/-- A COPY of one run of inline bytes, without CRC (R197, R198, R320, R325, R399): it asks each owner of a 4 KiB unit of
the destination to write the bytes that fall there, in address order, the requests being held back while RELEASE holds
its effects, and then awaits those writes; memory, the dictionary but for the acquire that a beginning with ACQUIRE
counts, and every other command stay as they are. -/
def Obligations.InlineCopyAsksForItsWrites : Prop :=
  ∀ (s : State) (id : Nat) (b : Block) (f : Flow), Settled s → Begun s (isOp opCopy) id b f → f.stage = .running →
    f.cpInline = true → f.cpRows = 1 → f.cpDstCrc = false →
    let rs : List AgentReq := (cutPages f.cpDst f.cpLength).map (fun p =>
      { port := agentOf p.1, flow := some id, remote := none,
        op := .blockWrite p.1 (slice (slice f.inline 0 f.cpLength) (p.1 - f.cpDst) p.2) none })
    Gives (.copy id) s (fun t =>
      (s.blk.effectsHeld f = false → t.blk.agents.queue = s.blk.agents.queue ++ rs ∧ t.blk.heldBack = []) ∧
      (s.blk.effectsHeld f = true → t.blk.agents.queue = s.blk.agents.queue ∧ t.blk.heldBack = rs) ∧
      t.blk.flow? id = some { f with stage := .closing, waitsOn := none } ∧
      (∀ k, k ≠ id → t.blk.flow? k = s.blk.flow? k) ∧ t.mem = s.mem ∧ OdOnly s t [(0x2506, 1)])

/-- GATHER_POOL, GATHER_RAW, PROJECT, VEC_CHAIN and RECALL on their stream unit (R158 to R176, R206 to R227, R243 to
R252, R281): a command that may not work yet changes nothing. Else it gives its wing passes and blocks, each counted
once, writes nothing, and with its last one gives up its stream unit, or, for VERBATIM, awaits its writes. A RECALL
first reads its desk and queries, and is refused with BAD_DESK where the desk's descriptor is poisoned; after its
results and its tiles it appends, where it is told to and its source is sound, and is then done. -/
def Obligations.CommandsFeedTheirWing : Prop :=
  (∀ (s : State) (id op : Nat) (c : Instr) (work : Memory → Block → Flow → Block), Settled s →
    ((c = .gatherPool id ∧ op = opGatherPool ∧ work = Block.gatherWork) ∨
     (c = .gatherRaw id ∧ op = opGatherRaw ∧ work = Block.gatherWork) ∨
     (c = .project id ∧ op = opProject ∧ work = Block.projectWork) ∨
     (c = .vecChain id ∧ op = opVecChain ∧ work = Block.vecWork)) →
    (s.blk.startable id (isOp op) = none → exec c s = .next s) ∧
    (∀ b f, Begun s (isOp op) id b f → f.stage = .running → GoesOn s (work s.mem b f) f → Works c s (fun b' =>
      b'.posted = [] ∧ ∃ g, b'.flow? id = some g ∧ f.formed ≤ g.formed ∧
        (let e := s.blk.engine (Block.wingOf f.su)
         let e' := b'.engine (Block.wingOf f.su)
         (c = .project id ∨ c = .vecChain id ∨ f.gVerbatim = false) →
          e'.ready.length + e'.feed.length = e.ready.length + e.feed.length + (g.formed - f.formed)) ∧
        (c = .project id → g.stage = if f.pjRows * f.pjCols ≤ g.formed then .built else .running) ∧
        (c = .vecChain id → g.stage = if f.vcTiles ≤ g.formed then .built else .running) ∧
        (c = .gatherPool id ∨ c = .gatherRaw id → g.stage = if f.gCount ≤ g.taken ∧ g.groups ≤ g.groupsGiven then
          (if f.gVerbatim then .closing else .built) else .running)))) ∧
  (∀ (s : State) (id : Nat), Settled s →
    (s.blk.startable id (isOp opRecall) = none → exec (.recall id) s = .next s) ∧
    (∀ b f, Begun s (isOp opRecall) id b f → f.cut = false → GoesOn s (Block.recallWork s.mem b f) f →
      (f.search = none → Works (.recall id) s (fun b' => b'.posted = [] ∧ ∃ g, b'.flow? id = some g ∧
        ((Block.cachedRead s.mem b id f.rcDeskAddr 32 f.acquires).2.1 = false →
          ∃ w, g.search = some w ∧ w.queries.length = f.rcNq) ∧
        ((Block.cachedRead s.mem b id f.rcDeskAddr 32 f.acquires).2.1 = true →
          g.stage = .closing ∧ stBadDesk ∈ g.statuses))) ∧
      (∀ w, f.search = some w → w.slots.length ≤ w.given →
        (w.phase = 2 → b.writesWait id = false → b.tileOpen id = false →
          ((f.rcAppend = false ∨ w.appendBad = true) → Ends (.recall id) s ((b.close id).wentOn id)) ∧
          (f.rcAppend = true → w.appendBad = false →
            let r : AgentReq := { port := agentOf f.rcDeskAddr, flow := some id,
                                  op := .append f.rcDeskAddr w.newKey w.newValue false, remote := none }
            Gives (.recall id) s (fun t =>
              (s.blk.effectsHeld f = false → t.blk.agents.queue = s.blk.agents.queue ++ [r] ∧ t.blk.heldBack = []) ∧
              (s.blk.effectsHeld f = true → t.blk.agents.queue = s.blk.agents.queue ∧ t.blk.heldBack = [r]) ∧
              t.blk.flow? id = some { f with search := some { w with phase := 3 }, waitsOn := none } ∧ t.mem = s.mem ∧
              OdOnly s t [(0x2303, 8), (0x2506, 1)]))) ∧
        (w.phase = 4 → f.rcResult = 0 → Ends (.recall id) s ((b.close id).wentOn id)))))

/-! ### Seryo ports -/

/-- Ports come up and go down (R419, R424, R425, R440). A DOWN port with lane lock, in STARTING from step 8 or in
READY, enters TRAINING and sends a HELLO; another port does not. A HELLO that names this package isolates its port;
one of a package not yet present names the neighbour, and with its own HELLO acknowledged the port is UP. Lost lock,
10 ms without a HELLO, 1 µs without a good flit, 16 µs without progress of ACK_SEQ and a GOODBYE take a port DOWN.
That the command moves the timebase to the end of its wait is log 2. -/
def Obligations.PortsComeUpAndGoDown : Prop :=
  ∀ (s : State) (n : Nat) (x : Flit), Settled s → n < 32 →
    (s.blk.mayTrain = true → s.blk.portState n = 1 → Works (.laneLock n) s (fun b =>
      b.portState n = 2 ∧ (b.port n).sent = (s.blk.port n).sent ∧ ∃ f, (b.port n).lane = [f] ∧ fl f 3 0 = 2 ∧
        fl f 103 96 = 1 ∧ fl f 109 104 = s.blk.package % 64)) ∧
    (s.blk.mayTrain = false ∨ s.blk.portState n ≠ 1 → Ends (.laneLock n) s s.blk) ∧
    (s.blk.portState n = 2 → (s.blk.port n).helloOk = false → flitGood x = true → fl x 3 0 = 2 → fl x 103 96 = 1 →
      (fl x 109 104 = s.blk.package → Works (.hello n x) s (fun b => b.portState n = 4)) ∧
      (fl x 109 104 ≠ s.blk.package → s.blk.peer? (fl x 109 104) = none → Works (.hello n x) s (fun b =>
        b.neighbour n = fl x 109 104 ∧ (b.port n).helloOk = true ∧
        b.portState n = if (s.blk.port n).acked = true ∨ fl x 48 48 = 1 then 3 else 2))) ∧
    (s.blk.portState n = 2 ∨ s.blk.portState n = 3 → Works (.lockLost n) s (fun b => b.portState n = 1)) ∧
    (s.blk.portState n = 2 → (s.blk.port n).helloOk = false → Works (.helloTimeout n) s (fun b =>
      b.portState n = 1 ∧ b.time = max s.blk.time ((s.blk.port n).trainAt + 10000000))) ∧
    (s.blk.portState n = 3 →
      Works (.portSilence n) s (fun b => b.portState n = 1 ∧ b.time = max s.blk.time ((s.blk.port n).goodAt + 1000)) ∧
      ((s.blk.port n).replay ≠ [] → Works (.ackProgressTimeout n) s (fun b =>
        b.portState n = 1 ∧ b.time = max s.blk.time ((s.blk.port n).ackAt + 16000))) ∧
      (flitGood x = true → fl x 3 0 = 2 → fl x 103 96 = 5 → Works (.goodbye n x) s (fun b => b.portState n = 1)))

/-- Flits on an UP port (R418 to R424). A DATA flit with the expected SEQ enters the receive buffer of its pool; one
with another SEQ, like a flit whose CRC fails, is discarded and makes one NAK until the expected one comes. A NAK has
the payloads of the flits from its EXPECT_SEQ on sent again, and the fourth in a row for one SEQ takes the port DOWN. An
ECHO is answered with its T1, an ECHO_REPLY gives the four times, an IDLE flit only says that the link lives. IDLE flits
follow where nothing else does. The flits of a pair are taken as it comes; a pair that could not be corrected is counted
and discarded; one whose frame word fails is lost alignment. -/
def Obligations.FlitsAreTakenInOrder : Prop :=
  ∀ (s : State) (n : Nat) (x : Flit), Settled s → n < 32 → s.blk.portState n = 3 →
    let p := s.blk.port n
    (flitGood x = true →
      (fl x 3 0 = 1 → fl x 31 16 = p.rxSeq → fl x 8 8 = 0 → Gives (.data n x) s (fun t =>
        (t.blk.port n).rx = p.rx ++ [(flitPool x, x)] ∧ (t.blk.port n).rxSeq = (p.rxSeq + 1) % 65536 ∧
        (t.blk.port n).naking = false ∧ (t.blk.port n).goodAt = s.blk.time ∧
        t.blk.od' 0x2704 2 = add64 (s.blk.od' 0x2704 2) 1 ∧ t.mem = s.mem ∧
        OdOnly s t [(0x2704, 1), (0x2704, 2)])) ∧
      (fl x 3 0 = 1 → fl x 31 16 ≠ p.rxSeq → p.naking = false → Gives (.data n x) s (fun t =>
        (t.blk.port n).rx = p.rx ∧ (t.blk.port n).rxSeq = p.rxSeq ∧ (t.blk.port n).naking = true ∧
        t.blk.od' 0x2704 3 = add64 (s.blk.od' 0x2704 3) 1 ∧ t.mem = s.mem ∧
        OdOnly s t [(0x2704, 1), (0x2704, 3)])) ∧
      (fl x 3 0 = 2 → fl x 103 96 = 2 → fl x 48 48 = 0 → p.txq = [] →
        (¬ (p.nakSeq = fl x 239 224 ∧ 3 ≤ p.nakRun) → s.blk.NoneLeaves → Gives (.nak n x) s (fun t =>
          (∃ fs idle, t.blk.onLanes n = s.blk.onLanes n ++ fs ++ idle ∧ (∀ f ∈ idle, fl f 3 0 = 0) ∧
            fs.map flitPayload = (p.replay.dropWhile (fun e => e.1 != fl x 239 224)).map (fun e => flitPayload e.2)) ∧
          (t.blk.port n).replay = p.replay ∧ (t.blk.port n).nakSeq = fl x 239 224 ∧ t.mem = s.mem ∧ OdOnly s t [])) ∧
        (p.nakSeq = fl x 239 224 → 3 ≤ p.nakRun → Works (.nak n x) s (fun b => b.portState n = 1))) ∧
      (fl x 3 0 = 2 → fl x 103 96 = 3 → p.txq = [] → Gives (.echo n x) s (fun t =>
        t.mem = s.mem ∧ OdOnly s t [] ∧
        ∃ f idle, t.blk.onLanes n = s.blk.onLanes n ++ f :: idle ∧ (∀ g ∈ idle, fl g 3 0 = 0) ∧ fl f 3 0 = 2 ∧
          fl f 103 96 = 4 ∧ fl f 303 240 = fl x 303 240)) ∧
      (fl x 3 0 = 2 → fl x 103 96 = 4 → Gives (.echoReply n x) s (fun t => t.mem = s.mem ∧
        OdOnly s t [(0x2704, 1)] ∧
        (t.blk.port n).echo = some (fl x 303 240, fl x 367 304, fl x 431 368, s.blk.time))) ∧
      (fl x 3 0 = 0 → Gives (.idle n x) s (fun t => t.mem = s.mem ∧ OdOnly s t [(0x2704, 1)] ∧
        (t.blk.port n).goodAt = s.blk.time ∧ (t.blk.port n).rx = p.rx ∧ (t.blk.port n).rxSeq = p.rxSeq))) ∧
    (flitGood x = false → fl x 3 0 = 1 → p.naking = false → Gives (.data n x) s (fun t =>
      (t.blk.port n).rx = p.rx ∧ (t.blk.port n).rxSeq = p.rxSeq ∧ (t.blk.port n).naking = true ∧
      t.blk.od' 0x2704 3 = add64 (s.blk.od' 0x2704 3) 1 ∧ t.mem = s.mem ∧ OdOnly s t [(0x2704, 3)])) ∧
    (∀ frame symbols flits,
      Works (.codewordPair n frame symbols false flits) s (fun b =>
        b.od' 0x2704 5 = add64 (s.blk.od' 0x2704 5) 1 ∧ b.od' 0x2704 4 = add64 (s.blk.od' 0x2704 4) symbols ∧
        (b.port n).rx = p.rx ∧ (b.port n).rxSeq = p.rxSeq) ∧
      (frameGood frame = true → flitGood x = true → fl x 3 0 = 1 → fl x 31 16 = p.rxSeq → fl x 8 8 = 0 →
        Works (.codewordPair n frame symbols true [x]) s (fun b =>
          b.od' 0x2704 4 = add64 (s.blk.od' 0x2704 4) symbols ∧ b.od' 0x2704 5 = s.blk.od' 0x2704 5 ∧
          (b.port n).rx = p.rx ++ [(flitPool x, x)] ∧ (b.port n).rxSeq = (p.rxSeq + 1) % 65536)) ∧
      (frameGood frame = false → Works (.codewordPair n frame symbols true flits) s (fun b => b.portState n = 1)))

/-- The transaction engine takes the oldest whole message of a pool of an UP port when it has the row's type and names
this package (R423, R426, R428, R438): its flits leave the receive buffer. From outside the sender's session it counts
as dropped. An answer reaches the flow that asked (R430 to R437); a GRANT_REQ that is granted waits with the producers
of its queue; a TILE with RETURN frees its satchel. -/
def Obligations.MessagesAreTaken : Prop :=
  ∀ (s : State) (n pool : Nat) (fs : List Flit), Settled s → s.blk.portUp n = true → firstMsg (s.blk.port n) pool = some fs →
    let msg := msgBytes fs
    let src := mg msg 13 8
    let txn := mg msg 63 32
    let rest := dropPool pool fs.length (s.blk.port n).rx
    mg msg 21 16 = s.blk.package →
    (∀ c, ((c = Instr.rowdata n pool ∧ mg msg 5 0 = 2) ∨ (c = .rack n pool ∧ mg msg 5 0 = 4) ∨
        (c = .grantReq n pool ∧ mg msg 5 0 = 5) ∨ (c = .grant n pool ∧ mg msg 5 0 = 6) ∨
        (c = .tile n pool ∧ mg msg 5 0 = 7) ∨ (c = .tileAck n pool ∧ mg msg 5 0 = 8) ∨
        (c = .route n pool ∧ mg msg 5 0 = 0x11) ∨
        (c = .rgather n pool ∧ mg msg 5 0 = 1 ∧
          (s.blk.onMsg n pool mtRgather (fun b src msg => Block.takeRgather s.mem b n src msg)).blocked = false) ∨
        (c = .radd n pool ∧ mg msg 5 0 = 3 ∧
          (s.blk.onMsg n pool mtRadd (fun b src msg => Block.takeRadd s.mem b n src msg)).blocked = false)) →
      Works c s (fun b => (b.port n).rx = rest) ∧
      (s.blk.admitted msg = false → (c = .route n pool → s.blk.NoneLeaves) → Gives c s (fun t => (t.blk.port n).rx = rest ∧
        t.blk.od' 0x2704 8 = add64 (s.blk.od' 0x2704 8) 1 ∧ t.mem = s.mem ∧ OdOnly s t [(0x2704, 8)]))) ∧
    (s.blk.admitted msg = true → ∀ f r, s.blk.flow? f.id = some f →
      let heard (b : Block) : Prop := ∃ g, b.flow? f.id = some g ∧
        ∃ x ∈ g.remote, x.peer = r.peer ∧ x.txn = r.txn ∧ x.kind = r.kind ∧ x.answered = true
      (mg msg 5 0 = 2 → s.blk.asker src txn 1 = some (f, r) → Works (.rowdata n pool) s heard) ∧
      (mg msg 5 0 = 4 → s.blk.asker src txn 3 = some (f, r) → Works (.rack n pool) s heard) ∧
      (mg msg 5 0 = 8 → s.blk.asker src txn 7 = some (f, r) → s.blk.rollRefuses src = false → Works (.tileAck n pool) s (fun b => heard b ∧
        ∃ g, b.flow? f.id = some g ∧ g.tilesDone = f.tilesDone + 1))) ∧
    (s.blk.admitted msg = true → ∀ q, s.blk.peer? src = some q → q.performed.find? (fun e => e.txn == txn) = none →
      s.blk.rollRefuses src = false →
      (mg msg 5 0 = 5 → s.blk.grantRefused (mg msg 151 128) (mg msg 159 152) (mg msg 178 160) = false →
        Works (.grantReq n pool) s (fun b => b.streams.claims = s.blk.streams.claims ++
          [{ queue := mg msg 151 128, tile := none, remote := some (src, txn, n, mg msg 207 192), since := s.blk.time }])) ∧
      (mg msg 5 0 = 7 → mg msg 159 159 = 1 → s.blk.grantedTo (mg msg 151 128) (mg msg 157 152) src (mg msg 175 160) = true →
        Works (.tile n pool) s (fun b => ∃ x, b.queue? (mg msg 151 128) = some x ∧
          x.sats[mg msg 157 152]? = some Satchel.empty)))

/-- Discovery, routes and forwarding (R438, R441 to R445). The first BEACON of a neighbour makes its package present; a
ROUTE takes lost routes from a present neighbour's and adds found ones. A message for another package goes on once, by
a direct route, where forwarding is on and it has not been forwarded and is of a type 0x01 to 0x08, and else counts as
dropped. Every UP port sends a BEACON at its interval, and an ECHO where it faces the followed neighbour. -/
def Obligations.DiscoveryAndForwarding : Prop :=
  (∀ (s : State) (n pool : Nat) (fs : List Flit), Settled s → n < 32 → s.blk.portUp n = true →
    firstMsg (s.blk.port n) pool = some fs →
    let msg := msgBytes fs
    let src := mg msg 13 8
    let dst := mg msg 21 16
    let rest := dropPool pool fs.length (s.blk.port n).rx
    (dst = s.blk.package → s.blk.neighbour n = src → src ≠ dst →
      (mg msg 5 0 = 0x10 → s.blk.peer? src = none → Works (.beacon n pool) s (fun b =>
        (b.port n).rx = rest ∧ ∃ q, b.peer? src = some q ∧ q.incarn = mg msg 95 64)) ∧
      (∀ q, mg msg 5 0 = 0x11 → s.blk.peer? src = some q → q.incarn = mg msg 95 64 → Works (.route n pool) s (fun b =>
        ∃ q', b.peer? src = some q' ∧ ∀ k, k < 64 →
          bit q'.neighbours k = (bit (mg msg 255 192) k || (bit q.neighbours k && !bit (mg msg 191 128) k))))) ∧
    (dst ≠ s.blk.package →
      let may := mg msg 22 22 = 0 ∧ s.blk.od' 0x2700 3 = 1 ∧ 1 ≤ mg msg 5 0 ∧ mg msg 5 0 ≤ 8
      (may → s.blk.directPorts dst ≠ [] → Gives (.forward n pool) s (fun t => (t.blk.port n).rx = rest ∧
        t.blk.od' 0x2704 7 = add64 (s.blk.od' 0x2704 7) 1 ∧ t.mem = s.mem ∧ OdOnly s t [(0x2704, 1), (0x2704, 7)])) ∧
      (¬ may ∨ s.blk.directPorts dst = [] → Gives (.forward n pool) s (fun t => (t.blk.port n).rx = rest ∧
        t.blk.od' 0x2704 8 = add64 (s.blk.od' 0x2704 8) 1 ∧ t.mem = s.mem ∧
        OdOnly s t [(0x2704, 1), (0x2704, 8)])))) ∧
  (∀ s : State, Settled s → Gives .beaconInterval s (fun t => t.mem = s.mem ∧ OdOnly s t [(0x2704, 1)]) ∧
    Works .beaconInterval s (fun b => ∀ n, n < 32 → (b.onLanes n).length + (b.port n).txq.length =
      (s.blk.onLanes n).length + (s.blk.port n).txq.length +
        (if s.blk.portUp n then 1 + b2n ((s.blk.followed.map (fun p => s.blk.neighbour n == p)).getD false) else 0)))

/-! ### Faults, the lease, power, heat, start-up, the host link -/

/-- What the fault collector does with a report (R500 to R505, R508, R511, R514, R517). A known class at a known unit
counts and takes the next number; a unit in detention reports nothing but a notice, and without core rail good there is
nothing to report (log 51); at level 0, with a free slot, the fault has an open record there and OD 0x2801.01 counts it;
at level 1 a channel agent enters detention, and at level 3 the engine is STOPPED with nothing in flight, unless it is
HALTED, which it then stays (the model's reading, log 51). A link that stalls is reported at its receiving unit, and a
lost wing bridge at the bridge. A wing whose return is due comes back with an empty engine and those of its stream units
that went into detention with it; one that was fenced on its own account stays as it was (log 34). While the bridge is
in detention the wing does not return. -/
def Obligations.FaultsAreGradedAndRecorded : Prop :=
  ∀ s : State, Settled s →
    (∀ cls u a d, (s.blk.powered = false ∨ classKnown cls = false ∨ unitKnown u = false ∨ (s.blk.fenced u = true ∧ noticeClass cls = false)) →
      Ends (.fault cls u a d) s s.blk) ∧
    (∀ cls u a d, s.blk.powered = true → classKnown cls = true → unitKnown u = true → (s.blk.fenced u = false ∨ noticeClass cls = true) →
      (s.blk.faultLevel cls u = 0 → s.blk.faults.lastNo + 1 < 2 ^ 32 → s.blk.openRecs.length < 64 →
        Works (.fault cls u a d) s (fun b => b.od' 0x2801 5 = add64 (s.blk.od' 0x2801 5) 1 ∧
          b.faults.lastNo = s.blk.faults.lastNo + 1 ∧ b.od' 0x2801 1 = s.blk.openRecs.length + 1 ∧
          ∃ k, k < 64 ∧ Block.recOpen (s.blk.slotRec k) = false ∧ Block.recOpen (b.slotRec k) = true ∧
            bits (b.slotRec k) 31 0 = s.blk.faults.lastNo + 1 ∧ bits (b.slotRec k) 39 32 = cls ∧
            bits (b.slotRec k) 41 40 = 0 ∧ bits (b.slotRec k) 63 48 = u)) ∧
      (s.blk.faultLevel cls u = 1 → isAgent u = true → Works (.fault cls u a d) s (fun b =>
        b.od' 0x2801 5 = add64 (s.blk.od' 0x2801 5) 1 ∧ b.agentUp (u - 0x100) = false)) ∧
      (s.blk.faultLevel cls u = 3 → s.blk.engineState ≠ 4 →
        Works (.fault cls u a d) s (fun b => b.engineState = 3 ∧ b.flows = [])) ∧
      (s.blk.faultLevel cls u = 3 → s.blk.engineState = 4 → Works (.fault cls u a d) s (fun b => b.engineState = 4))) ∧
    (∀ island, s.blk.powered = true → unitKnown (islandUnit island) = true →
      Works (.islandStall island) s (fun b => b = { s.blk with raised := [(8, islandUnit island, 0, false)] })) ∧
    (s.blk.powered = true → Works .bridgeDown s (fun b => b = { s.blk with raised := [(9, 0x500, 0, false)] })) ∧
    (s.blk.powered = false → Ends .bridgeDown s s.blk ∧ ∀ island, Ends (.islandStall island) s s.blk) ∧
    (∀ w, (s.blk.faults.returning.contains (Block.wingNo w) = true → s.blk.faults.bridgeFenced = false →
        Works (.wingReturn w) s (fun b => b.wingFenced w = false ∧ b.engine w = WingEngine.empty ∧
          (∀ su, su < 32 → b.suFenced su =
            (s.blk.suFenced su && (Block.wingOf su != w || s.blk.faults.ownFence.contains su))) ∧
          b.faults.returning = s.blk.faults.returning.filter (· != Block.wingNo w))) ∧
      (s.blk.faults.returning.contains (Block.wingNo w) = false ∨ s.blk.faults.bridgeFenced = true →
        Ends (.wingReturn w) s s.blk))

/-- An open record of level 0 is closed by the collector once OD 0x2801.02 µs have gone by (R507): its OPEN bit falls,
one open record fewer is shown, and nothing else of the dictionary or of memory changes. With 0 there, or at a higher
level, it stays. After reset the entry holds 1,000. That the command moves the timebase to the end of its wait is log
2. -/
def Obligations.LevelZeroRecordsCloseThemselves : Prop :=
  State.reset.blk.od' 0x2801 2 = 1000 ∧ ∀ (s : State) (k : Nat), Settled s → k < 64 → Block.recOpen (s.blk.slotRec k) = true →
    (s.blk.od' 0x2801 2 ≠ 0 → bits (s.blk.slotRec k) 41 40 = 0 → Gives (.autoAck k) s (fun t =>
      t.blk.slotRec k + 2 ^ 44 = s.blk.slotRec k ∧ Block.recOpen (t.blk.slotRec k) = false ∧
      t.blk.od' 0x2801 1 + 1 = s.blk.openRecs.length ∧
      t.blk.time = max s.blk.time (mapGet s.blk.faults.opened 0 k + 1000 * s.blk.od' 0x2801 2) ∧ t.mem = s.mem ∧
      OdOnly s t [(0x2810, k), (0x2801, 1)])) ∧
    (s.blk.od' 0x2801 2 = 0 ∨ bits (s.blk.slotRec k) 41 40 ≠ 0 → Ends (.autoAck k) s s.blk)

/-- The lease (R515, R516), while it runs and no injection is armed. The holder's renewal is accepted and confirmed to
the follower. A lapse is kept until the follower claims; a lapse and a claim together move the token to the follower,
raise the epoch and are reported as LEASE against the wing that had it; without a follower the holder keeps it. A
claim against a current lease is a conflict: the higher epoch keeps the token, North on a tie, and the loser is
reported. That the command moves the timebase to the end of its wait is log 2. -/
def Obligations.LeaseMovesTheToken : Prop :=
  ∀ s : State, Settled s → s.blk.leaseRuns = true → s.blk.faults.injections = [] →
    let b0 := s.blk
    let lapseAt := max b0.time (b0.faults.renewed + 14000)
    let claimAt := max b0.time (b0.faults.confirmed + 14000)
    let moved (t : Nat) (b : Block) : Prop := b.time = t ∧ b.holderWing = b0.follower ∧
      b.od' 0x2803 2 = add64 (b0.od' 0x2803 2) 1 ∧ b.faults.renewed = t ∧ b.faults.claim = false ∧
      (0x0B, 0x20 + Block.wingNo b0.holderWing, 0, false) ∈ b.raised
    (b0.wingUp b0.holderWing = true → b0.faults.claim = false → Gives .leaseRenewal s (fun t =>
      t.blk.faults.renewed = b0.time ∧ t.blk.faults.lapsed = false ∧ t.mem = s.mem ∧ OdOnly s t [] ∧
      (b0.followerUp = true → b0.faults.bridgeFenced = false → t.blk.faults.confirmed = b0.time ∧
        t.blk.wingEpoch b0.follower = b0.od' 0x2803 2))) ∧
    (b0.followerUp = true → b0.faults.claim = false → Gives .leaseLapse s (fun t =>
      t.blk.faults.lapsed = true ∧ t.blk.time = lapseAt ∧ t.mem = s.mem ∧ OdOnly s t [])) ∧
    (b0.followerUp = true → b0.faults.claim = true → Works .leaseLapse s (moved lapseAt)) ∧
    (b0.followerUp = false → b0.faults.lapsed = false → Works .leaseLapse s (fun b =>
      b.raised = [(0x0B, 0x20 + Block.wingNo b0.holderWing, 0, false)] ∧ b.od = b0.od)) ∧
    (b0.followerUp = true → b0.faults.renewed + 14000 ≤ claimAt →
      (b0.faults.lapsed = true → Works .tokenClaim s (moved claimAt)) ∧
      (b0.faults.lapsed = false → Gives .tokenClaim s (fun t =>
        t.blk.faults.claim = true ∧ t.blk.time = claimAt ∧ t.mem = s.mem ∧ OdOnly s t []))) ∧
    (b0.followerUp = true → claimAt < b0.faults.renewed + 14000 → Works .tokenClaim s (fun b =>
      let winner := if b0.faults.epochNorth < b0.faults.epochSouth then Wing.south else Wing.north
      b.holderWing = winner ∧ b.od' 0x2803 2 = add64 (b0.od' 0x2803 2) 1 ∧
      b.od' 0x2803 4 = add64 (b0.od' 0x2803 4) 1 ∧
      (0x0B, 0x20 + Block.wingNo (otherWing winner), 0, false) ∈ b.raised))

/-- Hall passes, voltage and heat (R344, R530 to R532, R535 to R539), with core rail good. A fresher GRANT or REVOKE is
acknowledged and waits for the next window, which puts it into force; a wing that must not hold a pass gives it back
there, and an idle one gives it back by itself. An unanswered REQUEST is repeated. A voltage and rates are shown where
R535 says; the rates only while telemetry samples (the model's reading, log 63). A stack's state rises with the
thresholds reached and falls only through states left below their threshold by more than the hysteresis. Junction
readings are shown; a wing trips exactly when one of its islands or a shared one reads 110 or more; a failed sensor
makes its wing SEVERE. That the command moves the timebase to the end of its wait is log 2. -/
def Obligations.PowerAndHeatAreHeld : Prop :=
  ∀ s : State, Settled s → s.blk.powered = true →
    (∀ w watts n, let p := s.blk.wingPower w
      (fresherSeq s.blk.power.seq n = false → Ends (.powerGrant w watts n) s s.blk ∧ Ends (.revoke w watts n) s s.blk) ∧
      (fresherSeq s.blk.power.seq n = true →
        Gives (.powerGrant w watts n) s (fun t => t.blk.power.seq = some n ∧
          t.blk.power.out = s.blk.power.out ++ [.ack n] ∧
          t.blk.wingPower w = { p with next := some watts, asked := none, silent := false } ∧
          t.blk.wingPower (otherWing w) = s.blk.wingPower (otherWing w) ∧ t.mem = s.mem ∧ OdOnly s t []) ∧
        Works (.revoke w watts n) s (fun b => b.power.seq = some n ∧ b.power.out = s.blk.power.out ++ [.ack n] ∧
          b.wingPower w = { p with next := some (min (p.next.getD (s.blk.pass w)) watts) } ∧
          b.od' 0x2900 6 = add64 (s.blk.od' 0x2900 6) 1))) ∧
    Gives .hallPassWindow s (fun t => t.mem = s.mem ∧ OdOnly s t [(0x2900, 1), (0x2900, 2)] ∧
      ∀ w, (t.blk.wingPower w).next = none ∧ (t.blk.wingPower w).steps = t.blk.windowSteps w ∧
        t.blk.pass w = if s.blk.wingUp w = true ∧ s.blk.engineState ≠ 3 ∧ s.blk.engineState ≠ 5 then
          (s.blk.wingPower w).next.getD (s.blk.pass w) else 0) ∧
    (∀ w, s.blk.pass w ≠ 0 → (s.blk.engine w).current = none → (s.blk.engine w).ready = [] →
      Gives (.hallReturn w) s (fun t => t.blk.pass w = 0 ∧
        t.blk.power.out = s.blk.power.out ++ [.giveBack (w == .south)] ∧ t.mem = s.mem ∧
        OdOnly s t [(0x2900, 1 + Block.wingNo w)])) ∧
    (∀ w q t0, (s.blk.wingPower w).asked = some (q, t0) → Works (.passSilent w) s (fun b =>
      b.time = max s.blk.time (t0 + 100000) ∧ (b.wingPower w).silent = true ∧
      (b.wingPower w).asked = some (s.blk.need w, b.time) ∧
      b.power.out = s.blk.power.out ++ [.request (w == .south) (s.blk.need w)])) ∧
    (∀ mv, Gives (.voltageChange mv) s (fun t => t.blk.od' 0x2901 1 = mv ∧ t.mem = s.mem ∧ OdOnly s t [(0x2901, 1)])) ∧
    (∀ n k, Gives (.stepRateMeasure n k) s (fun t => t.blk.power.north.rate = n ∧ t.blk.power.south.rate = k ∧
      t.mem = s.mem ∧ (s.blk.samples = false → OdOnly s t []) ∧
      (s.blk.samples = true → t.blk.od' 0x2901 2 = n ∧ t.blk.od' 0x2901 3 = k ∧ OdOnly s t [(0x2901, 2), (0x2901, 3)]))) ∧
    (∀ (temps : List Nat) (k temp : Nat), s.blk.engineState ≠ 4 → s.blk.od' 0x2500 2 ≤ 8 → k < s.blk.od' 0x2500 2 →
      temps[k]? = some temp → s.blk.od' 0x2501 1 ≤ s.blk.od' 0x2501 2 → s.blk.od' 0x2501 2 ≤ s.blk.od' 0x2501 3 →
      s.blk.od' 0x2502 (0x11 + k) ≤ 3 → Works (.stackTemperatureRead temps) s (fun b =>
        let old := s.blk.od' 0x2502 (0x11 + k)
        let new := b.od' 0x2502 (0x11 + k)
        b.od' 0x2502 (k + 1) = temp ∧ new ≤ 3 ∧
        (∀ i, 1 ≤ i → i ≤ 3 → s.blk.od' 0x2501 i ≤ temp → i ≤ new) ∧
        (∀ i, old < i → i ≤ new → s.blk.od' 0x2501 i ≤ temp) ∧
        (∀ i, new < i → i ≤ old → temp + s.blk.od' 0x2501 4 < s.blk.od' 0x2501 i) ∧
        (1 ≤ new → new ≤ old → s.blk.od' 0x2501 new ≤ temp + s.blk.od' 0x2501 4))) ∧
    (∀ temps : List Nat, Works (.junctionRead temps) s (fun b =>
      (∀ i, i ∈ b.power.failed ↔ i ∈ s.blk.power.failed ∧ (18 ≤ i ∨ temps.length ≤ i)) ∧
      (∀ i, i < 18 → b.od' 0x2902 (i + 1) = temps.getD i (s.blk.od' 0x2902 (i + 1))) ∧
      ∀ w, s.blk.wingEnabled w = true → ((0x40, 0x20 + Block.wingNo w, 0, false) ∈ b.raised ↔
        ∃ i, i < 18 ∧ (islandDomain i = Block.wingNo w ∨ islandDomain i = 2) ∧ 110 ≤ b.od' 0x2902 (i + 1)))) ∧
    (∀ i, i < 12 → s.blk.power.failed.contains i = false → Works (.sensorFail i) s (fun b =>
      b.power.failed = s.blk.power.failed ++ [i] ∧ 3 ≤ b.od' 0x2902 (0x21 + islandDomain i) ∧
      (0x42, 0x20 + islandDomain i, 0, false) ∈ b.raised)) ∧
    Works .railLow s (fun b => ∃ u, (0x41, u, 0, false) ∈ b.raised)

/-- Start-up and training (R347 to R349, R477 to R482, R536). Core rail good begins a cold start with every entry as
after reset; its withdrawal loses all state and the tiers, and the timebase runs on. A missing or invalid record, or one
without a wing, halts with its cause; a valid one sets wings, agents, identity and the token, and opens the ports. With
the last of the row cache, training and the timebase done and no hold set, the engine is READY. A stack in retrain,
which may begin wherever the tiers take requests, holds them, and after 1 ms none is left (where no control word waits,
which a stack's return may let go on). That the command moves the timebase to the end of its wait is log 2. -/
def Obligations.StartUpReachesReady : Prop :=
  ∀ s : State, Settled s →
    let u := s.blk.startUp
    let open' := s.blk.engineState = 1 ∧ u.step = 8
    let isReady (b : Block) : Prop := b.engineState = 2 ∧ b.startUp.step = 11 ∧ b.od' 0x1000 0x0D = 0 ∧ b.od' 0x2702 3 = 0
    let anew (t : State) : Prop := t.blk.flows = [] ∧ t.blk.rings = [] ∧ t.blk.cache.lines = [] ∧ t.blk.time = s.blk.time ∧
      ∀ i j, j < 256 → t.blk.od' i j = State.reset.blk.od' i j
    (s.blk.powered = true → Ends .coreRailGood s s.blk) ∧
    (s.blk.powered = false → Gives .coreRailGood s (fun t => t.blk.startUp.step = 2 ∧ anew t ∧ t.mem = s.mem)) ∧
    Gives .coreRailGoodWithdrawn s (fun t => t.blk.startUp.step = 0 ∧ anew t ∧
      ∀ a, memByte t.mem a = if inTier a then 0 else memByte s.mem a) ∧
    (∀ identity silicon (v : Verdict), s.blk.engineState = 1 → u.step = 2 →
      (∀ cause, (v = .noRecord ∧ cause = 1) ∨ (v = .invalid ∧ cause = 2) ∨ (∃ r, v = .valid r ∧ r.wings % 4 = 0 ∧ cause = 3) →
        Works (.configurationRecord identity silicon v) s (fun b => b.engineState = 4 ∧ b.od' 0x1000 0x0D = cause ∧
          ∀ n, n < 32 → b.portState n = 0)) ∧
      (∀ r, v = .valid r → r.wings % 4 ≠ 0 → u.cacheReady = false →
        Works (.configurationRecord identity silicon v) s (fun b => b.engineState = 1 ∧ b.startUp.step = 8 ∧
          b.od' 0x1000 9 = r.wings % 4 ∧ (∀ k, k < 5 → b.od' 0x1000 (0x10 + k) = bits r.agents (64 * k + 63) (64 * k)) ∧
          b.od' 0x1000 7 = identity % 2 ^ 64 ∧ b.od' 0x1000 4 = silicon % 2 ^ 16 ∧ b.od' 0x2803 2 = 1 ∧
          b.od' 0x2803 1 = (if r.wings % 2 = 1 then 0 else 1) ∧ b.od' 0x2700 4 ≠ 0))) ∧
    (open' → u.cacheReady = false →
      (u.trained = true → u.timebaseSet = true → s.blk.od' 0x2000 9 = 0 → Works .rowCacheInitialised s isReady) ∧
      (u.trained = false ∨ u.timebaseSet = false ∨ s.blk.od' 0x2000 9 ≠ 0 → Gives .rowCacheInitialised s (fun t =>
        t.blk.startUp = { u with cacheReady := true } ∧ t.blk.cache.lines = [] ∧ t.mem = s.mem ∧ OdOnly s t []))) ∧
    (open' → u.timebaseSet = false →
      (u.trained = true → u.cacheReady = true → s.blk.od' 0x2000 9 = 0 → Works .timebaseWaitExpiry s isReady) ∧
      (u.trained = false ∨ u.cacheReady = false ∨ s.blk.od' 0x2000 9 ≠ 0 → Gives .timebaseWaitExpiry s (fun t =>
        t.blk.startUp = { u with timebaseSet := true } ∧ t.blk.time = max s.blk.time (u.portsAt + 12000000) ∧
        t.mem = s.mem ∧ OdOnly s t []))) ∧
    (∀ (repaired mask : List Nat) (bulk : Nat), s.blk.od' 0x2500 2 ≤ 8 →
      (open' → u.trained = false → Works (.tierTrainingDone repaired mask bulk) s (fun b => b.startUp.trained = true ∧
        (∀ k, k < s.blk.od' 0x2500 2 → b.od' 0x2505 (k + 1) = repaired.getD k 0 % 256 ∧
          b.od' 0x2505 (0x11 + k) = mask.getD k 0) ∧
        b.od' 0x2505 0x21 = bulk % 2 ^ s.blk.od' 0x2500 4 ∧
        (u.timebaseSet = true → u.cacheReady = true → s.blk.od' 0x2000 9 = 0 → isReady b))) ∧
      (s.blk.tiersRun = true → Works (.tierTrainingDone repaired mask bulk) s (fun b => s.blk.words = [] →
        b.agents.retrains = []))) ∧
    (∀ k, s.blk.tiersRun = true → k < s.blk.od' 0x2500 2 → (∀ r ∈ s.blk.agents.retrains, r.1 ≠ k) →
      Gives (.stackRetrain k) s (fun t => t.blk.agents.retrains = s.blk.agents.retrains ++ [(k, some s.blk.time)] ∧
        t.blk.agents.queue = s.blk.agents.queue ∧ t.mem = s.mem ∧ OdOnly s t [])) ∧
    (∀ k t0, s.blk.agents.retrains.find? (fun r => r.1 == k) = some (k, some t0) → Works (.stackHoldExpiry k) s (fun b =>
      s.blk.words = [] → b.time = max s.blk.time (t0 + 1000000) ∧ b.agents.retrains.find? (fun r => r.1 == k) = some (k, none) ∧
      ∀ r ∈ b.agents.queue, r.port < 256 → r.port / 32 ≠ k))

/-- The host link (R480, R485, R488 to R491). It comes up with its epoch when it was not up; a retrain begins a hold,
its end with any epoch takes the link up again, and 2 ms take it down; a new epoch is shown and counted, and no ring
bound to the old one stays ACTIVE or PAUSED, as after a hold has expired. The clauses hold where no control word waits,
which the link's return lets go on. That the command moves the timebase to the end of its wait is log 2. -/
def Obligations.HostLinkKeepsItsEpoch : Prop :=
  ∀ s : State, Settled s →
    let st := s.blk.od' 0x2202 2
    let old := s.blk.od' 0x2202 1
    let orphaned (b : Block) : Prop := ∀ r ∈ b.rings, r.epoch = some old → r.state ≠ .active ∧ r.state ≠ .paused
    (∀ epoch, (s.blk.powered = true → st = 0 ∨ st = 3 → Works (.linkUp epoch) s (fun b =>
        s.blk.words = [] → b.od' 0x2202 2 = 1 ∧ b.od' 0x2202 1 = epoch)) ∧
      (s.blk.words = [] → s.blk.powered = false ∨ (st ≠ 0 ∧ st ≠ 3) → Ends (.linkUp epoch) s s.blk)) ∧
    (st = 1 → Works .retrainBegin s (fun b => b.od' 0x2202 2 = 2 ∧ b.startUp.retrainAt = s.blk.time ∧
      b.od' 0x2202 0x0B = add64 (s.blk.od' 0x2202 0x0B) 1)) ∧
    (st ≠ 1 → Ends .retrainBegin s s.blk) ∧
    (∀ epoch, (st = 2 → Works (.retrainEnd epoch) s (fun b => s.blk.words = [] →
        b.od' 0x2202 2 = 1 ∧ b.od' 0x2202 1 = epoch)) ∧
      (s.blk.words = [] → st ≠ 2 → Ends (.retrainEnd epoch) s s.blk)) ∧
    (st = 2 → Works .holdExpired s (fun b => s.blk.words = [] → b.od' 0x2202 2 = 3 ∧ b.od' 0x2202 1 = old ∧
      b.time = max s.blk.time (s.blk.startUp.retrainAt + 2000000) ∧ b.startUp.expiredBelow = s.blk.nextFlow ∧ orphaned b)) ∧
    (s.blk.words = [] → st ≠ 2 → Ends .holdExpired s s.blk) ∧
    (∀ epoch, (st ≠ 0 → epoch ≠ old → Works (.epochChange epoch) s (fun b => s.blk.words = [] →
        b.od' 0x2202 1 = epoch ∧ b.od' 0x2202 2 = st ∧ b.od' 0x2202 0x0C = add64 (s.blk.od' 0x2202 0x0C) 1 ∧ orphaned b)) ∧
      (s.blk.words = [] → st = 0 ∨ epoch = old → Ends (.epochChange epoch) s s.blk))
end

