-- ==== Sys2Proof/Laws/State.lean ====
section
/-! SUPPORT. What each plain update of the block leaves alone: one lemma per field per update, true by unfolding, so
that no later proof unfolds a record update. -/

namespace Sys2Proof.Machine.Block

variable (b : Block)

/-! ### setOd changes `od` alone -/

@[simp] theorem setOd_time (index sub v : Nat) : (b.setOd index sub v).time = b.time := rfl
@[simp] theorem setOd_posted (index sub v : Nat) : (b.setOd index sub v).posted = b.posted := rfl
@[simp] theorem setOd_raised (index sub v : Nat) : (b.setOd index sub v).raised = b.raised := rfl
@[simp] theorem setOd_blocked (index sub v : Nat) : (b.setOd index sub v).blocked = b.blocked := rfl
@[simp] theorem setOd_freeCount (index sub v : Nat) : (b.setOd index sub v).freeCount = b.freeCount := rfl
@[simp] theorem setOd_rings (index sub v : Nat) : (b.setOd index sub v).rings = b.rings := rfl
@[simp] theorem setOd_cqs (index sub v : Nat) : (b.setOd index sub v).cqs = b.cqs := rfl
@[simp] theorem setOd_rotor (index sub v : Nat) : (b.setOd index sub v).rotor = b.rotor := rfl
@[simp] theorem setOd_turns (index sub v : Nat) : (b.setOd index sub v).turns = b.turns := rfl
@[simp] theorem setOd_waiting (index sub v : Nat) : (b.setOd index sub v).waiting = b.waiting := rfl
@[simp] theorem setOd_retired (index sub v : Nat) : (b.setOd index sub v).retired = b.retired := rfl
@[simp] theorem setOd_words (index sub v : Nat) : (b.setOd index sub v).words = b.words := rfl
@[simp] theorem setOd_orphanNext (index sub v : Nat) : (b.setOd index sub v).orphanNext = b.orphanNext := rfl
@[simp] theorem setOd_heldBack (index sub v : Nat) : (b.setOd index sub v).heldBack = b.heldBack := rfl
@[simp] theorem setOd_flows (index sub v : Nat) : (b.setOd index sub v).flows = b.flows := rfl
@[simp] theorem setOd_nextFlow (index sub v : Nat) : (b.setOd index sub v).nextFlow = b.nextFlow := rfl
@[simp] theorem setOd_contexts (index sub v : Nat) : (b.setOd index sub v).contexts = b.contexts := rfl
@[simp] theorem setOd_agents (index sub v : Nat) : (b.setOd index sub v).agents = b.agents := rfl
@[simp] theorem setOd_cache (index sub v : Nat) : (b.setOd index sub v).cache = b.cache := rfl
@[simp] theorem setOd_north (index sub v : Nat) : (b.setOd index sub v).north = b.north := rfl
@[simp] theorem setOd_south (index sub v : Nat) : (b.setOd index sub v).south = b.south := rfl
@[simp] theorem setOd_streams (index sub v : Nat) : (b.setOd index sub v).streams = b.streams := rfl
@[simp] theorem setOd_seryo (index sub v : Nat) : (b.setOd index sub v).seryo = b.seryo := rfl
@[simp] theorem setOd_dict (index sub v : Nat) : (b.setOd index sub v).dict = b.dict := rfl
@[simp] theorem setOd_faults (index sub v : Nat) : (b.setOd index sub v).faults = b.faults := rfl
@[simp] theorem setOd_startUp (index sub v : Nat) : (b.setOd index sub v).startUp = b.startUp := rfl
@[simp] theorem setOd_power (index sub v : Nat) : (b.setOd index sub v).power = b.power := rfl

/-! ### count changes `od` alone -/

@[simp] theorem count_time (index sub n : Nat) : (b.count index sub n).time = b.time := rfl
@[simp] theorem count_posted (index sub n : Nat) : (b.count index sub n).posted = b.posted := rfl
@[simp] theorem count_raised (index sub n : Nat) : (b.count index sub n).raised = b.raised := rfl
@[simp] theorem count_blocked (index sub n : Nat) : (b.count index sub n).blocked = b.blocked := rfl
@[simp] theorem count_freeCount (index sub n : Nat) : (b.count index sub n).freeCount = b.freeCount := rfl
@[simp] theorem count_rings (index sub n : Nat) : (b.count index sub n).rings = b.rings := rfl
@[simp] theorem count_cqs (index sub n : Nat) : (b.count index sub n).cqs = b.cqs := rfl
@[simp] theorem count_rotor (index sub n : Nat) : (b.count index sub n).rotor = b.rotor := rfl
@[simp] theorem count_turns (index sub n : Nat) : (b.count index sub n).turns = b.turns := rfl
@[simp] theorem count_waiting (index sub n : Nat) : (b.count index sub n).waiting = b.waiting := rfl
@[simp] theorem count_retired (index sub n : Nat) : (b.count index sub n).retired = b.retired := rfl
@[simp] theorem count_words (index sub n : Nat) : (b.count index sub n).words = b.words := rfl
@[simp] theorem count_orphanNext (index sub n : Nat) : (b.count index sub n).orphanNext = b.orphanNext := rfl
@[simp] theorem count_heldBack (index sub n : Nat) : (b.count index sub n).heldBack = b.heldBack := rfl
@[simp] theorem count_flows (index sub n : Nat) : (b.count index sub n).flows = b.flows := rfl
@[simp] theorem count_nextFlow (index sub n : Nat) : (b.count index sub n).nextFlow = b.nextFlow := rfl
@[simp] theorem count_contexts (index sub n : Nat) : (b.count index sub n).contexts = b.contexts := rfl
@[simp] theorem count_agents (index sub n : Nat) : (b.count index sub n).agents = b.agents := rfl
@[simp] theorem count_cache (index sub n : Nat) : (b.count index sub n).cache = b.cache := rfl
@[simp] theorem count_north (index sub n : Nat) : (b.count index sub n).north = b.north := rfl
@[simp] theorem count_south (index sub n : Nat) : (b.count index sub n).south = b.south := rfl
@[simp] theorem count_streams (index sub n : Nat) : (b.count index sub n).streams = b.streams := rfl
@[simp] theorem count_seryo (index sub n : Nat) : (b.count index sub n).seryo = b.seryo := rfl
@[simp] theorem count_dict (index sub n : Nat) : (b.count index sub n).dict = b.dict := rfl
@[simp] theorem count_faults (index sub n : Nat) : (b.count index sub n).faults = b.faults := rfl
@[simp] theorem count_startUp (index sub n : Nat) : (b.count index sub n).startUp = b.startUp := rfl
@[simp] theorem count_power (index sub n : Nat) : (b.count index sub n).power = b.power := rfl

/-! ### count32 changes `od` alone -/

@[simp] theorem count32_time (index sub n : Nat) : (b.count32 index sub n).time = b.time := rfl
@[simp] theorem count32_posted (index sub n : Nat) : (b.count32 index sub n).posted = b.posted := rfl
@[simp] theorem count32_raised (index sub n : Nat) : (b.count32 index sub n).raised = b.raised := rfl
@[simp] theorem count32_blocked (index sub n : Nat) : (b.count32 index sub n).blocked = b.blocked := rfl
@[simp] theorem count32_freeCount (index sub n : Nat) : (b.count32 index sub n).freeCount = b.freeCount := rfl
@[simp] theorem count32_rings (index sub n : Nat) : (b.count32 index sub n).rings = b.rings := rfl
@[simp] theorem count32_cqs (index sub n : Nat) : (b.count32 index sub n).cqs = b.cqs := rfl
@[simp] theorem count32_rotor (index sub n : Nat) : (b.count32 index sub n).rotor = b.rotor := rfl
@[simp] theorem count32_turns (index sub n : Nat) : (b.count32 index sub n).turns = b.turns := rfl
@[simp] theorem count32_waiting (index sub n : Nat) : (b.count32 index sub n).waiting = b.waiting := rfl
@[simp] theorem count32_retired (index sub n : Nat) : (b.count32 index sub n).retired = b.retired := rfl
@[simp] theorem count32_words (index sub n : Nat) : (b.count32 index sub n).words = b.words := rfl
@[simp] theorem count32_orphanNext (index sub n : Nat) : (b.count32 index sub n).orphanNext = b.orphanNext := rfl
@[simp] theorem count32_heldBack (index sub n : Nat) : (b.count32 index sub n).heldBack = b.heldBack := rfl
@[simp] theorem count32_flows (index sub n : Nat) : (b.count32 index sub n).flows = b.flows := rfl
@[simp] theorem count32_nextFlow (index sub n : Nat) : (b.count32 index sub n).nextFlow = b.nextFlow := rfl
@[simp] theorem count32_contexts (index sub n : Nat) : (b.count32 index sub n).contexts = b.contexts := rfl
@[simp] theorem count32_agents (index sub n : Nat) : (b.count32 index sub n).agents = b.agents := rfl
@[simp] theorem count32_cache (index sub n : Nat) : (b.count32 index sub n).cache = b.cache := rfl
@[simp] theorem count32_north (index sub n : Nat) : (b.count32 index sub n).north = b.north := rfl
@[simp] theorem count32_south (index sub n : Nat) : (b.count32 index sub n).south = b.south := rfl
@[simp] theorem count32_streams (index sub n : Nat) : (b.count32 index sub n).streams = b.streams := rfl
@[simp] theorem count32_seryo (index sub n : Nat) : (b.count32 index sub n).seryo = b.seryo := rfl
@[simp] theorem count32_dict (index sub n : Nat) : (b.count32 index sub n).dict = b.dict := rfl
@[simp] theorem count32_faults (index sub n : Nat) : (b.count32 index sub n).faults = b.faults := rfl
@[simp] theorem count32_startUp (index sub n : Nat) : (b.count32 index sub n).startUp = b.startUp := rfl
@[simp] theorem count32_power (index sub n : Nat) : (b.count32 index sub n).power = b.power := rfl

/-! ### modFlow changes `flows` alone -/

@[simp] theorem modFlow_time (id : Nat) (g : Flow → Flow) : (b.modFlow id g).time = b.time := rfl
@[simp] theorem modFlow_od (id : Nat) (g : Flow → Flow) : (b.modFlow id g).od = b.od := rfl
@[simp] theorem modFlow_posted (id : Nat) (g : Flow → Flow) : (b.modFlow id g).posted = b.posted := rfl
@[simp] theorem modFlow_raised (id : Nat) (g : Flow → Flow) : (b.modFlow id g).raised = b.raised := rfl
@[simp] theorem modFlow_blocked (id : Nat) (g : Flow → Flow) : (b.modFlow id g).blocked = b.blocked := rfl
@[simp] theorem modFlow_freeCount (id : Nat) (g : Flow → Flow) : (b.modFlow id g).freeCount = b.freeCount := rfl
@[simp] theorem modFlow_rings (id : Nat) (g : Flow → Flow) : (b.modFlow id g).rings = b.rings := rfl
@[simp] theorem modFlow_cqs (id : Nat) (g : Flow → Flow) : (b.modFlow id g).cqs = b.cqs := rfl
@[simp] theorem modFlow_rotor (id : Nat) (g : Flow → Flow) : (b.modFlow id g).rotor = b.rotor := rfl
@[simp] theorem modFlow_turns (id : Nat) (g : Flow → Flow) : (b.modFlow id g).turns = b.turns := rfl
@[simp] theorem modFlow_waiting (id : Nat) (g : Flow → Flow) : (b.modFlow id g).waiting = b.waiting := rfl
@[simp] theorem modFlow_retired (id : Nat) (g : Flow → Flow) : (b.modFlow id g).retired = b.retired := rfl
@[simp] theorem modFlow_words (id : Nat) (g : Flow → Flow) : (b.modFlow id g).words = b.words := rfl
@[simp] theorem modFlow_orphanNext (id : Nat) (g : Flow → Flow) : (b.modFlow id g).orphanNext = b.orphanNext := rfl
@[simp] theorem modFlow_heldBack (id : Nat) (g : Flow → Flow) : (b.modFlow id g).heldBack = b.heldBack := rfl
@[simp] theorem modFlow_nextFlow (id : Nat) (g : Flow → Flow) : (b.modFlow id g).nextFlow = b.nextFlow := rfl
@[simp] theorem modFlow_contexts (id : Nat) (g : Flow → Flow) : (b.modFlow id g).contexts = b.contexts := rfl
@[simp] theorem modFlow_agents (id : Nat) (g : Flow → Flow) : (b.modFlow id g).agents = b.agents := rfl
@[simp] theorem modFlow_cache (id : Nat) (g : Flow → Flow) : (b.modFlow id g).cache = b.cache := rfl
@[simp] theorem modFlow_north (id : Nat) (g : Flow → Flow) : (b.modFlow id g).north = b.north := rfl
@[simp] theorem modFlow_south (id : Nat) (g : Flow → Flow) : (b.modFlow id g).south = b.south := rfl
@[simp] theorem modFlow_streams (id : Nat) (g : Flow → Flow) : (b.modFlow id g).streams = b.streams := rfl
@[simp] theorem modFlow_seryo (id : Nat) (g : Flow → Flow) : (b.modFlow id g).seryo = b.seryo := rfl
@[simp] theorem modFlow_dict (id : Nat) (g : Flow → Flow) : (b.modFlow id g).dict = b.dict := rfl
@[simp] theorem modFlow_faults (id : Nat) (g : Flow → Flow) : (b.modFlow id g).faults = b.faults := rfl
@[simp] theorem modFlow_startUp (id : Nat) (g : Flow → Flow) : (b.modFlow id g).startUp = b.startUp := rfl
@[simp] theorem modFlow_power (id : Nat) (g : Flow → Flow) : (b.modFlow id g).power = b.power := rfl

/-! ### dropFlow changes `flows` alone -/

@[simp] theorem dropFlow_time (id : Nat) : (b.dropFlow id).time = b.time := rfl
@[simp] theorem dropFlow_od (id : Nat) : (b.dropFlow id).od = b.od := rfl
@[simp] theorem dropFlow_posted (id : Nat) : (b.dropFlow id).posted = b.posted := rfl
@[simp] theorem dropFlow_raised (id : Nat) : (b.dropFlow id).raised = b.raised := rfl
@[simp] theorem dropFlow_blocked (id : Nat) : (b.dropFlow id).blocked = b.blocked := rfl
@[simp] theorem dropFlow_freeCount (id : Nat) : (b.dropFlow id).freeCount = b.freeCount := rfl
@[simp] theorem dropFlow_rings (id : Nat) : (b.dropFlow id).rings = b.rings := rfl
@[simp] theorem dropFlow_cqs (id : Nat) : (b.dropFlow id).cqs = b.cqs := rfl
@[simp] theorem dropFlow_rotor (id : Nat) : (b.dropFlow id).rotor = b.rotor := rfl
@[simp] theorem dropFlow_turns (id : Nat) : (b.dropFlow id).turns = b.turns := rfl
@[simp] theorem dropFlow_waiting (id : Nat) : (b.dropFlow id).waiting = b.waiting := rfl
@[simp] theorem dropFlow_retired (id : Nat) : (b.dropFlow id).retired = b.retired := rfl
@[simp] theorem dropFlow_words (id : Nat) : (b.dropFlow id).words = b.words := rfl
@[simp] theorem dropFlow_orphanNext (id : Nat) : (b.dropFlow id).orphanNext = b.orphanNext := rfl
@[simp] theorem dropFlow_heldBack (id : Nat) : (b.dropFlow id).heldBack = b.heldBack := rfl
@[simp] theorem dropFlow_nextFlow (id : Nat) : (b.dropFlow id).nextFlow = b.nextFlow := rfl
@[simp] theorem dropFlow_contexts (id : Nat) : (b.dropFlow id).contexts = b.contexts := rfl
@[simp] theorem dropFlow_agents (id : Nat) : (b.dropFlow id).agents = b.agents := rfl
@[simp] theorem dropFlow_cache (id : Nat) : (b.dropFlow id).cache = b.cache := rfl
@[simp] theorem dropFlow_north (id : Nat) : (b.dropFlow id).north = b.north := rfl
@[simp] theorem dropFlow_south (id : Nat) : (b.dropFlow id).south = b.south := rfl
@[simp] theorem dropFlow_streams (id : Nat) : (b.dropFlow id).streams = b.streams := rfl
@[simp] theorem dropFlow_seryo (id : Nat) : (b.dropFlow id).seryo = b.seryo := rfl
@[simp] theorem dropFlow_dict (id : Nat) : (b.dropFlow id).dict = b.dict := rfl
@[simp] theorem dropFlow_faults (id : Nat) : (b.dropFlow id).faults = b.faults := rfl
@[simp] theorem dropFlow_startUp (id : Nat) : (b.dropFlow id).startUp = b.startUp := rfl
@[simp] theorem dropFlow_power (id : Nat) : (b.dropFlow id).power = b.power := rfl

/-! ### found changes `raised` alone -/

@[simp] theorem found_time (cls unit addr : Nat) (inj : Bool) : (b.found cls unit addr inj).time = b.time := rfl
@[simp] theorem found_od (cls unit addr : Nat) (inj : Bool) : (b.found cls unit addr inj).od = b.od := rfl
@[simp] theorem found_posted (cls unit addr : Nat) (inj : Bool) : (b.found cls unit addr inj).posted = b.posted := rfl
@[simp] theorem found_blocked (cls unit addr : Nat) (inj : Bool) : (b.found cls unit addr inj).blocked = b.blocked := rfl
@[simp] theorem found_freeCount (cls unit addr : Nat) (inj : Bool) : (b.found cls unit addr inj).freeCount = b.freeCount := rfl
@[simp] theorem found_rings (cls unit addr : Nat) (inj : Bool) : (b.found cls unit addr inj).rings = b.rings := rfl
@[simp] theorem found_cqs (cls unit addr : Nat) (inj : Bool) : (b.found cls unit addr inj).cqs = b.cqs := rfl
@[simp] theorem found_rotor (cls unit addr : Nat) (inj : Bool) : (b.found cls unit addr inj).rotor = b.rotor := rfl
@[simp] theorem found_turns (cls unit addr : Nat) (inj : Bool) : (b.found cls unit addr inj).turns = b.turns := rfl
@[simp] theorem found_waiting (cls unit addr : Nat) (inj : Bool) : (b.found cls unit addr inj).waiting = b.waiting := rfl
@[simp] theorem found_retired (cls unit addr : Nat) (inj : Bool) : (b.found cls unit addr inj).retired = b.retired := rfl
@[simp] theorem found_words (cls unit addr : Nat) (inj : Bool) : (b.found cls unit addr inj).words = b.words := rfl
@[simp] theorem found_orphanNext (cls unit addr : Nat) (inj : Bool) : (b.found cls unit addr inj).orphanNext = b.orphanNext := rfl
@[simp] theorem found_heldBack (cls unit addr : Nat) (inj : Bool) : (b.found cls unit addr inj).heldBack = b.heldBack := rfl
@[simp] theorem found_flows (cls unit addr : Nat) (inj : Bool) : (b.found cls unit addr inj).flows = b.flows := rfl
@[simp] theorem found_nextFlow (cls unit addr : Nat) (inj : Bool) : (b.found cls unit addr inj).nextFlow = b.nextFlow := rfl
@[simp] theorem found_contexts (cls unit addr : Nat) (inj : Bool) : (b.found cls unit addr inj).contexts = b.contexts := rfl
@[simp] theorem found_agents (cls unit addr : Nat) (inj : Bool) : (b.found cls unit addr inj).agents = b.agents := rfl
@[simp] theorem found_cache (cls unit addr : Nat) (inj : Bool) : (b.found cls unit addr inj).cache = b.cache := rfl
@[simp] theorem found_north (cls unit addr : Nat) (inj : Bool) : (b.found cls unit addr inj).north = b.north := rfl
@[simp] theorem found_south (cls unit addr : Nat) (inj : Bool) : (b.found cls unit addr inj).south = b.south := rfl
@[simp] theorem found_streams (cls unit addr : Nat) (inj : Bool) : (b.found cls unit addr inj).streams = b.streams := rfl
@[simp] theorem found_seryo (cls unit addr : Nat) (inj : Bool) : (b.found cls unit addr inj).seryo = b.seryo := rfl
@[simp] theorem found_dict (cls unit addr : Nat) (inj : Bool) : (b.found cls unit addr inj).dict = b.dict := rfl
@[simp] theorem found_faults (cls unit addr : Nat) (inj : Bool) : (b.found cls unit addr inj).faults = b.faults := rfl
@[simp] theorem found_startUp (cls unit addr : Nat) (inj : Bool) : (b.found cls unit addr inj).startUp = b.startUp := rfl
@[simp] theorem found_power (cls unit addr : Nat) (inj : Bool) : (b.found cls unit addr inj).power = b.power := rfl

/-! ### post changes `posted` alone -/

@[simp] theorem post_time (a : Nat) (d : Bytes) : (b.post a d).time = b.time := rfl
@[simp] theorem post_od (a : Nat) (d : Bytes) : (b.post a d).od = b.od := rfl
@[simp] theorem post_raised (a : Nat) (d : Bytes) : (b.post a d).raised = b.raised := rfl
@[simp] theorem post_blocked (a : Nat) (d : Bytes) : (b.post a d).blocked = b.blocked := rfl
@[simp] theorem post_freeCount (a : Nat) (d : Bytes) : (b.post a d).freeCount = b.freeCount := rfl
@[simp] theorem post_rings (a : Nat) (d : Bytes) : (b.post a d).rings = b.rings := rfl
@[simp] theorem post_cqs (a : Nat) (d : Bytes) : (b.post a d).cqs = b.cqs := rfl
@[simp] theorem post_rotor (a : Nat) (d : Bytes) : (b.post a d).rotor = b.rotor := rfl
@[simp] theorem post_turns (a : Nat) (d : Bytes) : (b.post a d).turns = b.turns := rfl
@[simp] theorem post_waiting (a : Nat) (d : Bytes) : (b.post a d).waiting = b.waiting := rfl
@[simp] theorem post_retired (a : Nat) (d : Bytes) : (b.post a d).retired = b.retired := rfl
@[simp] theorem post_words (a : Nat) (d : Bytes) : (b.post a d).words = b.words := rfl
@[simp] theorem post_orphanNext (a : Nat) (d : Bytes) : (b.post a d).orphanNext = b.orphanNext := rfl
@[simp] theorem post_heldBack (a : Nat) (d : Bytes) : (b.post a d).heldBack = b.heldBack := rfl
@[simp] theorem post_flows (a : Nat) (d : Bytes) : (b.post a d).flows = b.flows := rfl
@[simp] theorem post_nextFlow (a : Nat) (d : Bytes) : (b.post a d).nextFlow = b.nextFlow := rfl
@[simp] theorem post_contexts (a : Nat) (d : Bytes) : (b.post a d).contexts = b.contexts := rfl
@[simp] theorem post_agents (a : Nat) (d : Bytes) : (b.post a d).agents = b.agents := rfl
@[simp] theorem post_cache (a : Nat) (d : Bytes) : (b.post a d).cache = b.cache := rfl
@[simp] theorem post_north (a : Nat) (d : Bytes) : (b.post a d).north = b.north := rfl
@[simp] theorem post_south (a : Nat) (d : Bytes) : (b.post a d).south = b.south := rfl
@[simp] theorem post_streams (a : Nat) (d : Bytes) : (b.post a d).streams = b.streams := rfl
@[simp] theorem post_seryo (a : Nat) (d : Bytes) : (b.post a d).seryo = b.seryo := rfl
@[simp] theorem post_dict (a : Nat) (d : Bytes) : (b.post a d).dict = b.dict := rfl
@[simp] theorem post_faults (a : Nat) (d : Bytes) : (b.post a d).faults = b.faults := rfl
@[simp] theorem post_startUp (a : Nat) (d : Bytes) : (b.post a d).startUp = b.startUp := rfl
@[simp] theorem post_power (a : Nat) (d : Bytes) : (b.post a d).power = b.power := rfl

/-! ### putRing changes `rings` alone -/

@[simp] theorem putRing_time (r : SubRing) : (b.putRing r).time = b.time := rfl
@[simp] theorem putRing_od (r : SubRing) : (b.putRing r).od = b.od := rfl
@[simp] theorem putRing_posted (r : SubRing) : (b.putRing r).posted = b.posted := rfl
@[simp] theorem putRing_raised (r : SubRing) : (b.putRing r).raised = b.raised := rfl
@[simp] theorem putRing_blocked (r : SubRing) : (b.putRing r).blocked = b.blocked := rfl
@[simp] theorem putRing_freeCount (r : SubRing) : (b.putRing r).freeCount = b.freeCount := rfl
@[simp] theorem putRing_cqs (r : SubRing) : (b.putRing r).cqs = b.cqs := rfl
@[simp] theorem putRing_rotor (r : SubRing) : (b.putRing r).rotor = b.rotor := rfl
@[simp] theorem putRing_turns (r : SubRing) : (b.putRing r).turns = b.turns := rfl
@[simp] theorem putRing_waiting (r : SubRing) : (b.putRing r).waiting = b.waiting := rfl
@[simp] theorem putRing_retired (r : SubRing) : (b.putRing r).retired = b.retired := rfl
@[simp] theorem putRing_words (r : SubRing) : (b.putRing r).words = b.words := rfl
@[simp] theorem putRing_orphanNext (r : SubRing) : (b.putRing r).orphanNext = b.orphanNext := rfl
@[simp] theorem putRing_heldBack (r : SubRing) : (b.putRing r).heldBack = b.heldBack := rfl
@[simp] theorem putRing_flows (r : SubRing) : (b.putRing r).flows = b.flows := rfl
@[simp] theorem putRing_nextFlow (r : SubRing) : (b.putRing r).nextFlow = b.nextFlow := rfl
@[simp] theorem putRing_contexts (r : SubRing) : (b.putRing r).contexts = b.contexts := rfl
@[simp] theorem putRing_agents (r : SubRing) : (b.putRing r).agents = b.agents := rfl
@[simp] theorem putRing_cache (r : SubRing) : (b.putRing r).cache = b.cache := rfl
@[simp] theorem putRing_north (r : SubRing) : (b.putRing r).north = b.north := rfl
@[simp] theorem putRing_south (r : SubRing) : (b.putRing r).south = b.south := rfl
@[simp] theorem putRing_streams (r : SubRing) : (b.putRing r).streams = b.streams := rfl
@[simp] theorem putRing_seryo (r : SubRing) : (b.putRing r).seryo = b.seryo := rfl
@[simp] theorem putRing_dict (r : SubRing) : (b.putRing r).dict = b.dict := rfl
@[simp] theorem putRing_faults (r : SubRing) : (b.putRing r).faults = b.faults := rfl
@[simp] theorem putRing_startUp (r : SubRing) : (b.putRing r).startUp = b.startUp := rfl
@[simp] theorem putRing_power (r : SubRing) : (b.putRing r).power = b.power := rfl

/-! ### putCq changes `cqs` alone -/

@[simp] theorem putCq_time (c : CompRing) : (b.putCq c).time = b.time := rfl
@[simp] theorem putCq_od (c : CompRing) : (b.putCq c).od = b.od := rfl
@[simp] theorem putCq_posted (c : CompRing) : (b.putCq c).posted = b.posted := rfl
@[simp] theorem putCq_raised (c : CompRing) : (b.putCq c).raised = b.raised := rfl
@[simp] theorem putCq_blocked (c : CompRing) : (b.putCq c).blocked = b.blocked := rfl
@[simp] theorem putCq_freeCount (c : CompRing) : (b.putCq c).freeCount = b.freeCount := rfl
@[simp] theorem putCq_rings (c : CompRing) : (b.putCq c).rings = b.rings := rfl
@[simp] theorem putCq_rotor (c : CompRing) : (b.putCq c).rotor = b.rotor := rfl
@[simp] theorem putCq_turns (c : CompRing) : (b.putCq c).turns = b.turns := rfl
@[simp] theorem putCq_waiting (c : CompRing) : (b.putCq c).waiting = b.waiting := rfl
@[simp] theorem putCq_retired (c : CompRing) : (b.putCq c).retired = b.retired := rfl
@[simp] theorem putCq_words (c : CompRing) : (b.putCq c).words = b.words := rfl
@[simp] theorem putCq_orphanNext (c : CompRing) : (b.putCq c).orphanNext = b.orphanNext := rfl
@[simp] theorem putCq_heldBack (c : CompRing) : (b.putCq c).heldBack = b.heldBack := rfl
@[simp] theorem putCq_flows (c : CompRing) : (b.putCq c).flows = b.flows := rfl
@[simp] theorem putCq_nextFlow (c : CompRing) : (b.putCq c).nextFlow = b.nextFlow := rfl
@[simp] theorem putCq_contexts (c : CompRing) : (b.putCq c).contexts = b.contexts := rfl
@[simp] theorem putCq_agents (c : CompRing) : (b.putCq c).agents = b.agents := rfl
@[simp] theorem putCq_cache (c : CompRing) : (b.putCq c).cache = b.cache := rfl
@[simp] theorem putCq_north (c : CompRing) : (b.putCq c).north = b.north := rfl
@[simp] theorem putCq_south (c : CompRing) : (b.putCq c).south = b.south := rfl
@[simp] theorem putCq_streams (c : CompRing) : (b.putCq c).streams = b.streams := rfl
@[simp] theorem putCq_seryo (c : CompRing) : (b.putCq c).seryo = b.seryo := rfl
@[simp] theorem putCq_dict (c : CompRing) : (b.putCq c).dict = b.dict := rfl
@[simp] theorem putCq_faults (c : CompRing) : (b.putCq c).faults = b.faults := rfl
@[simp] theorem putCq_startUp (c : CompRing) : (b.putCq c).startUp = b.startUp := rfl
@[simp] theorem putCq_power (c : CompRing) : (b.putCq c).power = b.power := rfl

/-! ### modQueue changes `streams` alone -/

@[simp] theorem modQueue_time (n : Nat) (g : SatQueue → SatQueue) : (b.modQueue n g).time = b.time := rfl
@[simp] theorem modQueue_od (n : Nat) (g : SatQueue → SatQueue) : (b.modQueue n g).od = b.od := rfl
@[simp] theorem modQueue_posted (n : Nat) (g : SatQueue → SatQueue) : (b.modQueue n g).posted = b.posted := rfl
@[simp] theorem modQueue_raised (n : Nat) (g : SatQueue → SatQueue) : (b.modQueue n g).raised = b.raised := rfl
@[simp] theorem modQueue_blocked (n : Nat) (g : SatQueue → SatQueue) : (b.modQueue n g).blocked = b.blocked := rfl
@[simp] theorem modQueue_freeCount (n : Nat) (g : SatQueue → SatQueue) : (b.modQueue n g).freeCount = b.freeCount := rfl
@[simp] theorem modQueue_rings (n : Nat) (g : SatQueue → SatQueue) : (b.modQueue n g).rings = b.rings := rfl
@[simp] theorem modQueue_cqs (n : Nat) (g : SatQueue → SatQueue) : (b.modQueue n g).cqs = b.cqs := rfl
@[simp] theorem modQueue_rotor (n : Nat) (g : SatQueue → SatQueue) : (b.modQueue n g).rotor = b.rotor := rfl
@[simp] theorem modQueue_turns (n : Nat) (g : SatQueue → SatQueue) : (b.modQueue n g).turns = b.turns := rfl
@[simp] theorem modQueue_waiting (n : Nat) (g : SatQueue → SatQueue) : (b.modQueue n g).waiting = b.waiting := rfl
@[simp] theorem modQueue_retired (n : Nat) (g : SatQueue → SatQueue) : (b.modQueue n g).retired = b.retired := rfl
@[simp] theorem modQueue_words (n : Nat) (g : SatQueue → SatQueue) : (b.modQueue n g).words = b.words := rfl
@[simp] theorem modQueue_orphanNext (n : Nat) (g : SatQueue → SatQueue) : (b.modQueue n g).orphanNext = b.orphanNext := rfl
@[simp] theorem modQueue_heldBack (n : Nat) (g : SatQueue → SatQueue) : (b.modQueue n g).heldBack = b.heldBack := rfl
@[simp] theorem modQueue_flows (n : Nat) (g : SatQueue → SatQueue) : (b.modQueue n g).flows = b.flows := rfl
@[simp] theorem modQueue_nextFlow (n : Nat) (g : SatQueue → SatQueue) : (b.modQueue n g).nextFlow = b.nextFlow := rfl
@[simp] theorem modQueue_contexts (n : Nat) (g : SatQueue → SatQueue) : (b.modQueue n g).contexts = b.contexts := rfl
@[simp] theorem modQueue_agents (n : Nat) (g : SatQueue → SatQueue) : (b.modQueue n g).agents = b.agents := rfl
@[simp] theorem modQueue_cache (n : Nat) (g : SatQueue → SatQueue) : (b.modQueue n g).cache = b.cache := rfl
@[simp] theorem modQueue_north (n : Nat) (g : SatQueue → SatQueue) : (b.modQueue n g).north = b.north := rfl
@[simp] theorem modQueue_south (n : Nat) (g : SatQueue → SatQueue) : (b.modQueue n g).south = b.south := rfl
@[simp] theorem modQueue_seryo (n : Nat) (g : SatQueue → SatQueue) : (b.modQueue n g).seryo = b.seryo := rfl
@[simp] theorem modQueue_dict (n : Nat) (g : SatQueue → SatQueue) : (b.modQueue n g).dict = b.dict := rfl
@[simp] theorem modQueue_faults (n : Nat) (g : SatQueue → SatQueue) : (b.modQueue n g).faults = b.faults := rfl
@[simp] theorem modQueue_startUp (n : Nat) (g : SatQueue → SatQueue) : (b.modQueue n g).startUp = b.startUp := rfl
@[simp] theorem modQueue_power (n : Nat) (g : SatQueue → SatQueue) : (b.modQueue n g).power = b.power := rfl

/-! ### putPort changes `seryo` alone -/

@[simp] theorem putPort_time (p : Port) : (b.putPort p).time = b.time := rfl
@[simp] theorem putPort_od (p : Port) : (b.putPort p).od = b.od := rfl
@[simp] theorem putPort_posted (p : Port) : (b.putPort p).posted = b.posted := rfl
@[simp] theorem putPort_raised (p : Port) : (b.putPort p).raised = b.raised := rfl
@[simp] theorem putPort_blocked (p : Port) : (b.putPort p).blocked = b.blocked := rfl
@[simp] theorem putPort_freeCount (p : Port) : (b.putPort p).freeCount = b.freeCount := rfl
@[simp] theorem putPort_rings (p : Port) : (b.putPort p).rings = b.rings := rfl
@[simp] theorem putPort_cqs (p : Port) : (b.putPort p).cqs = b.cqs := rfl
@[simp] theorem putPort_rotor (p : Port) : (b.putPort p).rotor = b.rotor := rfl
@[simp] theorem putPort_turns (p : Port) : (b.putPort p).turns = b.turns := rfl
@[simp] theorem putPort_waiting (p : Port) : (b.putPort p).waiting = b.waiting := rfl
@[simp] theorem putPort_retired (p : Port) : (b.putPort p).retired = b.retired := rfl
@[simp] theorem putPort_words (p : Port) : (b.putPort p).words = b.words := rfl
@[simp] theorem putPort_orphanNext (p : Port) : (b.putPort p).orphanNext = b.orphanNext := rfl
@[simp] theorem putPort_heldBack (p : Port) : (b.putPort p).heldBack = b.heldBack := rfl
@[simp] theorem putPort_flows (p : Port) : (b.putPort p).flows = b.flows := rfl
@[simp] theorem putPort_nextFlow (p : Port) : (b.putPort p).nextFlow = b.nextFlow := rfl
@[simp] theorem putPort_contexts (p : Port) : (b.putPort p).contexts = b.contexts := rfl
@[simp] theorem putPort_agents (p : Port) : (b.putPort p).agents = b.agents := rfl
@[simp] theorem putPort_cache (p : Port) : (b.putPort p).cache = b.cache := rfl
@[simp] theorem putPort_north (p : Port) : (b.putPort p).north = b.north := rfl
@[simp] theorem putPort_south (p : Port) : (b.putPort p).south = b.south := rfl
@[simp] theorem putPort_streams (p : Port) : (b.putPort p).streams = b.streams := rfl
@[simp] theorem putPort_dict (p : Port) : (b.putPort p).dict = b.dict := rfl
@[simp] theorem putPort_faults (p : Port) : (b.putPort p).faults = b.faults := rfl
@[simp] theorem putPort_startUp (p : Port) : (b.putPort p).startUp = b.startUp := rfl
@[simp] theorem putPort_power (p : Port) : (b.putPort p).power = b.power := rfl

/-! ### modPeer changes `seryo` alone -/

@[simp] theorem modPeer_time (p : Nat) (g : Peer → Peer) : (b.modPeer p g).time = b.time := rfl
@[simp] theorem modPeer_od (p : Nat) (g : Peer → Peer) : (b.modPeer p g).od = b.od := rfl
@[simp] theorem modPeer_posted (p : Nat) (g : Peer → Peer) : (b.modPeer p g).posted = b.posted := rfl
@[simp] theorem modPeer_raised (p : Nat) (g : Peer → Peer) : (b.modPeer p g).raised = b.raised := rfl
@[simp] theorem modPeer_blocked (p : Nat) (g : Peer → Peer) : (b.modPeer p g).blocked = b.blocked := rfl
@[simp] theorem modPeer_freeCount (p : Nat) (g : Peer → Peer) : (b.modPeer p g).freeCount = b.freeCount := rfl
@[simp] theorem modPeer_rings (p : Nat) (g : Peer → Peer) : (b.modPeer p g).rings = b.rings := rfl
@[simp] theorem modPeer_cqs (p : Nat) (g : Peer → Peer) : (b.modPeer p g).cqs = b.cqs := rfl
@[simp] theorem modPeer_rotor (p : Nat) (g : Peer → Peer) : (b.modPeer p g).rotor = b.rotor := rfl
@[simp] theorem modPeer_turns (p : Nat) (g : Peer → Peer) : (b.modPeer p g).turns = b.turns := rfl
@[simp] theorem modPeer_waiting (p : Nat) (g : Peer → Peer) : (b.modPeer p g).waiting = b.waiting := rfl
@[simp] theorem modPeer_retired (p : Nat) (g : Peer → Peer) : (b.modPeer p g).retired = b.retired := rfl
@[simp] theorem modPeer_words (p : Nat) (g : Peer → Peer) : (b.modPeer p g).words = b.words := rfl
@[simp] theorem modPeer_orphanNext (p : Nat) (g : Peer → Peer) : (b.modPeer p g).orphanNext = b.orphanNext := rfl
@[simp] theorem modPeer_heldBack (p : Nat) (g : Peer → Peer) : (b.modPeer p g).heldBack = b.heldBack := rfl
@[simp] theorem modPeer_flows (p : Nat) (g : Peer → Peer) : (b.modPeer p g).flows = b.flows := rfl
@[simp] theorem modPeer_nextFlow (p : Nat) (g : Peer → Peer) : (b.modPeer p g).nextFlow = b.nextFlow := rfl
@[simp] theorem modPeer_contexts (p : Nat) (g : Peer → Peer) : (b.modPeer p g).contexts = b.contexts := rfl
@[simp] theorem modPeer_agents (p : Nat) (g : Peer → Peer) : (b.modPeer p g).agents = b.agents := rfl
@[simp] theorem modPeer_cache (p : Nat) (g : Peer → Peer) : (b.modPeer p g).cache = b.cache := rfl
@[simp] theorem modPeer_north (p : Nat) (g : Peer → Peer) : (b.modPeer p g).north = b.north := rfl
@[simp] theorem modPeer_south (p : Nat) (g : Peer → Peer) : (b.modPeer p g).south = b.south := rfl
@[simp] theorem modPeer_streams (p : Nat) (g : Peer → Peer) : (b.modPeer p g).streams = b.streams := rfl
@[simp] theorem modPeer_dict (p : Nat) (g : Peer → Peer) : (b.modPeer p g).dict = b.dict := rfl
@[simp] theorem modPeer_faults (p : Nat) (g : Peer → Peer) : (b.modPeer p g).faults = b.faults := rfl
@[simp] theorem modPeer_startUp (p : Nat) (g : Peer → Peer) : (b.modPeer p g).startUp = b.startUp := rfl
@[simp] theorem modPeer_power (p : Nat) (g : Peer → Peer) : (b.modPeer p g).power = b.power := rfl

/-! ### sendPower changes `power` alone -/

@[simp] theorem sendPower_time (m : PowerMsg) : (b.sendPower m).time = b.time := rfl
@[simp] theorem sendPower_od (m : PowerMsg) : (b.sendPower m).od = b.od := rfl
@[simp] theorem sendPower_posted (m : PowerMsg) : (b.sendPower m).posted = b.posted := rfl
@[simp] theorem sendPower_raised (m : PowerMsg) : (b.sendPower m).raised = b.raised := rfl
@[simp] theorem sendPower_blocked (m : PowerMsg) : (b.sendPower m).blocked = b.blocked := rfl
@[simp] theorem sendPower_freeCount (m : PowerMsg) : (b.sendPower m).freeCount = b.freeCount := rfl
@[simp] theorem sendPower_rings (m : PowerMsg) : (b.sendPower m).rings = b.rings := rfl
@[simp] theorem sendPower_cqs (m : PowerMsg) : (b.sendPower m).cqs = b.cqs := rfl
@[simp] theorem sendPower_rotor (m : PowerMsg) : (b.sendPower m).rotor = b.rotor := rfl
@[simp] theorem sendPower_turns (m : PowerMsg) : (b.sendPower m).turns = b.turns := rfl
@[simp] theorem sendPower_waiting (m : PowerMsg) : (b.sendPower m).waiting = b.waiting := rfl
@[simp] theorem sendPower_retired (m : PowerMsg) : (b.sendPower m).retired = b.retired := rfl
@[simp] theorem sendPower_words (m : PowerMsg) : (b.sendPower m).words = b.words := rfl
@[simp] theorem sendPower_orphanNext (m : PowerMsg) : (b.sendPower m).orphanNext = b.orphanNext := rfl
@[simp] theorem sendPower_heldBack (m : PowerMsg) : (b.sendPower m).heldBack = b.heldBack := rfl
@[simp] theorem sendPower_flows (m : PowerMsg) : (b.sendPower m).flows = b.flows := rfl
@[simp] theorem sendPower_nextFlow (m : PowerMsg) : (b.sendPower m).nextFlow = b.nextFlow := rfl
@[simp] theorem sendPower_contexts (m : PowerMsg) : (b.sendPower m).contexts = b.contexts := rfl
@[simp] theorem sendPower_agents (m : PowerMsg) : (b.sendPower m).agents = b.agents := rfl
@[simp] theorem sendPower_cache (m : PowerMsg) : (b.sendPower m).cache = b.cache := rfl
@[simp] theorem sendPower_north (m : PowerMsg) : (b.sendPower m).north = b.north := rfl
@[simp] theorem sendPower_south (m : PowerMsg) : (b.sendPower m).south = b.south := rfl
@[simp] theorem sendPower_streams (m : PowerMsg) : (b.sendPower m).streams = b.streams := rfl
@[simp] theorem sendPower_seryo (m : PowerMsg) : (b.sendPower m).seryo = b.seryo := rfl
@[simp] theorem sendPower_dict (m : PowerMsg) : (b.sendPower m).dict = b.dict := rfl
@[simp] theorem sendPower_faults (m : PowerMsg) : (b.sendPower m).faults = b.faults := rfl
@[simp] theorem sendPower_startUp (m : PowerMsg) : (b.sendPower m).startUp = b.startUp := rfl

/-! ### enqueue changes `od`, `agents` alone -/

@[simp] theorem enqueue_time (r : AgentReq) : (b.enqueue r).time = b.time := by
  unfold enqueue; dsimp only; split <;> rfl
@[simp] theorem enqueue_posted (r : AgentReq) : (b.enqueue r).posted = b.posted := by
  unfold enqueue; dsimp only; split <;> rfl
@[simp] theorem enqueue_raised (r : AgentReq) : (b.enqueue r).raised = b.raised := by
  unfold enqueue; dsimp only; split <;> rfl
@[simp] theorem enqueue_blocked (r : AgentReq) : (b.enqueue r).blocked = b.blocked := by
  unfold enqueue; dsimp only; split <;> rfl
@[simp] theorem enqueue_freeCount (r : AgentReq) : (b.enqueue r).freeCount = b.freeCount := by
  unfold enqueue; dsimp only; split <;> rfl
@[simp] theorem enqueue_rings (r : AgentReq) : (b.enqueue r).rings = b.rings := by
  unfold enqueue; dsimp only; split <;> rfl
@[simp] theorem enqueue_cqs (r : AgentReq) : (b.enqueue r).cqs = b.cqs := by
  unfold enqueue; dsimp only; split <;> rfl
@[simp] theorem enqueue_rotor (r : AgentReq) : (b.enqueue r).rotor = b.rotor := by
  unfold enqueue; dsimp only; split <;> rfl
@[simp] theorem enqueue_turns (r : AgentReq) : (b.enqueue r).turns = b.turns := by
  unfold enqueue; dsimp only; split <;> rfl
@[simp] theorem enqueue_waiting (r : AgentReq) : (b.enqueue r).waiting = b.waiting := by
  unfold enqueue; dsimp only; split <;> rfl
@[simp] theorem enqueue_retired (r : AgentReq) : (b.enqueue r).retired = b.retired := by
  unfold enqueue; dsimp only; split <;> rfl
@[simp] theorem enqueue_words (r : AgentReq) : (b.enqueue r).words = b.words := by
  unfold enqueue; dsimp only; split <;> rfl
@[simp] theorem enqueue_orphanNext (r : AgentReq) : (b.enqueue r).orphanNext = b.orphanNext := by
  unfold enqueue; dsimp only; split <;> rfl
@[simp] theorem enqueue_heldBack (r : AgentReq) : (b.enqueue r).heldBack = b.heldBack := by
  unfold enqueue; dsimp only; split <;> rfl
@[simp] theorem enqueue_flows (r : AgentReq) : (b.enqueue r).flows = b.flows := by
  unfold enqueue; dsimp only; split <;> rfl
@[simp] theorem enqueue_nextFlow (r : AgentReq) : (b.enqueue r).nextFlow = b.nextFlow := by
  unfold enqueue; dsimp only; split <;> rfl
@[simp] theorem enqueue_contexts (r : AgentReq) : (b.enqueue r).contexts = b.contexts := by
  unfold enqueue; dsimp only; split <;> rfl
@[simp] theorem enqueue_cache (r : AgentReq) : (b.enqueue r).cache = b.cache := by
  unfold enqueue; dsimp only; split <;> rfl
@[simp] theorem enqueue_north (r : AgentReq) : (b.enqueue r).north = b.north := by
  unfold enqueue; dsimp only; split <;> rfl
@[simp] theorem enqueue_south (r : AgentReq) : (b.enqueue r).south = b.south := by
  unfold enqueue; dsimp only; split <;> rfl
@[simp] theorem enqueue_streams (r : AgentReq) : (b.enqueue r).streams = b.streams := by
  unfold enqueue; dsimp only; split <;> rfl
@[simp] theorem enqueue_seryo (r : AgentReq) : (b.enqueue r).seryo = b.seryo := by
  unfold enqueue; dsimp only; split <;> rfl
@[simp] theorem enqueue_dict (r : AgentReq) : (b.enqueue r).dict = b.dict := by
  unfold enqueue; dsimp only; split <;> rfl
@[simp] theorem enqueue_faults (r : AgentReq) : (b.enqueue r).faults = b.faults := by
  unfold enqueue; dsimp only; split <;> rfl
@[simp] theorem enqueue_startUp (r : AgentReq) : (b.enqueue r).startUp = b.startUp := by
  unfold enqueue; dsimp only; split <;> rfl
@[simp] theorem enqueue_power (r : AgentReq) : (b.enqueue r).power = b.power := by
  unfold enqueue; dsimp only; split <;> rfl

/-! ### request changes `od`, `agents`, `heldBack` alone -/

@[simp] theorem request_time (r : AgentReq) : (b.request r).time = b.time := by
  unfold request; split; rfl; exact enqueue_time b r
@[simp] theorem request_posted (r : AgentReq) : (b.request r).posted = b.posted := by
  unfold request; split; rfl; exact enqueue_posted b r
@[simp] theorem request_raised (r : AgentReq) : (b.request r).raised = b.raised := by
  unfold request; split; rfl; exact enqueue_raised b r
@[simp] theorem request_blocked (r : AgentReq) : (b.request r).blocked = b.blocked := by
  unfold request; split; rfl; exact enqueue_blocked b r
@[simp] theorem request_freeCount (r : AgentReq) : (b.request r).freeCount = b.freeCount := by
  unfold request; split; rfl; exact enqueue_freeCount b r
@[simp] theorem request_rings (r : AgentReq) : (b.request r).rings = b.rings := by
  unfold request; split; rfl; exact enqueue_rings b r
@[simp] theorem request_cqs (r : AgentReq) : (b.request r).cqs = b.cqs := by
  unfold request; split; rfl; exact enqueue_cqs b r
@[simp] theorem request_rotor (r : AgentReq) : (b.request r).rotor = b.rotor := by
  unfold request; split; rfl; exact enqueue_rotor b r
@[simp] theorem request_turns (r : AgentReq) : (b.request r).turns = b.turns := by
  unfold request; split; rfl; exact enqueue_turns b r
@[simp] theorem request_waiting (r : AgentReq) : (b.request r).waiting = b.waiting := by
  unfold request; split; rfl; exact enqueue_waiting b r
@[simp] theorem request_retired (r : AgentReq) : (b.request r).retired = b.retired := by
  unfold request; split; rfl; exact enqueue_retired b r
@[simp] theorem request_words (r : AgentReq) : (b.request r).words = b.words := by
  unfold request; split; rfl; exact enqueue_words b r
@[simp] theorem request_orphanNext (r : AgentReq) : (b.request r).orphanNext = b.orphanNext := by
  unfold request; split; rfl; exact enqueue_orphanNext b r
@[simp] theorem request_flows (r : AgentReq) : (b.request r).flows = b.flows := by
  unfold request; split; rfl; exact enqueue_flows b r
@[simp] theorem request_nextFlow (r : AgentReq) : (b.request r).nextFlow = b.nextFlow := by
  unfold request; split; rfl; exact enqueue_nextFlow b r
@[simp] theorem request_contexts (r : AgentReq) : (b.request r).contexts = b.contexts := by
  unfold request; split; rfl; exact enqueue_contexts b r
@[simp] theorem request_cache (r : AgentReq) : (b.request r).cache = b.cache := by
  unfold request; split; rfl; exact enqueue_cache b r
@[simp] theorem request_north (r : AgentReq) : (b.request r).north = b.north := by
  unfold request; split; rfl; exact enqueue_north b r
@[simp] theorem request_south (r : AgentReq) : (b.request r).south = b.south := by
  unfold request; split; rfl; exact enqueue_south b r
@[simp] theorem request_streams (r : AgentReq) : (b.request r).streams = b.streams := by
  unfold request; split; rfl; exact enqueue_streams b r
@[simp] theorem request_seryo (r : AgentReq) : (b.request r).seryo = b.seryo := by
  unfold request; split; rfl; exact enqueue_seryo b r
@[simp] theorem request_dict (r : AgentReq) : (b.request r).dict = b.dict := by
  unfold request; split; rfl; exact enqueue_dict b r
@[simp] theorem request_faults (r : AgentReq) : (b.request r).faults = b.faults := by
  unfold request; split; rfl; exact enqueue_faults b r
@[simp] theorem request_startUp (r : AgentReq) : (b.request r).startUp = b.startUp := by
  unfold request; split; rfl; exact enqueue_startUp b r
@[simp] theorem request_power (r : AgentReq) : (b.request r).power = b.power := by
  unfold request; split; rfl; exact enqueue_power b r

/-! ### dropRing changes `rings`, `retired` alone -/

@[simp] theorem dropRing_time (n : Nat) : (b.dropRing n).time = b.time := by
  unfold dropRing; split <;> rfl
@[simp] theorem dropRing_od (n : Nat) : (b.dropRing n).od = b.od := by
  unfold dropRing; split <;> rfl
@[simp] theorem dropRing_posted (n : Nat) : (b.dropRing n).posted = b.posted := by
  unfold dropRing; split <;> rfl
@[simp] theorem dropRing_raised (n : Nat) : (b.dropRing n).raised = b.raised := by
  unfold dropRing; split <;> rfl
@[simp] theorem dropRing_blocked (n : Nat) : (b.dropRing n).blocked = b.blocked := by
  unfold dropRing; split <;> rfl
@[simp] theorem dropRing_freeCount (n : Nat) : (b.dropRing n).freeCount = b.freeCount := by
  unfold dropRing; split <;> rfl
@[simp] theorem dropRing_cqs (n : Nat) : (b.dropRing n).cqs = b.cqs := by
  unfold dropRing; split <;> rfl
@[simp] theorem dropRing_rotor (n : Nat) : (b.dropRing n).rotor = b.rotor := by
  unfold dropRing; split <;> rfl
@[simp] theorem dropRing_turns (n : Nat) : (b.dropRing n).turns = b.turns := by
  unfold dropRing; split <;> rfl
@[simp] theorem dropRing_waiting (n : Nat) : (b.dropRing n).waiting = b.waiting := by
  unfold dropRing; split <;> rfl
@[simp] theorem dropRing_words (n : Nat) : (b.dropRing n).words = b.words := by
  unfold dropRing; split <;> rfl
@[simp] theorem dropRing_orphanNext (n : Nat) : (b.dropRing n).orphanNext = b.orphanNext := by
  unfold dropRing; split <;> rfl
@[simp] theorem dropRing_heldBack (n : Nat) : (b.dropRing n).heldBack = b.heldBack := by
  unfold dropRing; split <;> rfl
@[simp] theorem dropRing_flows (n : Nat) : (b.dropRing n).flows = b.flows := by
  unfold dropRing; split <;> rfl
@[simp] theorem dropRing_nextFlow (n : Nat) : (b.dropRing n).nextFlow = b.nextFlow := by
  unfold dropRing; split <;> rfl
@[simp] theorem dropRing_contexts (n : Nat) : (b.dropRing n).contexts = b.contexts := by
  unfold dropRing; split <;> rfl
@[simp] theorem dropRing_agents (n : Nat) : (b.dropRing n).agents = b.agents := by
  unfold dropRing; split <;> rfl
@[simp] theorem dropRing_cache (n : Nat) : (b.dropRing n).cache = b.cache := by
  unfold dropRing; split <;> rfl
@[simp] theorem dropRing_north (n : Nat) : (b.dropRing n).north = b.north := by
  unfold dropRing; split <;> rfl
@[simp] theorem dropRing_south (n : Nat) : (b.dropRing n).south = b.south := by
  unfold dropRing; split <;> rfl
@[simp] theorem dropRing_streams (n : Nat) : (b.dropRing n).streams = b.streams := by
  unfold dropRing; split <;> rfl
@[simp] theorem dropRing_seryo (n : Nat) : (b.dropRing n).seryo = b.seryo := by
  unfold dropRing; split <;> rfl
@[simp] theorem dropRing_dict (n : Nat) : (b.dropRing n).dict = b.dict := by
  unfold dropRing; split <;> rfl
@[simp] theorem dropRing_faults (n : Nat) : (b.dropRing n).faults = b.faults := by
  unfold dropRing; split <;> rfl
@[simp] theorem dropRing_startUp (n : Nat) : (b.dropRing n).startUp = b.startUp := by
  unfold dropRing; split <;> rfl
@[simp] theorem dropRing_power (n : Nat) : (b.dropRing n).power = b.power := by
  unfold dropRing; split <;> rfl

/-! ### A fresh number -/

@[simp] theorem fresh_time : b.fresh.2.time = b.time := rfl
@[simp] theorem fresh_od : b.fresh.2.od = b.od := rfl
@[simp] theorem fresh_posted : b.fresh.2.posted = b.posted := rfl
@[simp] theorem fresh_raised : b.fresh.2.raised = b.raised := rfl
@[simp] theorem fresh_blocked : b.fresh.2.blocked = b.blocked := rfl
@[simp] theorem fresh_rings : b.fresh.2.rings = b.rings := rfl
@[simp] theorem fresh_cqs : b.fresh.2.cqs = b.cqs := rfl
@[simp] theorem fresh_rotor : b.fresh.2.rotor = b.rotor := rfl
@[simp] theorem fresh_turns : b.fresh.2.turns = b.turns := rfl
@[simp] theorem fresh_waiting : b.fresh.2.waiting = b.waiting := rfl
@[simp] theorem fresh_retired : b.fresh.2.retired = b.retired := rfl
@[simp] theorem fresh_words : b.fresh.2.words = b.words := rfl
@[simp] theorem fresh_orphanNext : b.fresh.2.orphanNext = b.orphanNext := rfl
@[simp] theorem fresh_heldBack : b.fresh.2.heldBack = b.heldBack := rfl
@[simp] theorem fresh_flows : b.fresh.2.flows = b.flows := rfl
@[simp] theorem fresh_nextFlow : b.fresh.2.nextFlow = b.nextFlow := rfl
@[simp] theorem fresh_contexts : b.fresh.2.contexts = b.contexts := rfl
@[simp] theorem fresh_agents : b.fresh.2.agents = b.agents := rfl
@[simp] theorem fresh_cache : b.fresh.2.cache = b.cache := rfl
@[simp] theorem fresh_north : b.fresh.2.north = b.north := rfl
@[simp] theorem fresh_south : b.fresh.2.south = b.south := rfl
@[simp] theorem fresh_streams : b.fresh.2.streams = b.streams := rfl
@[simp] theorem fresh_seryo : b.fresh.2.seryo = b.seryo := rfl
@[simp] theorem fresh_dict : b.fresh.2.dict = b.dict := rfl
@[simp] theorem fresh_faults : b.fresh.2.faults = b.faults := rfl
@[simp] theorem fresh_startUp : b.fresh.2.startUp = b.startUp := rfl
@[simp] theorem fresh_power : b.fresh.2.power = b.power := rfl

end Sys2Proof.Machine.Block
end

