-- ==== Sys2Proof/Laws/Maps.lean ====
section
/-! SUPPORT. Canonical maps and the values of the dictionary: what reads after a write. -/

namespace Sys2Proof.Machine

/-! ### Maps -/

theorem find?_filter_of_imp {α : Type} (p q : α → Bool) (l : List α) (h : ∀ x, p x = true → q x = true) :
    (l.filter q).find? p = l.find? p := by
  induction l with
  | nil => rfl
  | cons x xs ih =>
    by_cases hq : q x = true
    · simp [hq, List.find?_cons, ih]
    · have hp : p x = false := by
        cases hx : p x
        · rfl
        · exact absurd (h x hx) hq
      simp [hq, hp, ih]

theorem find?_filter_of_not {α : Type} (p q : α → Bool) (l : List α) (h : ∀ x, p x = true → q x = false) :
    (l.filter q).find? p = none := by
  rw [List.find?_eq_none]
  intro x hx hp
  have := (List.mem_filter.1 hx).2
  rw [h x hp] at this
  exact absurd this (by simp)

theorem mapFind_set_self (m : NatMap) (d k v : Nat) (h : v ≠ d) : mapFind (mapSet m d k v) k = some v := by
  unfold mapFind mapSet
  simp only [beq_iff_eq, h, if_false, List.find?_append]
  rw [find?_filter_of_not (fun e : Nat × Nat => e.1 == k) (fun e => decide (e.1 < k)) m
    (fun x hx => by simp at hx; simp [hx])]
  simp

theorem mapFind_set_default (m : NatMap) (d k : Nat) : mapFind (mapSet m d k d) k = none := by
  unfold mapFind mapSet mapErase
  simp only [beq_self_eq_true, if_true]
  rw [find?_filter_of_not (fun e : Nat × Nat => e.1 == k) (fun e => e.1 != k) m (fun x hx => by simp at hx; simp [hx])]
  rfl

theorem mapFind_set_other (m : NatMap) (d k v k' : Nat) (h : k' ≠ k) : mapFind (mapSet m d k v) k' = mapFind m k' := by
  unfold mapFind mapSet mapErase
  by_cases hv : v = d
  · simp only [hv, beq_self_eq_true, if_true]
    rw [find?_filter_of_imp _ _ _ (fun x hx => by simp at hx; simp [hx, h])]
  · simp only [beq_iff_eq, hv, if_false, List.find?_append, List.find?_cons]
    have hk : (k == k') = false := by simp [Ne.symm h]
    simp only [hk]
    rcases Nat.lt_or_gt_of_ne h with hlt | hgt
    · rw [find?_filter_of_imp (fun e : Nat × Nat => e.1 == k') _ m (fun x hx => by simp at hx; simp [hx, hlt]),
        find?_filter_of_not (fun e : Nat × Nat => e.1 == k') (fun e => decide (k < e.1)) m
          (fun x hx => by simp at hx; simp [hx]; omega)]
      simp
    · rw [find?_filter_of_not (fun e : Nat × Nat => e.1 == k') (fun e => decide (e.1 < k)) m
          (fun x hx => by simp at hx; simp [hx]; omega),
        find?_filter_of_imp (fun e : Nat × Nat => e.1 == k') _ m (fun x hx => by simp at hx; simp [hx, hgt])]
      simp

/-- A key set reads as its value. -/
@[simp] theorem mapGet_set_self (m : NatMap) (d k v : Nat) : mapGet (mapSet m d k v) d k = v := by
  unfold mapGet
  by_cases h : v = d
  · subst h; simp [mapFind_set_default]
  · simp [mapFind_set_self m d k v h]

/-- Another key reads as before. -/
theorem mapGet_set_other (m : NatMap) (d k v k' : Nat) (h : k' ≠ k) : mapGet (mapSet m d k v) d k' = mapGet m d k' := by
  simp [mapGet, mapFind_set_other m d k v k' h]

/-! ### Dictionary values -/

/-- Keys of two entries with subindices in range agree only for one entry. -/
theorem odKey_inj {i j i' j' : Nat} (h : j < 256) (h' : j' < 256) : odKey i j = odKey i' j' ↔ i = i' ∧ j = j' := by
  unfold odKey; omega

namespace Block

/-- Defaults depend on no entry but the configuration and the package number (R470). -/
theorem odDefault_set (b : Block) (k v key : Nat) (h1 : k ≠ odKey 0x1000 6) (h2 : k ≠ odKey 0x2700 1) :
    ({ b with od := mapSet b.od (b.odDefault k) k v } : Block).odDefault key = b.odDefault key := by
  unfold odDefault
  cases odFind key with
  | none => rfl
  | some r =>
    simp only [mapGet, mapFind_set_other _ _ _ _ _ (Ne.symm h1), mapFind_set_other _ _ _ _ _ (Ne.symm h2)]

/-- The default of an entry does not depend on the entry itself. -/
theorem odDefault_self (b : Block) (k v : Nat) :
    ({ b with od := mapSet b.od (b.odDefault k) k v } : Block).odDefault k = b.odDefault k := by
  by_cases h1 : k = odKey 0x1000 6
  · subst h1; unfold odDefault; rfl
  · by_cases h2 : k = odKey 0x2700 1
    · subst h2; unfold odDefault
      simp only [mapGet, mapFind_set_other _ _ _ _ _ (Ne.symm h1)]
      cases odFind (odKey 0x2700 1) with
      | none => rfl
      | some r => rfl
    · exact odDefault_set b k v k h1 h2

/-- An entry that has been set reads as its value. -/
@[simp] theorem setOd_self (b : Block) (i j v : Nat) : (b.setOd i j v).od' i j = v := by
  unfold od'
  rw [show (b.setOd i j v).odDefault (odKey i j) = b.odDefault (odKey i j) from odDefault_self b (odKey i j) v]
  show (mapFind (mapSet b.od (b.odDefault (odKey i j)) (odKey i j) v) (odKey i j)).getD _ = v
  by_cases h : v = b.odDefault (odKey i j)
  · rw [← h, mapFind_set_default]; rfl
  · rw [mapFind_set_self _ _ _ _ h]; rfl

/-- Any other entry reads as before, unless the configuration or the package number was set. -/
theorem setOd_other (b : Block) (i j v i' j' : Nat) (h : odKey i' j' ≠ odKey i j) (h1 : odKey i j ≠ odKey 0x1000 6)
    (h2 : odKey i j ≠ odKey 0x2700 1) : (b.setOd i j v).od' i' j' = b.od' i' j' := by
  unfold od'
  rw [show (b.setOd i j v).odDefault (odKey i' j') = b.odDefault (odKey i' j') from
    odDefault_set b (odKey i j) v (odKey i' j') h1 h2]
  show (mapFind (mapSet b.od (b.odDefault (odKey i j)) (odKey i j) v) (odKey i' j')).getD _ = _
  rw [mapFind_set_other _ _ _ _ _ h]

/-- A counter reads as its old value and what was added. -/
@[simp] theorem count_self (b : Block) (i j n : Nat) : (b.count i j n).od' i j = add64 (b.od' i j) n := setOd_self ..

/-- Any other entry reads as before a count. -/
theorem count_other (b : Block) (i j n i' j' : Nat) (h : odKey i' j' ≠ odKey i j) (h1 : odKey i j ≠ odKey 0x1000 6)
    (h2 : odKey i j ≠ odKey 0x2700 1) : (b.count i j n).od' i' j' = b.od' i' j' := setOd_other b i j _ i' j' h h1 h2

/-- A value is a function of the listed values alone. -/
theorem od'_congr (b c : Block) (h : b.od = c.od) (i j : Nat) : b.od' i j = c.od' i j := by
  unfold od' odDefault; rw [h]

end Block

end Sys2Proof.Machine
end

