-- ==== Sys2Proof/Laws/Memory.lean ====
section
/-! SUPPORT. Memory: its canonical form is kept by every operation on it, a byte written reads back, and no other byte
changes. -/

namespace Sys2Proof.Machine

/-! ### The cells of a run of bytes -/

theorem memCells_range (a : Nat) (d : Bytes) : ∀ c ∈ memCells a d, a ≤ c.1 ∧ c.1 < a + d.length := by
  induction d generalizing a with
  | nil => intro c hc; simp [memCells] at hc
  | cons x xs ih =>
    intro c hc
    unfold memCells at hc
    split at hc
    · have := ih (a + 1) c hc; simp only [List.length_cons]; omega
    · rcases List.mem_cons.1 hc with rfl | hc
      · simp
      · have := ih (a + 1) c hc; simp only [List.length_cons]; omega

theorem memCells_wf (a : Nat) (d : Bytes) : Memory.wf (memCells a d) := by
  induction d generalizing a with
  | nil => simp [memCells, Memory.wf]
  | cons x xs ih =>
    unfold memCells
    split
    · exact ih (a + 1)
    · rename_i hx
      refine ⟨List.Pairwise.cons (fun c hc => ?_) (ih (a + 1)).1, fun c hc => ?_⟩
      · have := memCells_range (a + 1) xs c hc
        show a < c.1
        omega
      · rcases List.mem_cons.1 hc with rfl | hc
        · simpa using hx
        · exact (ih (a + 1)).2 c hc

/-- A write keeps the canonical form. -/
theorem memWrite_wf (m : Memory) (a : Nat) (d : Bytes) (h : m.wf) : (memWrite m a d).wf := by
  have hc := memCells_wf a d
  unfold memWrite
  refine ⟨?_, ?_⟩
  · rw [List.pairwise_append, List.pairwise_append]
    refine ⟨⟨h.1.filter _, hc.1, ?_⟩, h.1.filter _, ?_⟩
    · intro x hx y hy
      have h1 : x.1 < a := by simpa using (List.mem_filter.1 hx).2
      have h2 := memCells_range a d y hy
      omega
    · intro x hx y hy
      have h2 : a + d.length ≤ y.1 := by simpa using (List.mem_filter.1 hy).2
      rcases List.mem_append.1 hx with hx | hx
      · have h1 : x.1 < a := by simpa using (List.mem_filter.1 hx).2
        omega
      · have h1 := memCells_range a d x hx
        omega
  · intro c hc'
    rcases List.mem_append.1 hc' with hc' | hc'
    · rcases List.mem_append.1 hc' with hc' | hc'
      · exact h.2 c (List.mem_filter.1 hc').1
      · exact hc.2 c hc'
    · exact h.2 c (List.mem_filter.1 hc').1

/-- The writes of a step keep the canonical form. -/
theorem land_wf (ws : List Store) (m : Memory) (h : m.wf) : (land m ws).wf := by
  unfold land
  induction ws generalizing m with
  | nil => exact h
  | cons w ws ih => exact ih _ (memWrite_wf m w.addr w.data h)

/-- Losing the tiers keeps the canonical form. -/
theorem tiersLost_wf (m : Memory) (h : m.wf) : (tiersLost m).wf :=
  ⟨h.1.filter _, fun c hc => h.2 c (List.mem_filter.1 hc).1⟩

/-! ### Reading after a write -/

theorem memByte_append (m n : Memory) (x : Nat) (h : ∀ c ∈ m, c.1 ≠ x) : memByte (m ++ n) x = memByte n x := by
  unfold memByte
  rw [List.find?_append, show m.find? (fun c => c.1 == x) = none from by
    rw [List.find?_eq_none]; intro c hc; simp [h c hc]]
  rfl

theorem memByte_append_left (m n : Memory) (x : Nat) (h : ∀ c ∈ n, c.1 ≠ x) : memByte (m ++ n) x = memByte m x := by
  unfold memByte
  rw [List.find?_append, show n.find? (fun c => c.1 == x) = none from by
    rw [List.find?_eq_none]; intro c hc; simp [h c hc]]
  simp

theorem memByte_cells (a : Nat) (d : Bytes) (i : Nat) (h : i < d.length) : memByte (memCells a d) (a + i) = d[i] := by
  induction d generalizing a i with
  | nil => simp at h
  | cons x xs ih =>
    have hmiss : ∀ c ∈ memCells (a + 1) xs, c.1 ≠ a := fun c hc => by
      have := memCells_range (a + 1) xs c hc; omega
    unfold memCells
    cases i with
    | zero =>
      split
      · rename_i hx
        have : memByte (memCells (a + 1) xs) a = 0 := by
          unfold memByte
          rw [show (memCells (a + 1) xs).find? (fun c => c.1 == a) = none from by
            rw [List.find?_eq_none]; intro c hc; simp [hmiss c hc]]
          rfl
        simpa [this] using (by simpa using hx : x = 0).symm
      · simp [memByte]
    | succ k =>
      have hk : k < xs.length := by simpa using h
      have := ih (a + 1) k hk
      rw [show a + 1 + k = a + (k + 1) from by omega] at this
      split
      · simpa using this
      · rw [show ((a, x) :: memCells (a + 1) xs) = [(a, x)] ++ memCells (a + 1) xs from rfl,
          memByte_append _ _ _ (by simp)]
        simpa using this

/-- A byte written reads back. -/
theorem memByte_write_in (m : Memory) (a : Nat) (d : Bytes) (i : Nat) (h : i < d.length) :
    memByte (memWrite m a d) (a + i) = d[i] := by
  unfold memWrite
  rw [List.append_assoc, memByte_append _ _ _ (fun c hc => by
    have : c.1 < a := by simpa using (List.mem_filter.1 hc).2
    omega), memByte_append_left _ _ _ (fun c hc => by
    have : a + d.length ≤ c.1 := by simpa using (List.mem_filter.1 hc).2
    omega)]
  exact memByte_cells a d i h

/-- A byte outside a write reads as before. -/
theorem memByte_write_out (m : Memory) (a : Nat) (d : Bytes) (x : Nat) (h : x < a ∨ a + d.length ≤ x) :
    memByte (memWrite m a d) x = memByte m x := by
  have hcells : ∀ c ∈ memCells a d, c.1 ≠ x := fun c hc => by
    have := memCells_range a d c hc; omega
  unfold memWrite
  rcases h with h | h
  · rw [List.append_assoc, memByte_append_left _ _ _ (fun c hc => by
      rcases List.mem_append.1 hc with hc | hc
      · exact hcells c hc
      · have : a + d.length ≤ c.1 := by simpa using (List.mem_filter.1 hc).2
        omega)]
    unfold memByte
    rw [find?_filter_of_imp _ _ _ (fun c hc => by simp at hc; simp [hc, h])]
  · rw [memByte_append _ _ _ (fun c hc => by
      rcases List.mem_append.1 hc with hc | hc
      · have : c.1 < a := by simpa using (List.mem_filter.1 hc).2
        omega
      · exact hcells c hc)]
    unfold memByte
    rw [find?_filter_of_imp _ _ _ (fun c hc => by simp at hc; simp [hc, h])]

/-- A byte of a run that is read. -/
theorem memRead_getElem (m : Memory) (a len i : Nat) (h : i < len) :
    (memRead m a len)[i]? = some (memByte m (a + i)) := by
  unfold memRead
  simp only [List.getElem?_map, List.getElem?_range h, Option.map_some, Option.some.injEq]
  unfold memByte
  rw [find?_filter_of_imp _ _ _ (fun c hc => by simp at hc; simp [hc]; omega)]

/-- As many bytes are read as are asked for. -/
@[simp] theorem memRead_length (m : Memory) (a len : Nat) : (memRead m a len).length = len := by simp [memRead]

end Sys2Proof.Machine
end

