-- ==== Sys2Proof/Laws/Ops.lean ====
section
/-! SUPPORT. What the shared operations can do, once for all: the end of a step, held reads, a step of a ring command, a
request of a port, a write in the dictionary window. -/

namespace Sys2Proof.Machine

/-! ### The end of a step -/

/-- A port that has nothing to tell sends nothing. -/
theorem idleFill_quiet (b : Block) (n : Nat) (h : Block.mustSend (b.port n) = false) : b.idleFill n = b := by
  unfold Block.idleFill
  generalize 5 + (b.port n).owed.sum = k
  cases k <;> simp [Block.idleOut, h]

/-- Ports that are quiet send nothing. -/
theorem idleAll_quiet (b : Block) (h : b.portsQuiet) : b.idleAll = b := by
  unfold Block.idleAll
  suffices ∀ l : List Nat, (∀ n ∈ l, (b.portState n = psTraining ∨ b.portUp n = true) → Block.mustSend (b.port n) = false) →
      l.foldl (fun b n => if b.portState n == psTraining || b.portUp n then b.idleFill n else b) b = b from this _ h
  intro l
  induction l with
  | nil => intro _; rfl
  | cons n l ih =>
    intro hl
    have hn : (if b.portState n == psTraining || b.portUp n then b.idleFill n else b) = b := by
      split
      · rename_i hs
        refine idleFill_quiet b n (hl n List.mem_cons_self ?_)
        simpa using hs
      · rfl
    rw [List.foldl_cons, hn]
    exact ih (fun k hk => hl k (List.mem_cons_of_mem _ hk))

/-- Where nothing is held back, nothing is let go. -/
theorem releaseBack_quiet (b : Block) (h : b.heldBack = []) : b.releaseBack = b := by
  unfold Block.releaseBack
  simp [h]

/-- The end of a quiet step shows the old flows and does nothing else. -/
theorem settle_quiet (b : Block) (h : b.Quiet) :
    b.settle = { b.setOd 0x2202 0x0D b.oldFlows with blocked := false } := by
  have hb : { b with raised := [] } = b := by cases b; cases h.1; rfl
  have hq : (b.setOd 0x2202 0x0D b.oldFlows).portsQuiet := by
    intro n hn hs
    have hp : ∀ k, (b.setOd 0x2202 0x0D b.oldFlows).portState k = b.portState k := by
      intro k
      unfold Block.portState
      refine Block.setOd_other _ _ _ _ _ _ ?_ ?_ ?_ <;> simp [odKey]
      omega
    refine h.2.2 n hn ?_
    unfold Block.portUp at hs ⊢
    rwa [hp] at hs
  unfold Block.settle
  rw [h.1, List.foldl_nil, hb, releaseBack_quiet b h.2.1]
  unfold Block.showOld
  change { (b.setOd 0x2202 0x0D b.oldFlows).idleAll with blocked := false } = _
  rw [idleAll_quiet _ hq]

theorem finish_quiet (s : State) (b : Block) (h : b.Quiet) : finish s b = .next (quietEnd s b) := by
  unfold finish landed
  rw [settle_quiet b h]
  rfl

theorem finishRead_quiet (s : State) (b : Block) (hb : b.blocked = false) (h : b.Quiet) :
    finishRead s b = .next (quietEnd s b) := by
  unfold finishRead
  rw [hb]
  exact finish_quiet s b h

@[simp] theorem quietEnd_pending (s : State) (b : Block) : (quietEnd s b).pending = s.pending := rfl
@[simp] theorem quietEnd_mem (s : State) (b : Block) : (quietEnd s b).mem = land s.mem b.posted := rfl
theorem quietEnd_od (s : State) (b : Block) (i j : Nat) (h : odKey i j ≠ odKey 0x2202 0x0D) :
    (quietEnd s b).blk.od' i j = b.od' i j := by
  have h1 : (quietEnd s b).blk.od' i j = (b.setOd 0x2202 0x0D b.oldFlows).od' i j := Block.od'_congr _ _ rfl i j
  rw [h1]
  exact Block.setOd_other _ _ _ _ _ _ h (by decide) (by decide)

/-- A command answered by `finish` gives what its quiet end holds. -/
theorem gives_of_finish {c : Instr} {s : State} {b : Block} {P : State → Prop} (h : exec c s = finish s b)
    (hr : b.Quiet) (hP : P (quietEnd s b)) : Gives c s P :=
  ⟨quietEnd s b, by rw [h, finish_quiet s b hr], rfl, hP⟩

/-- A command answered by `finish` works as its block says. -/
theorem works_of_finish {c : Instr} {s : State} {b : Block} {P : Block → Prop} (h : exec c s = finish s b) (hP : P b) :
    Works c s P := ⟨b, h, hP⟩

/-- A quiet end changes the dictionary alone when the block it ends with does. -/
theorem onlyOd_quietEnd (s : State) (b : Block) (hs : Settled s) (h : { b with od := s.blk.od } = s.blk) :
    OnlyOd s (quietEnd s b) := by
  have hp : b.posted = [] := by have := congrArg Block.posted h; simpa [hs.1] using this
  have hb : b.blocked = false := by have := congrArg Block.blocked h; simpa [hs.2.1] using this
  have ha : b.agents = s.blk.agents := by have := congrArg Block.agents h; simpa using this
  have hi := hs.2.2.2
  refine ⟨by simp [hp, land], ?_⟩
  have hg : { b.agents with began := b.agents.moved, heldAt := none, heldRange := none } = b.agents := by
    rw [ha]
    obtain ⟨h1, h2, h3⟩ := hi
    cases hc : s.blk.agents
    simp_all
  calc { (quietEnd s b).blk with od := s.blk.od }
      = { b with od := s.blk.od, posted := [], blocked := false,
                 agents := { b.agents with began := b.agents.moved, heldAt := none, heldRange := none } } := rfl
    _ = { b with od := s.blk.od } := by rw [hg]; cases b; cases hp; cases hb; rfl
    _ = s.blk := h

/-- The entries that a quiet end leaves alone. -/
theorem odOnly_quietEnd (s : State) (b : Block) (ks : List (Nat × Nat))
    (h : ∀ i j, j < 256 → (i, j) ∉ ks → b.od' i j = s.blk.od' i j) : OdOnly s (quietEnd s b) ks := by
  intro i j hj hk hn
  rw [quietEnd_od s b i j (by rw [Ne, odKey_inj hj (by decide)]; simpa using hn)]
  exact h i j hj hk

end Sys2Proof.Machine
end

