-- ==== Sys2Proof/Laws/Answers.lean ====
section
/-! SUPPORT. Everything that a command can answer, said once: the state as it was, the mark of a held access, or the end
of a step. -/

namespace Sys2Proof.Machine

/-- A block that shows a wait: no write, no read that waits and no mark of the step is in it that was not there. -/
def Kept (b c : Block) : Prop :=
  c.posted = b.posted ∧ c.blocked = b.blocked ∧ c.agents.heldAt = b.agents.heldAt ∧
    c.agents.heldRange = b.agents.heldRange ∧ c.agents.began = b.agents.began ∧ c.agents.moved = b.agents.moved

/-- What a command answers where no address leaves the map. -/
inductive Answer (s : State) : Out → Prop
  /-- Nothing happens but that a wait is shown. -/
  | waits (b : Block) (h : Kept s.blk b) : Answer s (.next { s with blk := b })
  /-- The step ends with a block; the tiers may have lost their contents. -/
  | ended (m : Memory) (b : Block) (h : m = s.mem ∨ m = tiersLost s.mem) : Answer s (finish { s with mem := m } b)

theorem Answer.same {s : State} : Answer s (.next s) := .waits s.blk ⟨rfl, rfl, rfl, rfl, rfl, rfl⟩

theorem finish_answer (s : State) (b : Block) : Answer s (finish s b) := .ended s.mem b (.inl rfl)

/-- What a step that waits leaves behind shows the wait alone. -/
theorem waited_kept (b c : Block) (id : Option Nat) : Kept b (b.waited c id) := by
  unfold Block.waited
  dsimp only
  generalize List.filter (fun a => !b.cache.waits.contains a) c.cache.waits = n
  cases n <;> cases id <;> exact ⟨rfl, rfl, rfl, rfl, rfl, rfl⟩

theorem finishRead_answer (s : State) (b : Block) : Answer s (finishRead s b) := by
  unfold finishRead
  split
  · exact .waits _ (waited_kept _ _ _)
  · exact finish_answer _ _

theorem waitStep_answer (s : State) (id : Nat) (c : Block) : Answer s (waitStep s id c) := .waits _ (waited_kept _ _ _)

theorem workStep_answer (s : State) (id : Nat) (c e : Block) : Answer s (workStep s id c e) := by
  unfold workStep
  dsimp only
  split
  · exact waitStep_answer _ _ _
  · split
    · exact finish_answer _ _
    · split
      · exact waitStep_answer _ _ _
      · exact finish_answer _ _

theorem flowStep_answer (s : State) (id : Nat) (is : Flow → Bool) (work : Memory → Block → Flow → Block) :
    Answer s (flowStep s id is work) := by
  unfold flowStep
  split
  · exact .same
  · dsimp only
    split
    · split
      · exact .same
      · exact workStep_answer _ _ _ _
    · exact finish_answer _ _

theorem portStep_answer (s : State) (port : Nat) (perform : Memory → Block → AgentReq → Option Block) :
    Answer s (portStep s port perform) := by
  unfold portStep portWaits
  split
  · exact .same
  · split
    · exact .same
    · split
      · exact .same
      · split
        · exact .waits _ (waited_kept _ _ _)
        · split
          · exact .waits _ (waited_kept _ _ _)
          · exact finish_answer _ _

/-- Every command but one whose addresses leave the map answers in one of the three ways. -/
theorem exec_answer (c : Instr) (s : State) (h : ¬ LeavesMap c) : Answer s (exec c s) := by
  cases c
  case rowRead a n =>
    simp only [exec, execRowRead, beyondMap, show ¬ (2 ^ 52 < a + n) from h, decide_false]
    exact finishRead_answer _ _
  case blockRead a n =>
    simp only [exec, execBlockRead, beyondMap, show ¬ (2 ^ 52 < a + n) from h, decide_false]
    exact finishRead_answer _ _
  case rowFill a n =>
    simp only [exec, execRowFill, beyondMap, show ¬ (2 ^ 52 < a + 1) from h, decide_false]
    split
    · contradiction
    · split
      · exact .same
      · exact finishRead_answer _ _
  case coreRailGoodWithdrawn => exact .ended _ _ (.inr rfl)
  all_goals first
    | exact finish_answer _ _
    | exact finishRead_answer _ _
    | exact flowStep_answer _ _ _ _
    | exact portStep_answer _ _ _
    | skip
  all_goals dsimp only [exec]
  all_goals first
    | unfold execVectorTake
    | unfold execStreamRun
    | unfold execGenerationComplete
    | unfold execSatchelGrant
    | unfold execSatchelArrival
    | unfold execSatchelTake
    | unfold execStallCycle
    | unfold execBellTimeout
    | unfold execWaitTimeout
    | unfold execFenceTimeout
  all_goals try dsimp only
  all_goals repeat' (first | exact .same | exact finish_answer _ _ | exact workStep_answer _ _ _ _ | split)

end Sys2Proof.Machine
end

