-- ==== Sys2Proof/Laws/Bits.lean ====
section
/-! SUPPORT. Bit fields laid side by side, and bytes read back as the number they were written from. -/

namespace Sys2Proof.Machine

/-- Fields side by side are the sum of their values at their places. -/
theorem pack_sum (fs : List (Nat × Nat)) : pack fs = (fs.map (fun f => f.2 * 2 ^ f.1)).sum := by
  have h : ∀ acc, fs.foldl (fun acc f => acc + f.2 <<< f.1) acc = acc + (fs.map (fun f => f.2 * 2 ^ f.1)).sum := by
    induction fs with
    | nil => intro acc; simp
    | cons f fs ih =>
      intro acc
      rw [List.foldl_cons, ih, List.map_cons, List.sum_cons, Nat.shiftLeft_eq]
      omega
  unfold pack
  rw [h 0, Nat.zero_add]

theorem pack_nil : pack [] = 0 := rfl

/-- One field more. -/
theorem pack_cons (a v : Nat) (fs : List (Nat × Nat)) : pack ((a, v) :: fs) = v * 2 ^ a + pack fs := by
  rw [pack_sum, pack_sum, List.map_cons, List.sum_cons]

/-- A field as a quotient and a remainder. -/
theorem bits_eq (w hi lo : Nat) : bits w hi lo = w / 2 ^ lo % 2 ^ (hi + 1 - lo) := by
  unfold bits
  rw [Nat.shiftRight_eq_div_pow]

/-- One bit as a quotient and a remainder. -/
theorem bit_eq (w i : Nat) : bit w i = decide (w / 2 ^ i % 2 = 1) := Nat.testBit_eq_decide_div_mod_eq ..

theorem b2n_lt (q : Bool) : b2n q < 2 := by cases q <;> decide

theorem b2n_mod (q : Bool) : decide (b2n q % 2 = 1) = q := by cases q <;> rfl

@[simp] theorem natLE_length (len n : Nat) : (natLE len n).length = len := by
  induction len generalizing n with
  | zero => rfl
  | succ k ih => simp [natLE, ih]

/-- A number written in enough bytes reads back. -/
theorem leNat_natLE (len n : Nat) (h : n < 256 ^ len) : leNat (natLE len n) = n := by
  induction len generalizing n with
  | zero => simp at h; subst h; rfl
  | succ k ih =>
    have h1 : n / 256 < 256 ^ k := by rw [Nat.div_lt_iff_lt_mul (by norm_num)]; rw [pow_succ] at h; exact h
    show (BitVec.ofNat 8 n).toNat + 256 * leNat (natLE k (n / 256)) = n
    rw [ih _ h1, BitVec.toNat_ofNat]
    omega

end Sys2Proof.Machine
end

