-- ==== Sys2Proof/Laws/Window.lean ====
section
/-! SUPPORT. A write of an entry through the dictionary window, said once for the rows that are such a write. -/

namespace Sys2Proof.Machine

namespace Block

/-- A write of a whole slot is a write of its entry over the window, recorded. -/
theorem entryWrite_slot (m : Memory) (b : Block) (i j v : Nat) (hp : b.powered = true) (hi : 0x1000 ≤ i) (hi' : i < 0x3000)
    (hj : j < 256) :
    entryWrite m b i j v =
      (odWrite m b false (odKey i j) v).2.recordWindow (odWrite m b false (odKey i j) v).1 (odKey i j) := by
  have ho : (i - 0x1000) * 2048 + 8 * j < 0x0100_0000 := by omega
  have hk : odKey (0x1000 + ((i - 0x1000) * 2048 + 8 * j) / 2048) (((i - 0x1000) * 2048 + 8 * j) / 8 % 256) = odKey i j := by
    congr 1 <;> omega
  have h8 : ((i - 0x1000) * 2048 + 8 * j) % 8 = 0 := by omega
  unfold entryWrite windowWrite slotWrite
  simp [hp, ho, hk, h8]

/-- The window takes a write of an entry that software may write at any time, when its value is in range. -/
theorem odWrite_open (m : Memory) (b : Block) (i j v : Nat) (r : OdRow) (hs : b.engineState = 1 ∨ b.engineState = 2)
    (hw : b.od' 0x1100 3 ≠ 0) (hr : odFind (odKey i j) = some r) (ha : r.acc = .rw ∨ r.acc = .wo)
    (hm : mctpOnly (odKey i j) = false) (hv : odInRange (b.od' 0x1000 6) (odKey i j) r v = true) :
    odWrite m b false (odKey i j) v = writeEntry m b (odKey i j) v := by
  unfold odWrite
  have h1 : b.writesShut false (odKey i j) = false := by
    unfold writesShut Block.ready
    rcases hs with h | h <;> simp [h]
  rcases ha with h | h <;> simp [h1, hr, hm, hv, hw, h]

/-- What a window write of an open entry comes to. -/
theorem entryWrite_open (m : Memory) (b : Block) (i j v : Nat) (r : OdRow) (hp : b.powered = true) (hi : 0x1000 ≤ i)
    (hi' : i < 0x3000) (hj : j < 256) (hs : b.engineState = 1 ∨ b.engineState = 2) (hw : b.od' 0x1100 3 ≠ 0)
    (hr : odFind (odKey i j) = some r) (ha : r.acc = .rw ∨ r.acc = .wo) (hm : mctpOnly (odKey i j) = false)
    (hv : odInRange (b.od' 0x1000 6) (odKey i j) r v = true) :
    entryWrite m b i j v =
      (writeEntry m b (odKey i j) v).2.recordWindow (writeEntry m b (odKey i j) v).1 (odKey i j) := by
  rw [entryWrite_slot m b i j v hp hi hi' hj, odWrite_open m b i j v r hs hw hr ha hm hv]

@[simp] theorem recordWindow_raised (b : Block) (c k : Nat) : (b.recordWindow c k).raised = b.raised := by
  unfold recordWindow; simp only [count_raised, setOd_raised]
@[simp] theorem recordWindow_blocked (b : Block) (c k : Nat) : (b.recordWindow c k).blocked = b.blocked := by
  unfold recordWindow; simp only [count_blocked, setOd_blocked]
@[simp] theorem recordWindow_posted (b : Block) (c k : Nat) : (b.recordWindow c k).posted = b.posted := by
  unfold recordWindow; simp only [count_posted, setOd_posted]
@[simp] theorem recordWindow_flows (b : Block) (c k : Nat) : (b.recordWindow c k).flows = b.flows := by
  unfold recordWindow; simp only [count_flows, setOd_flows]

/-- The record of a window write takes three entries. -/
theorem recordWindow_other (b : Block) (c k i j : Nat) (hj : j < 256) (h : (i, j) ∉ windowKeys) :
    (b.recordWindow c k).od' i j = b.od' i j := by
  simp only [windowKeys, List.mem_cons, List.not_mem_nil, or_false, not_or, Prod.mk.injEq] at h
  unfold recordWindow
  rw [count_other, count_other, setOd_other] <;>
    first
      | decide
      | (rw [Ne, odKey_inj hj (by decide)]; simp_all)

end Block

end Sys2Proof.Machine
end

