-- ==== Sys2Proof/WellFormed.lean ====
section
/-! DEFINITION. Which operands a command may carry: the ranges the spec's unit numbers, addresses and field widths
give. A command outside them is no command of the block; exec still answers for it (most often by the spec's own
refusal), and only addresses beyond the map end in a fault. -/

namespace Sys2Proof

/-- A stream unit of R12: 32 in all. -/
def okSu (n : Nat) : Bool := n < 32

/-- A Seryo port of R416. -/
def okPort (n : Nat) : Bool := n < 32

/-- A channel agent of R321, or the host link. -/
def okAgent (n : Nat) : Bool := n ≤ 280

/-- An address range inside the map of R318. -/
def okRange (addr len : Nat) : Bool := addr + len ≤ 2 ^ 52

/-- A submission ring number of R116. -/
def okRing (n : Nat) : Bool := n < 2 ^ 18

/-- A completion ring number of R116. -/
def okCq (n : Nat) : Bool := n < 2 ^ 16

/-- A window access of R454 or R134: inside the 64 MiB window, 1 to 8 bytes, the value as wide as the access. -/
def okAccess (offset size value : Nat) : Bool :=
  offset + size ≤ 2 ^ 26 && 1 ≤ size && size ≤ 8 && value < 2 ^ (8 * size)

/-- Well-formed commands. -/
def Instr.wellFormed : Instr → Bool
  | .doorbellWrite o n v => okAccess o n v && 0x0100_0000 ≤ o && o < 0x0120_0000
  | .dictWrite o n v => okAccess o n v
  | .headerRecheck r => okRing r
  | .sqEnable r | .sqDisable r | .sqResume r | .sqAbort r => okRing r
  | .cqEnable c | .cqDisable c | .swHeadReread c | .coalTimeout c => okCq c
  | .rowRead a n | .blockRead a n => okRange a n && 1 ≤ n
  | .rowFill a h => okRange a 1 && h < 4
  | .blockWrite p | .crcWrite p | .writeBack p | .agentAdd p | .update p | .agentCommit p | .append p
  | .record p => okAgent p
  | .contextSwitch u => okSu u
  | .streamRun n | .generationComplete n => n < 128
  | .satchelGrant q | .satchelArrival q | .satchelTake q | .stallCycle _ q => q < 65536
  | .signalWordWrite n v => n < 4096 && v < 2 ^ 64
  | .stackTemperatureRead ts => ts.length == 8 && ts.all (· < 256)
  | .stackRetrain k | .stackHoldExpiry k => k < 8
  | .tierTrainingDone r u b => r.length == 8 && u.length == 8 && u.all (· < 2 ^ 32) && b < 2 ^ 24
  | .laneLock p | .lockLost p | .portSilence p | .ackProgressTimeout p | .helloTimeout p => okPort p
  | .codewordPair p f _ _ fs => okPort p && f < 2 ^ 40 && fs.length == 5
  | .idle p _ | .data p _ | .hello p _ | .nak p _ | .echo p _ | .echoReply p _ | .goodbye p _ => okPort p
  | .rgather p k | .rowdata p k | .radd p k | .rack p k | .grantReq p k | .grant p k | .tile p k | .tileAck p k
  | .beacon p k | .route p k | .forward p k => okPort p && k < 8
  | .mctpRead fs | .mctpWrite fs | .readBlock fs => fs.all (fun f => f.length ≤ 69)
  | .mctpControl f fs => (f :: fs).all (fun f => f.length ≤ 69)
  | .setOpen t o | .setCommit t o | .setAbort t o => t < 256 && o < 65536
  | .commitPoint t => 1 ≤ t && t ≤ 31
  | .reattachCqResume n | .reattachCqReset n => okCq n
  | .reattachSqResume n | .reattachSqReset n | .drop n => okRing n
  | .unitFence u | .unitRestore u => u < 65536
  | .faultAcknowledge n => n < 2 ^ 32
  | .injectionArm w => w < 2 ^ 32
  | .configurationHold _ v => v < 2 ^ 64
  | .portEnable _ m => m < 2 ^ 64
  | .overlapMode _ _ m => m < 2 ^ 64
  | .forwardingInTransit _ v => v < 2 ^ 64
  | .fault c u a d => c < 256 && u < 65536 && a < 2 ^ 52 && d < 2 ^ 32
  | .autoAck n => n < 64
  | .powerGrant _ _ q | .revoke _ _ q => q < 65536
  | .voltageChange mv => mv < 65536
  | .stepRateMeasure a b => a < 2 ^ 32 && b < 2 ^ 32
  | .junctionRead ts => ts.length == 18 && ts.all (· < 256)
  | .sensorFail i => i < 18
  | .configurationRecord i st _ => i < 2 ^ 128 && st < 65536
  | .linkUp e | .retrainEnd e | .epochChange e => e < 2 ^ 32
  | .gatherPool _ | .gatherRaw _ | .recall _ | .scatterAdd _ | .rowUpdateOpt _ | .rowCommit _ | .project _
  | .vecChain _ | .quantise _ | .calibrate _ | .blackboardLoad _ | .copy _ | .fence _ | .flush _ | .acquire _
  | .bell _ | .signal _ | .wait _ | .write _ | .arm _ | .cancel _ | .stop _ | .nop _ | .completionRecord _
  | .bellTimeout _ | .waitTimeout _ | .fenceTimeout _ => true
  | .dispatch | .shareWindow | .arrayPass _ | .tileDrain _ | .vectorTake _ | .beaconInterval | .wingReturn _
  | .orderedReset _ | .forcedReset _ | .islandStall _ | .bridgeDown | .leaseRenewal | .leaseLapse | .tokenClaim
  | .hallReturn _ | .passSilent _ | .hallPassWindow | .railLow | .coreRailGood | .rowCacheInitialised
  | .timebaseWaitExpiry | .retrainBegin | .holdExpired | .coreRailGoodWithdrawn => true

end Sys2Proof
end

