-- ==== Sys2Proof/Tests/Slice0.lean ====
section
/-! SUPPORT. Tests: what WellFormed refuses, figures and examples that the spec gives, and for each statement with
hypotheses a state and operands that meet them (`witness_<statement>`). -/

namespace Sys2Proof.Tests

open Sys2Proof.Machine

set_option maxRecDepth 100000

/-! ### Small states -/

/-- A READY block with both wings, every agent, and the host link up at epoch 7. -/
def onBlock : Block :=
  { Block.reset with
    od := [(odKey 0x1000 9, 3), (odKey 0x1000 0x10, 2 ^ 64 - 1), (odKey 0x1000 0x11, 2 ^ 64 - 1),
      (odKey 0x1000 0x12, 2 ^ 64 - 1), (odKey 0x1000 0x13, 2 ^ 64 - 1), (odKey 0x1000 0x14, 2 ^ 24 - 1), (odKey 0x2000 4, 2),
      (odKey 0x2202 1, 7), (odKey 0x2202 2, 1)],
    startUp := { Block.reset.startUp with step := 11, cacheReady := true, trained := true, timebaseSet := true, telemetry := true } }

/-- A state with a block and nothing in memory or in the queue. -/
def at' (b : Block) : State := { State.reset with blk := b }
/-- The READY state. -/
def on : State := at' onBlock
/-- A block with some entries at other values. -/
def odAt (b : Block) (l : List (Nat × Nat × Nat)) : Block := l.foldl (fun b x => b.setOd x.1 x.2.1 x.2.2) b
/-- Memory with some bytes from an address. -/
def memAt (a : Nat) (d : Bytes) : Memory := memCells a d

/-- A running flow 1 of stream unit 0 with an entry. -/
def flowOf (entry : Nat) : Flow := { Flow.blank 1 0 0 0 entry 7 0 0 none with stage := .running }
/-- A READY block with a flow in flight that has its stream unit's context. -/
def withFlow (b : Block) (f : Flow) : Block :=
  { b with flows := b.flows ++ [f], nextFlow := max b.nextFlow (f.id + 1), contexts := b.contexts ++ [(f.su, f.id)] }

/-! ### What WellFormed refuses: one command beside each check -/

theorem illFormed_access : Instr.wellFormed (.doorbellWrite 0x0100_0000 0 0) = false ∧
    Instr.wellFormed (.doorbellWrite 0x00FF_FFF8 8 0) = false ∧ Instr.wellFormed (.doorbellWrite 0x0120_0000 8 0) = false ∧
    Instr.wellFormed (.dictWrite 0x03FF_FFFC 8 0) = false ∧ Instr.wellFormed (.dictWrite 0 9 0) = false ∧
    Instr.wellFormed (.dictWrite 0 1 256) = false := by decide
theorem illFormed_numbers : Instr.wellFormed (.headerRecheck (2 ^ 18)) = false ∧ Instr.wellFormed (.sqEnable (2 ^ 18)) = false ∧
    Instr.wellFormed (.cqEnable 65536) = false ∧ Instr.wellFormed (.swHeadReread 65536) = false ∧
    Instr.wellFormed (.blockWrite 281) = false ∧ Instr.wellFormed (.contextSwitch 32) = false ∧
    Instr.wellFormed (.streamRun 128) = false ∧ Instr.wellFormed (.satchelGrant 65536) = false ∧
    Instr.wellFormed (.stallCycle 0 65536) = false ∧ Instr.wellFormed (.signalWordWrite 4096 0) = false ∧
    Instr.wellFormed (.signalWordWrite 0 (2 ^ 64)) = false ∧ Instr.wellFormed (.drop (2 ^ 18)) = false ∧
    Instr.wellFormed (.reattachCqReset 65536) = false ∧ Instr.wellFormed (.autoAck 64) = false := by decide
theorem illFormed_addresses : Instr.wellFormed (.rowRead (2 ^ 52) 1) = false ∧ Instr.wellFormed (.blockRead 0 0) = false ∧
    Instr.wellFormed (.rowFill (2 ^ 52) 1) = false ∧ Instr.wellFormed (.rowFill 0 4) = false := by decide
theorem illFormed_tiers : Instr.wellFormed (.stackTemperatureRead [20]) = false ∧
    Instr.wellFormed (.stackTemperatureRead [20, 20, 20, 20, 20, 20, 20, 256]) = false ∧
    Instr.wellFormed (.stackRetrain 8) = false ∧ Instr.wellFormed (.tierTrainingDone [] [] 0) = false ∧
    Instr.wellFormed (.tierTrainingDone [0, 0, 0, 0, 0, 0, 0, 0] [0, 0, 0, 0, 0, 0, 0, 2 ^ 32] 0) = false ∧
    Instr.wellFormed (.tierTrainingDone [0, 0, 0, 0, 0, 0, 0, 0] [0, 0, 0, 0, 0, 0, 0, 0] (2 ^ 24)) = false := by decide
theorem illFormed_ports : Instr.wellFormed (.laneLock 32) = false ∧ Instr.wellFormed (.rgather 32 0) = false ∧
    Instr.wellFormed (.forward 0 8) = false ∧ Instr.wellFormed (.codewordPair 0 (2 ^ 40) 0 true []) = false ∧
    Instr.wellFormed (.codewordPair 0 0 0 true []) = false ∧ Instr.wellFormed (.idle 32 0) = false := by decide
theorem illFormed_control : Instr.wellFormed (.mctpRead [zeros 70]) = false ∧ Instr.wellFormed (.mctpControl [] [zeros 70]) = false ∧
    Instr.wellFormed (.setOpen 256 0) = false ∧ Instr.wellFormed (.setAbort 0 65536) = false ∧
    Instr.wellFormed (.commitPoint 0) = false ∧ Instr.wellFormed (.commitPoint 32) = false ∧
    Instr.wellFormed (.unitFence 65536) = false ∧ Instr.wellFormed (.faultAcknowledge (2 ^ 32)) = false ∧
    Instr.wellFormed (.injectionArm (2 ^ 32)) = false ∧ Instr.wellFormed (.portEnable .window (2 ^ 64)) = false ∧
    Instr.wellFormed (.overlapMode .mctp .north (2 ^ 64)) = false ∧
    Instr.wellFormed (.forwardingInTransit .mctp (2 ^ 64)) = false ∧
    Instr.wellFormed (.configurationHold .mctp (2 ^ 64)) = false := by decide
theorem illFormed_rest : Instr.wellFormed (.fault 256 0 0 0) = false ∧ Instr.wellFormed (.fault 0 65536 0 0) = false ∧
    Instr.wellFormed (.fault 0 0 (2 ^ 52) 0) = false ∧ Instr.wellFormed (.fault 0 0 0 (2 ^ 32)) = false ∧
    Instr.wellFormed (.powerGrant .north 0 65536) = false ∧ Instr.wellFormed (.voltageChange 65536) = false ∧
    Instr.wellFormed (.stepRateMeasure (2 ^ 32) 0) = false ∧ Instr.wellFormed (.junctionRead []) = false ∧
    Instr.wellFormed (.sensorFail 18) = false ∧ Instr.wellFormed (.configurationRecord (2 ^ 128) 0 .noRecord) = false ∧
    Instr.wellFormed (.configurationRecord 0 65536 .noRecord) = false ∧ Instr.wellFormed (.linkUp (2 ^ 32)) = false := by decide

/-! ### Figures and examples that the spec states -/

/-- R338: the check value of CRC-32C. -/
theorem test_crc_check_value : crc32c [0x31, 0x32, 0x33, 0x34, 0x35, 0x36, 0x37, 0x38, 0x39] = 0xE306_9283 := by decide
/-- R321's example: agent 98 owns row 1,000,000. -/
theorem test_owner_example : agentOf 0x0130_0411_AAA0 = 98 := by decide
/-- R141's example: the NOP's first eight bytes pass the header check of a ring that expects phase 1. -/
theorem test_nop_header_example :
    Block.headerGood { number := 0, state := .active, desc := 0, head := 0, tail := 0, phase := true, epoch := none, tries := 0,
                       readAt := 0, bells := [] } (leNat [0x3F, 0x08, 0x61, 0x5E, 0x78, 0x56, 0x34, 0x12]) false = true := by decide
/-- R507's default of 1,000 µs. -/
theorem test_auto_ack_default : State.reset.blk.od' 0x2801 2 = 1000 := by decide
/-- R516's example: equal epochs leave the token with North, at epoch 42, and a LEASE record names South. -/
theorem test_lease_conflict_example :
    let b := odAt { onBlock with time := 11000, faults := { onBlock.faults with
      renewed := 7000, confirmed := 0, epochNorth := 41, epochSouth := 41, eventSeq := 0 } } [(0x2803, 2, 41)]
    (b.conflict.holderWing, b.conflict.od' 0x2803 2, b.conflict.raised) = (.north, 42, [(0x0B, 0x21, 0, false)]) := by decide
/-- A doorbell of a ring that is DISABLED is dropped and counted (R129, R153). -/
theorem test_doorbell_dropped : (onBlock.doorbell 0 8 1).od' 0x2201 3 = 1 := by decide

/-! ### Hypotheses that are met: the machine, records, addresses -/

theorem witness_StepRunsFrontCommand : ({ on with pending := [.shareWindow] } : State).pending = [.shareWindow] := rfl
theorem witness_EmptyQueueIdles : State.reset.pending = [] := rfl
theorem witness_ResetHoldsDefaults : odFind (odKey 0x2801 2) = some ⟨0x2801, 2, 2, .u32, .rw, 1000, 0, top64⟩ := by decide
theorem witness_EveryStepKeepsInvariant : Inv on ∧ step on = .next (idleStep on) := ⟨by decide, rfl⟩
theorem witness_EveryCommandAnswers : ¬ LeavesMap .shareWindow ∧ LeavesMap (.rowFill (2 ^ 52) 1) := by
  simp [LeavesMap]
theorem witness_QuietStepLandsItsWrites :
    let b : Block := { onBlock with posted := [⟨2 ^ 52 - 1, [5]⟩] }
    b.Quiet ∧ (∀ w ∈ b.posted, 0 < w.addr ∨ w.addr + w.data.length ≤ 0) := by decide
theorem witness_CompletionRecordFields :
    let w : WaitingRecord := { cq := 0, sq := 2 ^ 18 - 1, status := 0xFFFF, poison := true, late := true, detail := 0xFFFF,
                               tag := 2 ^ 32 - 1, epoch := 7, logged := false }
    w.status < 2 ^ 16 ∧ w.sq < 2 ^ 18 ∧ w.detail < 2 ^ 16 ∧ w.tag < 2 ^ 32 := by decide
theorem witness_EventWritesItsRecord :
    let b := odAt onBlock [(0x2800, 1, 0x1000)]
    let size := 2 ^ b.od' 0x2800 2
    b.eventFull = false ∧ b.Lands (b.od' 0x2800 1 + 64 * (b.faults.eventNext % size)) 64 ∧
      b.NoneInto (b.od' 0x2800 1) (64 * size) ∧ b.od' 0x2800 6 = 0 ∧ b.faults.eventSeq < 2 ^ 32 ∧
      b.time < 2 ^ 64 := by decide
theorem witness_AddressHasItsOwner : (7 < 8 ∧ 2 ^ 36 - 1 < 2 ^ 36) ∧ (23 < 24 ∧ 2 ^ 37 - 1 < 2 ^ 37) ∧
    (2 ^ 52 - 1 < 2 ^ 52 ∧ 0x0100_0000_0000 + 8 * 2 ^ 36 ≤ 2 ^ 52 - 1 ∧ 0x0200_0000_0000 + 24 * 2 ^ 37 ≤ 2 ^ 52 - 1) := by decide
theorem witness_ChannelTimeOfAccesses : inFast 0x0100_0000_0000 = true ∧ inFast (0x0100_0000_0000 + 1 - 1) = true ∧
    inBulk 0x0200_0000_0000 = true ∧ inBulk (0x0200_0000_0000 + 513 - 1) = true := by decide

/-! ### Hypotheses that are met: the dictionary -/

/-- The row of OD 0x2200.09, a plain entry. -/
def plainRow : OdRow := ⟨0x2200, 9, 9, .u16, .rw, 0, 0, top64⟩
theorem plainRow_plain : PlainEntry 0x2200 9 plainRow := by unfold PlainEntry; decide

theorem witness_WindowIsShutWithoutReach :
    let s := at' (odAt onBlock [(0x1100, 3, 0)])
    (Settled s ∧ s.blk.powered = true ∧ odFind (odKey 0x2200 9) = some plainRow ∧ plainRow.ty.bytes ≤ 4 ∧
      s.blk.od' 0x1100 3 = 0 ∧ isSignalKey (odKey 0x2200 9) = false) ∧
    (odFind (odKey 0x1100 3)).isSome = true ∧ s.blk.engineState = 2 ∧ State.reset.blk.engineState = 1 ∧
      s.blk.od' 0x1100 1 < 256 ∧ s.blk.dict.assembly = [] := by decide
theorem witness_WindowWriteTakesAPlainEntry :
    Settled on ∧ WindowOpen on ∧ PlainEntry 0x2200 9 plainRow ∧
      odInRange (on.blk.od' 0x1000 6) (odKey 0x2200 9) plainRow 65535 = true :=
  ⟨by decide, by decide, plainRow_plain, by decide⟩
theorem witness_RefusedWindowWriteChangesNothing :
    Settled on ∧ WindowOpen on ∧ odFind (odKey 0x2FFF 255) = none ∧ (odFind (odKey 0x1000 1)).map (·.acc) = some .ro ∧
      (odFind (odKey 0x2300 1)).map (·.acc) = some .rwc ∧ on.blk.staging? (odSet (odKey 0x2300 1)) = none ∧
      (odFind (odKey 0x2700 1)).map (·.acc) = some .rwl ∧ mctpOnly (odKey 0x2700 1) = false ∧ on.blk.engineState = 2 ∧
      (odFind (odKey 0x2602 1)).map (fun r => (r.acc, odInRange 2 (odKey 0x2602 1) r 63)) = some (.rw, false) ∧
      mctpOnly (odKey 0x2602 1) = false := by decide
theorem witness_ManagementMessagesAnswered :
    (Settled on ∧ on.blk.powered = true ∧ on.blk.engineState = 2 ∧ on.blk.od' 0x1100 1 < 256 ∧
      ∀ a ∈ on.blk.dict.assembly, a.source ≠ 255 ∨ a.tag ≠ 7) ∧
    (odFind (odKey 0x2200 9) = some plainRow ∧ plainRow.ty.bytes ≤ 8 ∧ plainRow.acc ≠ .wo) ∧
    (∀ q, 224 ≤ q → q < 224 + 32 → odFind (odKey 0x2610 q) ≠ none) ∧ PlainEntry 0x2200 9 plainRow :=
  ⟨by decide, by decide, fun q _ h => (by decide : ∀ q < 256, odFind (odKey 0x2610 q) ≠ none) q h, plainRow_plain⟩
theorem witness_ManagementControlAnswered :
    Settled on ∧ on.blk.powered = true ∧ 0 < 254 ∧ 254 < 255 ∧ 255 ∉ [1, 2, 4, 5, 6] ∧ on.blk.od' 0x1100 1 < 256 ∧
      ∀ a ∈ on.blk.dict.assembly, a.source ≠ 255 ∨ a.tag ≠ 7 := by decide
/-- The READY state with set 3 STAGING for owner 9. -/
def staged3 : State :=
  at' { onBlock with dict := { onBlock.dict with staging := [⟨3, 9, [(odKey 0x2200 9, 1)], false⟩] } }
theorem witness_CommitSetOpensAndAborts :
    (Settled on ∧ WindowOpen on ∧ on.blk.staging? 10 = none) ∧ (Settled staged3 ∧ WindowOpen staged3 ∧
      (staged3.blk.staging? 3).map (fun x => (x.committing, x.owner)) = some (false, 9)) := by decide
theorem witness_CommitSetTakesEffect :
    let x : Staging := ⟨3, 9, [(odKey 0x2200 3, 0x1000)], false⟩
    let s := at' { onBlock with dict := { onBlock.dict with staging := [x] } }
    let y : Staging := { x with committing := true }
    let t := at' { onBlock with dict := { onBlock.dict with staging := [y] } }
    (Settled s ∧ s.blk.staging? 3 = some x ∧ WindowOpen s ∧ Block.commitFault s.mem s.blk x = (none, s.blk)) ∧
    (Settled t ∧ t.blk.staging? 3 = some y ∧ t.blk.engineState = 2 ∧ Block.commitFault t.mem t.blk y = (none, t.blk) ∧
      (y.copy.map (·.1)).Nodup ∧
      ∀ e ∈ y.copy, odSet e.1 = 3 ∧ (odFind e.1).map (·.acc) = some .rwc) := by decide
/-- The READY state with a set staged or committing. -/
def staging (x : Staging) : State := at' { onBlock with dict := { onBlock.dict with staging := [x] } }
theorem witness_CommitSetTakesEffect_point :
    ∀ e ∈ [(1, odKey 0x2300 4, 7), (2, odKey 0x2301 1, 12), (6, odKey 0x2600 2, 0), (7, odKey 0x2702 0x1F, 5)],
      let x : Staging := ⟨e.1, 9, [(e.2.1, e.2.2)], true⟩
      let s := staging x
      Settled s ∧ s.blk.staging? e.1 = some x ∧ s.blk.loadUnderWay = false ∧ (Block.commitFault s.mem s.blk x).1 = none ∧
        odSet e.2.1 = e.1 ∧ (odFind e.2.1).map (·.acc) = some .rwc := by decide
theorem witness_CommitSetTakesEffect_refused :
    (Block.commitPoint [] (staging ⟨2, 9, [(odKey 0x2301 1, 12)], true⟩).blk 2).blocked = false ∧
    (∀ c ∈ [false, true],
      let x : Staging := ⟨8, 9, [(odKey 0x2202 3, 64)], c⟩
      Settled (staging x) ∧ WindowOpen (staging x) ∧ (staging x).blk.staging? 8 = some x ∧
        Block.commitFault [] (staging x).blk x = (some (odKey 0x2202 3), (staging x).blk)) := by decide
/-- The READY state with fault 812, of level 0, open in slot 63 for agent 98. -/
def open812 : State :=
  at' (odAt onBlock [(0x2810, 63, pack [(0, 812), (32, 1), (44, 1), (48, 0x162)]), (0x2801, 1, 1)])
theorem witness_FaultRecordAcknowledged :
    Settled open812 ∧ WindowOpen open812 ∧
      open812.blk.openRecs.find? (fun k => bits (open812.blk.slotRec k) 31 0 == 812) = some 63 ∧
      open812.blk.openRecs.find? (fun k => bits (open812.blk.slotRec k) 31 0 == 813) = none := by decide
/-- The READY state with stream unit 0 in detention. -/
def fenced0 : State := at' (odAt onBlock [(0x2802, 3, 1)])
theorem witness_UnitsFencedAndRestored :
    (Settled on ∧ WindowOpen on ∧ unitKnown 31 = true ∧ on.blk.fenced 31 = false ∧ on.blk.lastOne 31 = false) ∧
    (unitKnown 0x22 = false ∧ unitKnown 0 = true ∧ fenced0.blk.fenced 0 = true ∧ fenced0.blk.suFenced 0 = true ∧
      fenced0.blk.openNames 0 = false) ∧
    (let b := odAt onBlock [(0x1000, 9, 1)]; unitKnown 0x20 = true ∧ b.fenced 0x20 = false ∧ b.lastOne 0x20 = true) ∧
    (let b := odAt onBlock [(0x2802, 3, 1), (0x2810, 0, pack [(44, 1)])]; b.fenced 0 = true ∧ b.openNames 0 = true) := by decide
theorem witness_UnitsFencedAndRestored_rest :
    (let s := at' (odAt onBlock [(0x2802, 4, 1), (0x2802, 6, 1), (0x2802, 7, 2 ^ 31), (0x2802, 8, 1), (0x2802, 9, 1),
                                 (0x2802, 0x14, 2 ^ 23), (0x2701, 1, psDisabled)])
     Settled s ∧ WindowOpen s ∧ (∀ u ∈ [0x20, 0x300, 0x41F, 0x600, 0x700, 0x217], s.blk.fenced u = true ∧ s.blk.openNames u = false) ∧
       s.blk.agentUsable 279 = true ∧ s.blk.portState 0 = psDisabled ∧ s.blk.faults.bridgeFenced = false ∧
       (∀ p, p < 32 → (bit (s.blk.od' 0x2700 2) p = false ∨ s.blk.portFenced p = true) → s.blk.portState p = psDisabled)) ∧
    (odAt onBlock [(0x2802, 0x14, 2 ^ 23), (0x2505, 0x21, 2 ^ 23)]).fenced 0x217 = true ∧
    (odAt onBlock [(0x2505, 0x21, 2 ^ 23)]).agentUsable 279 = false ∧
    (let b : Block := { onBlock with faults := { onBlock.faults with bridgeFenced := true } }
     b.fenced 0x500 = true ∧ b.openNames 0x500 = false) := by decide
theorem witness_SignalWordTakesAWrite :
    Settled on ∧ on.blk.powered = true ∧ on.blk.engineState = 2 ∧ ∀ f ∈ on.blk.flows, Block.waitsFor f 4095 = false := by decide
theorem witness_InjectionsArmed :
    (let s := at' (odAt onBlock [(0x2804, 1, 1)])
     Settled s ∧ WindowOpen s ∧ s.blk.od' 0x2804 1 = 1 ∧ hasChecker 0x400 3 = true ∧ hasChecker 0x607 6 = true ∧
      s.blk.fenced 0x606 = false ∧ s.blk.fenced 0x607 = false) ∧
    (odAt onBlock [(0x2802, 8, 64)]).fenced 0x606 = true ∧
    on.blk.od' 0x2804 1 = 0 := by decide
theorem witness_ResetsRestartTheEngine : Settled on ∧ on.blk.powered = true ∧ on.blk.engineState = 2 := by decide
theorem witness_PathEntriesTakeWrites :
    Settled on ∧ WindowOpen on ∧ on.blk.od' 0x2700 3 = 1 ∧ Settled State.reset ∧ WindowOpen State.reset ∧
      State.reset.blk.startUp.step < 8 ∧ State.reset.blk.engineState = 1 := by decide

/-! ### Hypotheses that are met: queues -/

/-- The built-in completion ring 0, enabled. -/
def cq0 : CompRing :=
  { number := 0, desc := onBlock.cqBuiltIn, wr := 0, phase := true, swHead := 0, readAt := 0, since := 0, firstAt := none,
    epoch := none, stale := false }
/-- A submission ring of 64 entries at host address 0x1_0000 that reports to completion ring 0. -/
def hostRing : SubRing :=
  { number := 0, state := .active, desc := pack [(0, 1), (8, 6), (24, 7), (32, 64), (64, 0x1_0000)], head := 63, tail := 1,
    phase := true, epoch := some 7, tries := 0, readAt := 0, bells := [] }
/-- A completion ring of 64 entries at host address 0x2_0000, interrupts on, COAL_US 1, MSI_ADDR 0x3_0000. -/
def hostCq : CompRing :=
  { number := 0, desc := pack [(0, 1), (1, 1), (8, 6), (16, 4), (24, 1), (64, 0x2_0000), (128, 0x3_0000), (192, 5)], wr := 0,
    phase := true, swHead := 0, readAt := 0, since := 1, firstAt := some 3, epoch := some 7, stale := false }
/-- A READY block with the two rings. -/
def ringBlock (r : SubRing) (c : CompRing) : Block := { onBlock with rings := [r], cqs := [c] }
/-- Memory that holds R141's NOP at the last entry of `hostRing`. -/
def nopMem : Memory := memAt (0x1_0000 + 64 * 63) [0x3F, 0x08, 0x61, 0x5E, 0x78, 0x56, 0x34, 0x12]
/-- The same entry with two inline entries and opcode 0x3E, which R142 does not define. -/
def badOpMem : Memory := memAt (0x1_0000 + 64 * 63) [0x3E, 0x08, 0x65, 0x5B, 0x78, 0x56, 0x34, 0x12]

theorem witness_RingsEnabled :
    (let s := at' { onBlock with cqs := [cq0] }
     let r := Block.readSq s.mem s.blk 0
     Settled s ∧ WindowOpen s ∧ s.blk.words = [] ∧ 0 < s.blk.sqCount ∧ s.blk.ring? 0 = none ∧
       s.blk.wordWaits (false, pack [(0, 0), (20, 1)]) = false ∧ r.2.1 = false ∧
       r.2.2.blocked = false ∧ s.blk.sqDescOk r.1 = true ∧ (s.blk.cq? (bits r.1 63 48)).isSome = true ∧
       s.blk.sqBinding r.1 ≠ some 0) ∧
    (let r := Block.readCq on.mem on.blk 0
     0 < on.blk.cqCount ∧ on.blk.cq? 0 = none ∧ on.blk.wordWaits (false, pack [(0, 0), (20, 5)]) = false ∧ r.2.1 = false ∧ r.2.2.blocked = false ∧
       Block.cqDescOk r.1 = true ∧ on.blk.cqBinding r.1 ≠ some 0) := by decide
theorem witness_RingsDisabledAndResumed :
    (let s := at' (ringBlock { hostRing with state := .paused } hostCq)
     Settled s ∧ WindowOpen s ∧ 0 < s.blk.sqCount ∧ (s.blk.ring? 0).map (fun r => (r.state, r.number)) = some (.paused, 0) ∧
       ∀ f ∈ s.blk.inFlight 0, f.stage ≠ .waiting) ∧
    (let s := at' { onBlock with cqs := [cq0] }
     0 < s.blk.cqCount ∧ s.blk.cq? 0 = some cq0 ∧ ∀ r ∈ s.blk.rings, r.cqNo ≠ 0) := by decide
theorem witness_QueueControlRefused :
    let s := at' (ringBlock hostRing hostCq)
    Settled s ∧ WindowOpen s ∧ s.blk.wordWaits (false, pack [(0, 0), (20, 1)]) = false ∧
      s.blk.wordWaits (false, pack [(0, 0), (20, 5)]) = false ∧ s.blk.sqCount ≤ 65535 ∧
      s.blk.cqCount ≤ 65535 ∧ (s.blk.ring? 0).isSome = true ∧ (s.blk.cq? 0).isSome = true ∧ on.blk.ring? 0 = none ∧
      on.blk.cq? 0 = none ∧ 0 < on.blk.sqCount ∧ 0 < on.blk.cqCount := by decide
theorem witness_RingsReattached :
    (let s := at' (ringBlock hostRing { hostCq with stale := true })
     let r := Block.readCq s.mem s.blk 0
     Settled s ∧ WindowOpen s ∧ 0 < s.blk.cqCount ∧ s.blk.wordWaits (true, pack [(0, 0), (18, 1)]) = false ∧
       s.blk.wordWaits (true, pack [(0, 0), (18, 1), (19, 1)]) = false ∧ r.2.1 = false ∧ r.2.2.blocked = false ∧
       Block.cqDescOk r.1 = true ∧ s.blk.cqBinding r.1 ≠ some 0) ∧
    (let r := { hostRing with state := .orphaned, desc := onBlock.sqBuiltIn }
     let s := at' (ringBlock r cq0)
     let x := Block.readSq s.mem s.blk 0
     Settled s ∧ WindowOpen s ∧ 0 < s.blk.sqCount ∧ s.blk.ring? 0 = some r ∧
       s.blk.wordWaits (true, pack [(0, 0)]) = false ∧ s.blk.wordWaits (true, pack [(0, 0), (19, 1)]) = false ∧ x.2.1 = false ∧
       x.2.2.blocked = false ∧ s.blk.sqDescOk x.1 = true ∧ s.blk.sqBinding x.1 ≠ some 0 ∧ s.blk.cq? r.cqNo = some cq0 ∧
       cq0.stale = false ∧ s.blk.cq? (bits x.1 63 48) = some cq0 ∧ bits x.1 115 64 = r.base ∧
       bits x.1 12 8 = bits r.desc 12 8) := by decide
theorem witness_DoorbellsMoveTails :
    (let s := at' (ringBlock { hostRing with state := .paused } hostCq)
     Settled s ∧ s.blk.ready = true ∧ 0 < s.blk.sqCount ∧ (s.blk.ring? 0).map (·.size) = some 64 ∧ 63 % 2 ^ 16 < 64) ∧
    (let s := at' (ringBlock { hostRing with state := .orphaned } hostCq)
     State.reset.blk.ready = false ∧ (4 : Nat) % 8 ≠ 0 ∧ s.blk.sqCount ≤ (0x0100_0008 - 0x0100_0000) / 8 ∧
       on.blk.ring? 0 = none ∧ (s.blk.ring? 0).map (fun r => (r.state, r.size)) = some (.orphaned, 64)) := by decide
theorem witness_DispatchReadsOneHeader :
    let s (m : Memory) : State := { at' (ringBlock hostRing cq0) with mem := m }
    let x (m : Memory) := Block.readOwn m (s m).blk (hostRing.entryAt 63) 64
    (∀ m ∈ [nopMem, []], Settled (s m) ∧ (s m).blk.ready = true ∧ Block.pick m (s m).blk = some (0, hostRing) ∧
      (s m).blk.ring? 0 = some hostRing ∧ (x m).2.1 = false) ∧
    Block.headerGood hostRing (leNat (x []).1) false = false ∧ Block.headerGood hostRing (leNat (x nopMem).1) false = true ∧
    (Block.readInline nopMem (x nopMem).2.2 hostRing 0).2.raised = [] ∧
    Block.headerStatuses (leNat (x nopMem).1) = [] ∧ bits (leNat (x nopMem).1) 7 0 = 0x3F ∧
    (s nopMem).blk.flow? (s nopMem).blk.nextFlow = none := by decide
theorem witness_DispatchReadsOneHeader_refused :
    let r := { hostRing with tail := 3 }
    let s : State := { at' (ringBlock r cq0) with mem := badOpMem }
    let x := Block.readOwn s.mem s.blk (r.entryAt 63) 64
    Block.pick s.mem s.blk = some (0, r) ∧ x.2.1 = false ∧ Block.headerGood r (leNat x.1) false = true ∧
      Block.headerStatuses (leNat x.1) ≠ [] ∧ (Block.readInline s.mem x.2.2 r 2).2.raised = [] := by decide
theorem witness_FailedHeaderPausesItsQueue :
    ∀ k ∈ [1, 2, 3], let r := { hostRing with tries := k }
      let s := at' (ringBlock r cq0)
      let x := Block.readOwn s.mem s.blk (r.entryAt r.head) 64
      Settled s ∧ s.blk.ready = true ∧ s.blk.ring? 0 = some r ∧ r.state = .active ∧ 0 < r.readyEntries ∧
        s.blk.ringReadable r = true ∧ x.2.1 = false ∧ x.2.2.blocked = false ∧
        Block.headerGood r (leNat x.1) false = false := by decide
theorem witness_CompletedFlowLeavesItsRecord :
    let f := { flowOf (0x3F + 2 ^ 11) with stage := .closing }
    let c := { hostCq with desc := pack [(0, 1), (8, 6), (64, 0x2_0000)], wr := 63, swHead := 1 }
    let s := at' (withFlow (ringBlock hostRing c) f)
    Settled s ∧ s.blk.ready = true ∧ s.blk.flow? 1 = some f ∧ s.blk.flowDone f = true ∧ f.complete = true ∧
      f.logged = false ∧ s.blk.cq? f.cq = some c ∧ c.isFull = false ∧ (∀ w ∈ s.blk.waiting, w.cq ≠ f.cq) ∧ c.irqEn = false ∧
      s.blk.Lands (c.base + 16 * c.wr) 16 := by decide
theorem witness_CompletionRingTimers :
    (let w : WaitingRecord := { cq := 0, sq := 0, status := 0, poison := false, late := false, detail := 0, tag := 0,
                                epoch := 7, logged := false }
     let c := { hostCq with wr := 63, swHead := 5 }
     let s := at' { odAt (ringBlock hostRing c) [(0x2200, 9, 0)] with waiting := [w] }
     Settled s ∧ s.blk.cq? 0 = some c ∧ (∃ w ∈ s.blk.waiting, w.cq = 0) ∧ (∀ r ∈ s.blk.rings, r.state ≠ .draining) ∧
       s.blk.od' 0x2200 3 = 0 ∧ s.blk.od' 0x2200 9 < c.size ∧ (c.wr + 1) % c.size = s.blk.od' 0x2200 9) ∧
    (let s := at' (ringBlock hostRing hostCq)
     hostCq.firstAt = some 3 ∧ hostCq.irqEn = true ∧ hostCq.coalUs ≠ 0 ∧ hostCq.stale = false ∧
       s.blk.Lands hostCq.msiAddr 4 ∧ s.blk.NoneInto hostCq.base (16 * hostCq.size)) := by decide


/-! ### Hypotheses that are met: agents and row cache -/

/-- An address in the middle of stack 0. -/
def fast0 : Nat := 0x0100_0010_0000
/-- A READY block with requests at an agent. -/
def asks (l : List AgentReq) : Block := { onBlock with agents := { onBlock.agents with queue := l } }
/-- The READY state with stack 0's first agent absent. -/
def absent0 : State := at' (odAt onBlock [(0x1000, 0x10, 2 ^ 64 - 2)])

theorem witness_AgentsAnswerReads :
    (0x1000 + 1 ≤ 2 ^ 52 ∧ isHost 0x1000 = true ∧ on.blk.hostUp = true) ∧
    (∀ us ∈ [[], [fast0]], let s := at' { onBlock with agents := { onBlock.agents with poisoned := us } }
      Settled s ∧ isHost fast0 = false ∧ s.blk.rowOpAhead fast0 257 = false ∧ s.blk.stackHeld fast0 = false ∧
        s.blk.stackOut fast0 = false ∧ s.blk.absentRange fast0 257 = false ∧ s.blk.badUnits fast0 257 = us ∧
        inTier fast0 = true ∧ s.blk.shareRoom fast0 (readCost fast0 257) = true ∧
        ∀ u ∈ unitsOf fast0 257, s.blk.agents.failing.contains u = false) ∧
    (let a := 0x0100_0000_0000
     Settled absent0 ∧ isHost a = false ∧ absent0.blk.rowOpAhead a 1 = false ∧ absent0.blk.stackHeld a = false ∧
       absent0.blk.stackOut a = false ∧ absent0.blk.absentRange a 1 = true) := by decide
theorem witness_AgentsPerformWrites :
    (∀ op ∈ [AgentOp.blockWrite fast0 (zeros 256) none, .blockWrite fast0 (zeros 256) (some (fast0 + 256, 5)),
        .crcWrite fast0 (zeros 256), .writeBack fast0 (zeros 256) false, .writeBack fast0 (zeros 256) true],
      let r : AgentReq := ⟨agentOf fast0, none, op, none, []⟩
      let s := at' { asks [r] with agents := { (asks [r]).agents with poisoned := [fast0] } }
      Settled s ∧ s.blk.words = [] ∧ s.blk.agents.shareWaits = [] ∧ s.blk.front r.port = some r ∧
        r.port ≠ Config.hostPort ∧ s.blk.shareRoom fast0 (writeCost fast0 256) = true ∧
        s.blk.absentRange fast0 256 = false ∧ s.blk.stackOut fast0 = false ∧ s.blk.faults.injections = [] ∧
        ∀ u ∈ unitsOf fast0 256, s.blk.agents.failing.contains u = false ∧
          (s.blk.agents.poisoned.contains u = true → coversUnit fast0 256 u = true)) := by decide
theorem witness_AgentsPerformWrites_absent :
    (let a := 0x0100_0000_0000
     let r : AgentReq := ⟨0, none, .blockWrite a [1] none, none, []⟩
     let s : State := { absent0 with blk := { absent0.blk with agents := { absent0.blk.agents with queue := [r] } } }
     Settled s ∧ agentOf a = 0 ∧ s.blk.front 0 = some r ∧ s.blk.shareRoom a (writeCost a 1) = true ∧
       s.blk.absentRange a 1 = true) := by decide
theorem witness_AgentsPerformWrites_host :
    (∀ st ∈ [1, 2, 3], let r : AgentReq := ⟨Config.hostPort, none, .blockWrite 0x1000 [1] none, none, []⟩
      let s := at' (odAt (asks [r]) [(0x2202, 2, st)])
      Settled s ∧ s.blk.front r.port = some r ∧ s.blk.shareRoom 0x1000 (writeCost 0x1000 1) = true ∧
        s.blk.hostHolds = (st == 2) ∧ s.blk.hostUp = (st == 1) ∧ r.flow.bind s.blk.flow? = none) := by decide
theorem witness_AgentsPerformWrites_flow :
    (∀ c ∈ [true, false], let f := { flowOf 0 with epoch := if c then 6 else 7 }
      let r : AgentReq := ⟨Config.hostPort, some 1, .blockWrite 0x1000 [1] none, none, []⟩
      let s := at' (withFlow (asks [r]) f)
      Settled s ∧ s.blk.front r.port = some r ∧ r.flow.bind s.blk.flow? = some f ∧ s.blk.cutsOff f = c) := by decide
/-- A table of FP32 rows of 2 elements with one FP32 optimiser vector. -/
def desc2 : Nat := pack [(0, 1), (13, 1), (32, 2), (48, 8), (64, 16), (192, 1), (224, 0x3F80_0000)]
theorem witness_AgentsPerformRowOperations :
    let t : RowTarget := { addr := fast0, stride := 16, desc := desc2 }
    let w : Wire := { fmt := 0, elem0 := 0, n := 2, data := natLE 8 0x3F80_0000 }
    let p : OptParams := { opt := 1, lr := 0x3F80_0000, beta1 := 0, beta2 := 0, eps := 0, wd := 0, c2 := 0 }
    let e := pack [(82, 1), (96, 1)]
    let e0 := pack [(80, 1)]
    ∀ us ∈ [[], [fast0]], ∀ op ∈ [AgentOp.add t w, .update t p w, .commit t e0 (zeros 16) false, .commit t 0 (zeros 16) true,
        .commit t e (zeros 16) false, .commit t (pack [(82, 1)]) (zeros 16) false],
      let r : AgentReq := ⟨agentOf fast0, some 1, op, none, []⟩
      let s := at' (withFlow { asks [r] with agents := { (asks [r]).agents with poisoned := us } } (flowOf 6))
      let b0 := (s.blk.popFront r).flushRow t.addr t.stride
      let x := Block.agentRow s.mem b0 t
      let shape := tdShape t.desc
      Settled s ∧ s.blk.words = [] ∧ s.blk.agents.shareWaits = [] ∧ r.port ≠ Config.hostPort ∧
        s.blk.front r.port = some r ∧ s.blk.lockWaits r = false ∧
        s.blk.shareRoom t.addr (readCost t.addr t.stride + writeCost t.addr t.stride) = true ∧
        x.2.1 = !us.isEmpty ∧ s.blk.absentRange t.addr t.stride = false ∧ s.blk.stackOut t.addr = false ∧
        shape.poisoned (slice (zeros 16) 0 shape.stride) = false ∧ bits (shape.header x.1) 63 32 < bits e 127 96 ∧
        needsCurrent shape true 0 = true ∧ (committedRow shape x.1 (zeros 16) (bits e0 81 80) 0).length = t.stride ∧
        (committedRow shape x.1 (zeros 16) (bits e 81 80) (bits e 127 96)).length = t.stride := by decide

/-- A RECALL with its class copied: keys and values of one FP32 element. -/
def recallFlow : Flow :=
  { flowOf 3 with copies := [⟨0, []⟩, ⟨0, natLE 16 (pack [(16, 1), (32, 1), (48, 2), (64, 2)])⟩] }
/-- The READY state where agent `agentOf fast0` has a request of flow 1, a RECALL, and `fast0` holds the descriptor of a
desk of 64 slots whose last is NEXT, with the further bits `d`. -/
def deskState (op : AgentOp) (d : Nat) : State :=
  { at' (withFlow (asks [⟨agentOf fast0, some 1, op, none, []⟩]) recallFlow) with
    mem := memAt fast0 (natLE 32 (d + pack [(0, 1), (16, 6), (32, 63), (64, fast0 + 0x100_0000), (128, fast0 + 0x200_0000)])) }
theorem witness_AgentsAppendAndRecord :
    (∀ sent ∈ [false, true], ∀ d ∈ [0, 2],
      let r : AgentReq := ⟨agentOf fast0, some 1, .append fast0 (zeros 4) (zeros 4) sent, none, []⟩
      let s := deskState r.op d
      let own := s.blk.popFront r
      let desc := leNat (memRead s.mem fast0 32)
      Settled s ∧ s.blk.words = [] ∧ s.blk.agents.shareWaits = [] ∧ s.blk.front r.port = some r ∧
        r.port ≠ Config.hostPort ∧ s.blk.partsWait r = false ∧ r.flow.bind s.blk.flow? = some recallFlow ∧
        recallFlow.statuses = [] ∧ s.blk.shareRoom fast0 (readCost fast0 32 + writeCost fast0 32) = true ∧
        (Block.agentReads own fast0 32).1 = false ∧ ddSealed desc = (d != 0) ∧ ddFull desc = false ∧
        ddNext desc + 1 = 2 ^ ddCap desc ∧ ddCap desc ≤ 24 ∧ own.agents.queue = [] ∧
        ∀ w ∈ Block.appendParts recallFlow desc (ddNext desc) (zeros 4) (zeros 4),
          s.blk.absentRange w.addr w.data.length = false ∧ s.blk.stackOut w.addr = false ∧
            (agentOf w.addr != r.port && own.ownWaits w.addr w.data.length) = false) := by decide
theorem witness_AgentsAppendAndRecord_waits :
    (let r : AgentReq := ⟨agentOf fast0, some 1, .append fast0 (zeros 4) (zeros 4) false, none, []⟩
     let s := deskState r.op 0
     let desc := leNat (memRead s.mem fast0 32)
     let own : Block := { s.blk.popFront r with agents := { (s.blk.popFront r).agents with retrains := [(0, some 0)] } }
     ∃ w ∈ Block.appendParts recallFlow desc (ddNext desc) (zeros 4) (zeros 4),
       (agentOf w.addr != r.port && own.ownWaits w.addr w.data.length) = true) := by decide
theorem witness_AgentsAppendAndRecord_record :
    (∀ x ∈ [(true, zeros 320, true), (true, natLE 320 (2 ^ 128), false), (false, zeros 320, true)],
      let r : AgentReq := ⟨agentOf fast0, none, .record fast0 x.2.1 x.1, none, []⟩
      let s := at' (asks [r])
      Settled s ∧ s.blk.front r.port = some r ∧ s.blk.partsWait r = false ∧
        s.blk.shareRoom fast0 (readCost fast0 320 + writeCost fast0 320) = true ∧ x.2.1.length = recordBytes ∧
        s.blk.absentRange fast0 64 = false ∧ s.blk.absentRange fast0 320 = false ∧ s.blk.stackOut fast0 = false ∧
        Block.marks (memRead s.mem fast0 64) x.2.1 = x.2.2) ∧
    (let r : AgentReq := ⟨Config.hostPort, none, .record 0x1000 (zeros 320) false, none, []⟩
     let s := at' (asks [r])
     Settled s ∧ s.blk.front r.port = some r ∧ s.blk.shareRoom 0x1000 (readCost 0x1000 320 + writeCost 0x1000 320) = true ∧
       s.blk.hostHolds = false ∧ s.blk.hostUp = true) := by decide
theorem witness_LinesFilledAndWindowsBegun :
    let l : Line := { south := onBlock.half fast0, set := setOf fast0, way := 0, addr := fast0, data := zeros 256, dirty := true,
                      bb := false, loading := false, current := false, age := 0, err := 0, source := none, filler := none,
                      shared := false }
    let b : Block := { onBlock with cache := { onBlock.cache with lines := [l] } }
    (Settled (at' b) ∧ isHost fast0 = false ∧ b.absentRange (lineAddr fast0) 256 = false ∧ (∀ l ∈ b.cache.lines, l.err = 0) ∧
      b.line? fast0 = some l ∧ l.data.length = 256) ∧
    (on.blk.line? fast0 = none ∧ on.blk.fillWaits fast0 = false ∧ on.blk.rowOpAhead (lineAddr fast0) 256 = false ∧
      on.blk.stackHeld (lineAddr fast0) = false ∧ on.blk.stackOut (lineAddr fast0) = false ∧
      on.blk.shareRoom (lineAddr fast0) (readCost (lineAddr fast0) 256) = true ∧
      on.blk.badUnits (lineAddr fast0) 256 = [] ∧ 0 < (on.blk.ordinaryWays (on.blk.half fast0)).length ∧
      on.blk.faults.injections = [] ∧ ∀ u ∈ unitsOf (lineAddr fast0) 256, on.blk.agents.failing.contains u = false) ∧
    (on.blk.words = [] ∧ ([] : NatMap).Pairwise (fun x y => x.1 < y.1) ∧ on.blk.agents.moved = []) := by decide


/-! ### Hypotheses that are met: wing engines -/

/-- A flow with an opcode. -/
def opFlow (op : Nat) : Flow := flowOf op
/-- A READY block with North's engine as given, its pass at 60 W and some steps left in the window. -/
def engineBlock (e : WingEngine) (watts steps : Nat) (f : Flow) : Block :=
  let b := withFlow (odAt onBlock [(0x2900, 1, watts)]) f
  ({ b with north := e } : Block).setWingPower .north { b.wingPower .north with steps := steps, rate := 1000 }
/-- A tile that holds nothing. -/
def emptyTile : EngineTile := { flow := 1, group := 0, col := 0, cells := [], poison := [], keyPoison := [], sat := 3 }

theorem witness_ArraysTakeTheirSteps :
    (∀ n ∈ [5, 4], let s := at' (engineBlock { WingEngine.empty with current := some (Pass.at 1 0 0 5) } 102 n (opFlow opProject))
      Settled s ∧ s.blk.ready = true ∧ s.blk.wingUp .north = true ∧ s.blk.flow? 1 = some (opFlow opProject) ∧
        s.blk.need .north ≤ s.blk.pass .north ∧ (s.blk.wingPower .north).steps = n) ∧
    (let s := at' (engineBlock { WingEngine.empty with ready := [Pass.at 1 0 0 5], finished := [emptyTile] } 102 1 (opFlow opProject))
     Settled s ∧ s.blk.ready = true ∧ s.blk.wingUp .north = true ∧ s.blk.need .north ≤ s.blk.pass .north ∧
       (s.blk.engine .north).finished.length < 2 ∧ 0 < (s.blk.wingPower .north).steps) ∧
    (let s := at' (engineBlock { WingEngine.empty with ready := [Pass.at 1 0 0 5] } 0 0 (opFlow opProject))
     Settled s ∧ s.blk.ready = true ∧ s.blk.wingUp .north = true ∧ s.blk.pass .north < s.blk.need .north ∧
       (s.blk.wingPower .north).asked = none ∧ (s.blk.wingPower .north).steps = 0) := by decide
theorem witness_TilesDrainAndAreTaken :
    (∀ n ∈ [8, 7],
      let e := { WingEngine.empty with finished := [emptyTile], tileQueue := List.replicate n emptyTile }
      let s := at' (engineBlock e 0 0 (opFlow opProject))
      Settled s ∧ (s.blk.engine .north).tileQueue.length = n ∧ ∀ f, s.blk.flow? 1 = some f → f.fromQ = none) ∧
    (let s := at' (engineBlock { WingEngine.empty with tileQueue := [emptyTile] } 0 0 (opFlow opGatherPool))
     Settled s ∧ s.blk.ready = true ∧ s.blk.wingUp .north = true ∧ (s.blk.grantWork .north).any (fun r =>
       match r.2.1, (if Block.tileConverts r.1 then r.2.2.quantiserTurn r.1 else some r.2.2) with
       | .inl t, some b0 => decide (GoesOn s (b0.takeTile s.mem .north r.1 t) r.1)
       | _, _ => false) = true) ∧
    (let s := at' (engineBlock { WingEngine.empty with feed := [Pass.at 1 0 0 0] } 0 0 (opFlow opVecChain))
     Settled s ∧ s.blk.ready = true ∧ s.blk.wingUp .north = true ∧ (s.blk.grantWork .north).any (fun r =>
       match r.2.1, (if Block.tileConverts r.1 then r.2.2.quantiserTurn r.1 else some r.2.2) with
       | .inr p, some b0 => decide (GoesOn s (b0.takeBlock s.mem .north r.1 p) r.1)
       | _, _ => false) = true) := by decide
theorem witness_TilesDrainAndAreTaken_switch :
    let f := { opFlow opGatherPool with remote := [⟨1, 9, 0, 0, 5, false, 0, []⟩] }
    let g := { opFlow opGatherPool with id := 2 }
    let b := withFlow (withFlow onBlock f) g
    (b.currentContext 0 = some 1 ∧ b.threaded .north = false) ∧
    (let s := at' (odAt b [(0x2101, 1, 1)])
     Settled s ∧ s.blk.currentContext 0 = some 1 ∧ s.blk.flow? 1 = some f ∧ s.blk.threaded (Block.wingOf 0) = true ∧
       s.blk.workReady f = false ∧
       ((s.blk.holders 0).filterMap s.blk.flow?).filter (fun h => h.id != f.id && s.blk.workReady h) = [g]) := by decide

/-! ### Hypotheses that are met: streams and satchels -/

/-- A STREAM_ARM of stream 0 with an action and a mask. -/
def armFlow (action mask : Nat) : Flow := flowOf (pack [(0, 0x18), (66, action), (72, mask)])
/-- A LOAD (kind 0) or STORE (kind 1) of 4 rows of 16 FP32 elements at `fast0`, satchel queue 0, in one dense run. -/
def streamDesc (kind bell parties : Nat) : Nat :=
  pack [(0, kind), (8, 2), (11, bell), (32, 16), (48, 4), (80, parties), (128, fast0), (192, 64), (224, 4), (256, 1),
    (320, 1), (384, 1), (448, 1)]
/-- Satchel queue 0 of two 32 KiB satchels, without NEXT. -/
def queue0 (sats : List Satchel) (consumer : Option Nat) : SatQueue :=
  { number := 0, desc := pack [(0, 1), (8, 2), (16, 15), (32, 0xFF_FFFF)], sats := sats, consumer := consumer, turns := [],
    interval := 0, lastTake := none, count := 0 }
/-- A READY block with flow 1, slot 0 and queue 0. -/
def streamBlock (f : Flow) (sl : StreamSlot) (q : SatQueue) (claims : List GrantClaim) : Block :=
  { withFlow (odAt onBlock [(0x2600, 2, 1)]) f with streams := { onBlock.streams with slots := [sl], queues := [q], claims := claims } }
/-- Slot 0 at the start of its generation, flow 1, armed by flow 9. -/
def slot0 (d : Nat) : StreamSlot := { Block.blankSlot 0 with active := d, counter := 1, gen := some 1, arm := 9 }
/-- The command of a flow may run now and the flow is as given. -/
abbrev BegunNow (s : State) (is : Flow → Bool) (id : Nat) (f : Flow) : Prop :=
  (s.blk.startable id is).map (fun g => ((s.blk.begun g).mayWork id, (s.blk.begun g).flow? id)) = some (true, some f)
theorem begun_of_now {s : State} {is : Flow → Bool} {id : Nat} {f : Flow} (h : BegunNow s is id f) :
    ∃ b, Begun s is id b f := by
  simp only [BegunNow, Option.map_eq_some_iff, Prod.mk.injEq] at h
  obtain ⟨g, h1, h2, h3⟩ := h
  exact ⟨_, g, h1, rfl, h2, h3⟩

/-- The flow of stream 0's generation. -/
def genFlow (kind : Nat) : Flow :=
  { flowOf (streamDesc kind 0 0) with stream := some 0, intoQ := if kind = 0 then some 0 else none,
                                      fromQ := if kind = 0 then none else some 0 }
theorem witness_StreamActions :
    (∀ a ∈ [0, 1, 2, 3], let f := armFlow a 0
      let s := at' (withFlow onBlock f)
      Settled s ∧ f.su < 32 ∧ BegunNow s (fun g => isOp opArm g && isArm a g) 1 f ∧ f.genNo = none ∧
        f.statuses = [] ∧ (s.blk.slot f.saStream).gen ≠ some 1 ∧ (s.blk.slot f.saStream).pendingGen = none) ∧
    (∀ a ∈ [2, 3], let f := armFlow a 1
      BegunNow (at' (withFlow onBlock f)) (fun g => isOp opArm g && isArm a g) 1 f ∧ f.saMask ≠ 0) ∧
    (let f := armFlow 1 0
     let sl := { Block.blankSlot 0 with shadow := streamDesc 0 0 0 }
     let q := queue0 [.empty, .empty] none
     ∀ x ∈ [sl, { sl with gen := some 7 }, { sl with gen := some 7, pendingGen := some 0, pendingArm := 8 }],
       let s := at' (streamBlock f x q [])
       let d := s.blk.maskedShadow f
       Settled s ∧ BegunNow s (fun g => isOp opArm g && isArm 1 g) 1 f ∧ sdFmt d ≠ 15 ∧ s.blk.queueOk (sdQueue d) = true ∧
         s.blk.cycleBad (sdQueue d) = false ∧ s.blk.queue? (sdQueue d) = some q ∧ 0 < q.depth ∧
         s.blk.wingFenced (if q.south then .south else .north) = false ∧ streamBad f d q.size = false) := by decide
theorem witness_StreamActions_ends :
    ∀ a ∈ [2, 3], let f := armFlow a 0
      let sl := { Block.blankSlot 0 with gen := some 5, arm := 8, pendingGen := some 0, pendingArm := 9 }
      let arms := [8, 9].map (fun i => { flowOf opArm with id := i })
      let b := streamBlock f sl (queue0 [] none) []
      let s := at' { b with flows := b.flows ++ { genFlow 0 with id := 5 } :: arms }
      Settled s ∧ BegunNow s (fun g => isOp opArm g && isArm a g) 1 f ∧ f.saMask = 0 ∧ (s.blk.slot f.saStream).gen = some 5 ∧
        (s.blk.slot f.saStream).stopped = false ∧ (s.blk.flow? 5).isSome = true ∧ (s.blk.flow? 8).isSome = true ∧
        (s.blk.flow? 9).isSome = true ∧ s.blk.writesWait 5 = false := by decide
/-- The satchel of queue 0 for 4 rows, in a state and held by flow 1. -/
def sat0 (st : SatState) (data : Bytes) : Satchel :=
  { Satchel.empty with state := st, holder := some 1, rows := 4, cols := 16, pitch := 64, data := data,
                       poison := List.replicate 4 false }
/-- What STREAM_RUN asks: the grant goes to slot 0, whose generation is flow f. -/
abbrev Granted (s : State) (f : Flow) : Prop :=
  Settled s ∧ s.blk.ready = true ∧ s.blk.suUp (0 / 4) = true ∧ (s.blk.grantRun (0 / 4)).map (·.1) = some 0 ∧
    (s.blk.slot 0).gen.bind s.blk.flow? = some f
theorem witness_StreamRunsMoveOn :
    (let s := at' (streamBlock (genFlow 0) (slot0 (streamDesc 0 0 0)) (queue0 [.empty, .empty] none) [])
     Granted s (genFlow 0) ∧ s.blk.filling (genFlow 0) = none) ∧
    (let s := at' (streamBlock (genFlow 0) (slot0 (streamDesc 0 0 0)) (queue0 [sat0 .granted [], .empty] none) [])
     Granted s (genFlow 0) ∧ s.blk.filling (genFlow 0) = some 0 ∧
       (s.blk.grantRun 0).any (fun r => decide (GoesOn s (r.2.loadRun s.mem (genFlow 0) 0) (genFlow 0))) = true) ∧
    (let x := sat0 .held (zeros 256)
     let s := at' (streamBlock (genFlow 1) (slot0 (streamDesc 1 0 0)) (queue0 [x, .empty] (some 1)) [])
     Granted s (genFlow 1) ∧ sdKind (streamDesc 1 0 0) ≠ 0 ∧ sdCrc (streamDesc 1 0 0) = false ∧
       s.blk.emptying (genFlow 1) = some x) := by decide
/-- A STORE with CRC of 256 bytes behind a part of some bytes, its ARM with or without RELEASE behind another command. -/
def crcStore (rel part : Nat) : State :=
  let d := streamDesc 1 0 0 + 2 ^ 3
  let f := { genFlow 1 with id := 5, entry := d }
  let q := queue0 [{ sat0 .held (zeros 256) with holder := some 5 }, .empty] (some 5)
  at' { streamBlock f { slot0 d with gen := some 5, arm := 4, part := zeros part } q [] with
    flows := [flowOf opNop, { flowOf (opArm + 2 ^ 9 * rel) with id := 4 }, f] }
theorem witness_StreamRunsMoveOn_crc :
    ∀ rel ∈ [0, 1], ∀ part ∈ [0, 3840],
      let s := crcStore rel part
      let d := (s.blk.slot 0).active
      Settled s ∧ s.blk.ready = true ∧ s.blk.suUp (0 / 4) = true ∧ (s.blk.grantRun (0 / 4)).map (·.1) = some 0 ∧
        sdKind d ≠ 0 ∧ sdCrc d = true ∧ (s.blk.slot 0).part.length = part ∧
        ((s.blk.slot 0).gen.bind s.blk.flow?).map (fun f => (s.blk.effectsHeld f, (s.blk.emptying f).map (fun x =>
          min (x.rows * sdRowBytes d - f.taken) (sdTotal d - (s.blk.slot 0).pos)))) = some (rel == 1, some 256) := by decide
theorem witness_GenerationsAndSatchelsMoveOn :
    (∀ sl ∈ [slot0 (streamDesc 0 0 0), { slot0 (streamDesc 0 0 0) with pendingGen := some 0, pendingArm := 8 },
        slot0 (streamDesc 0 1 2)],
      let s := at' (streamBlock (genFlow 0) { sl with pos := 256 } (queue0 [] none) [])
      Settled s ∧ (s.blk.slot 0).gen.bind s.blk.flow? = some (genFlow 0) ∧ (s.blk.slot 0).stopped = false ∧
        (s.blk.slot 0).ringing = false ∧ s.blk.genDone (genFlow 0) (s.blk.slot 0) = true ∧ s.blk.bell? 0 = none ∧
        s.blk.genFenced 0 0 = false) ∧
    (let s := at' (streamBlock (genFlow 0) { slot0 (streamDesc 0 0 0) with stopped := true } (queue0 [] none) [])
     Settled s ∧ (s.blk.slot 0).gen.bind s.blk.flow? = some (genFlow 0) ∧ (s.blk.slot 0).stopped = true ∧
       s.blk.writesWait 1 = false ∧ (s.blk.slot 0).pendingGen = none) ∧
    sdBellEn (streamDesc 0 0 0) = false ∧ sdBellEn (streamDesc 0 1 2) = true ∧ 1 < sdParties (streamDesc 0 1 2) := by decide
theorem witness_GenerationsAndSatchelsMoveOn_satchels :
    (let t : Tile := { flow := 1, index := 0, rows := 4, cols := 16, fmt := 0, pitch := 64, data := [], poison := [] }
     let c : GrantClaim := { queue := 0, remote := none, since := 0, tile := some t }
     let q := queue0 [.empty, .empty] none
     let s := at' (streamBlock (genFlow 0) (slot0 (streamDesc 0 0 0)) q [c])
     Settled s ∧ s.blk.queue? 0 = some q ∧ s.blk.openClaims q = [(c, genFlow 0)] ∧
       (s.blk.grant (2 ^ 16 + 0) ((s.blk.openClaims q).map (·.2))).map (·.1) = some (genFlow 0) ∧
       q.sats.findIdx? (fun x => x.state == .free) = some 0 ∧ s.blk.faults.injections = []) ∧
    (let q := queue0 [sat0 .granted (zeros 256), .empty] none
     Block.readyToArrive q = some 0) ∧
    (let x := { sat0 .arrived (zeros 256) with holder := none }
     let q := queue0 [x, .empty] (some 1)
     let s := at' (streamBlock (genFlow 1) (slot0 (streamDesc 1 0 0)) q [])
     Settled s ∧ s.blk.queue? 0 = some q ∧ q.consumer.bind s.blk.flow? = some (genFlow 1) ∧
       s.blk.wantsSatchel q (genFlow 1) = true ∧ Block.nextArrived q = some 0 ∧ q.sats[0]? = some x ∧ x.err = [] ∧
       x.state = .arrived) := by decide

/-! ### Hypotheses that are met: timers and synchronisation -/

theorem witness_TimersEndWaits :
    (∀ op ∈ [opBell, opWait, opFence],
      let g := { flowOf (pack [(0, op), (96, 65535)]) with arrived := true, snapshot := [2] }
      let s := at' (withFlow (withFlow onBlock g) { flowOf opNop with id := 2 })
      Settled s ∧ s.blk.flow? 1 = some g ∧ g.stream = none ∧ g.timeoutUs ≠ 0 ∧ g.stage = .running ∧ g.formed = 0 ∧
        s.blk.snapshotOpen g = true) ∧
    (let t : Tile := { flow := 1, index := 0, rows := 4, cols := 16, fmt := 0, pitch := 64, data := [], poison := [] }
     let c : GrantClaim := { queue := 0, remote := none, since := 0, tile := some t }
     let s := at' (streamBlock (opFlow opProject) (Block.blankSlot 0) (queue0 [.empty, .empty] none) [c])
     Settled s ∧ s.blk.waitingClaim 1 0 = some c ∧
       ∀ g ∈ s.blk.flows, g.id ≠ 1 → s.blk.holdsSatchel 0 g = true → s.blk.idle g = false) := by decide
theorem witness_BellsAndSignals :
    (∀ p ∈ [1, 2, 3], let f := flowOf (pack [(0, 0x13), (72, p)])
      let g := { flowOf (pack [(0, 0x13), (72, p)]) with id := 2, arrived := true }
      let x : Bell := { number := 0, parties := p, arrivals := [2] }
      let b := withFlow (withFlow onBlock f) g
      let s := at' { b with streams := { b.streams with bells := [x] } }
      Settled s ∧ f.acquires = false ∧ f.formed ≠ 1 ∧ f.arrived = false ∧ BegunNow s (isOp opBell) 1 f ∧
        s.blk.bell? f.blNo = some x ∧ s.blk.flow? 2 = some g ∧ g.stream = none ∧ g.acquires = false) ∧
    (∀ p ∈ [1, 2], let f := flowOf (pack [(0, 0x13), (72, p)])
     let s := at' (withFlow onBlock f)
     BegunNow s (isOp opBell) 1 f ∧ s.blk.bell? f.blNo = none ∧ f.blParties = p) ∧
    (∀ op ∈ [0, 1, 2], let f := flowOf (pack [(0, 0x14), (64, op), (80, 4095), (128, 2 ^ 64 - 1)])
      BegunNow (at' (withFlow onBlock f)) (isOp opSignal) 1 f ∧ (withFlow onBlock f).effectsHeld f = false) ∧
    (let f := { flowOf (pack [(0, 0x14), (9, 1)]) with id := 2 }
     let s := at' (withFlow { onBlock with flows := [flowOf opNop] } f)
     BegunNow s (isOp opSignal) 2 f ∧ s.blk.effectsHeld f = true ∧ f.acquires = false) ∧
    (∀ v ∈ [0, 1], let f := flowOf (pack [(0, 0x15), (80, 4095), (128, v)])
      let s := at' (withFlow onBlock f)
      BegunNow s (isOp opWait) 1 f ∧ f.acquires = false ∧ s.blk.waitHolds f = (v == 0)) := by decide
theorem witness_FencesAndFlushes :
    (∀ op ∈ [opNop, opFence, opFlush, opAcquire], let f := { flowOf op with snapshot := [2] }
      let s := at' (withFlow onBlock f)
      Settled s ∧ BegunNow s (isOp op) 1 f ∧ f.acquires = false ∧ f.flInvalidate = false ∧ s.blk.snapshotOpen f = false ∧
        ∀ l ∈ s.blk.cache.lines, l.bb = false ∧ l.err = 0) ∧
    (let f := { flowOf opFence with snapshot := [2] }
     let s := at' (withFlow (withFlow onBlock f) { flowOf opNop with id := 2 })
     BegunNow s (isOp opFence) 1 f ∧ s.blk.snapshotOpen f = true) := by decide

/-! ### Hypotheses that are met: commands that move and compute -/

/-- A flow that has begun goes on with its work in this step. -/
def mayGoOn (s : State) (is : Flow → Bool) (f : Flow) (work : Memory → Block → Flow → Block) : Bool :=
  decide (Settled s ∧ s.blk.startable 1 is = some f ∧ f.stage = .running ∧ s.blk.mayWork 1 = true ∧ GoesOn s (work s.mem s.blk f) f)
/-- Flow 1 with a command entry, an inline entry of zeros and a table's copy. -/
def workFlow (e : Nat) : Flow := { flowOf e with inline := zeros 64, copies := [⟨0, natLE 64 desc2⟩] }
/-- The READY state with that flow. -/
def workState (e : Nat) : State := at' (withFlow onBlock (workFlow e))
theorem witness_CommandsIssueTheirWork :
    let copy := pack [(0, 0x0C), (96, 64), (128, 1), (160, 0x1000), (224, 0x2000)]
    let add := pack [(0, 4), (84, 1), (128, 1)]
    let upd := pack [(0, 5), (84, 1), (96, 1)]
    let com := pack [(0, 6), (84, 1), (128, 1)]
    let quant := pack [(0, 9), (96, 2), (160, 1), (256, 0x1000), (320, 0x2000)]
    let cal := pack [(0, 0x0A), (96, 2), (160, 1)]
    let board := pack [(0, 0x0B), (96, 1)]
    mayGoOn (workState copy) (isOp opCopy) (workFlow copy) Block.copyWork ∧ mayGoOn (workState add) (isOp opScatterAdd) (workFlow add) Block.scatterWork ∧
      mayGoOn (workState upd) (isOp opRowUpdate) (workFlow upd) Block.scatterWork ∧ mayGoOn (workState com) (isOp opRowCommit) (workFlow com) Block.commitWork ∧
      mayGoOn (workState quant) (isOp opQuantise) (workFlow quant) Block.quantiseWork ∧
      mayGoOn (workState cal) (isOp opCalibrate) (workFlow cal) Block.calibrateWork ∧
      mayGoOn (workState board) (isOp opBlackboard) (workFlow board) Block.boardWork ∧ (workState board).blk.loadAhead (workFlow board) = false ∧
      on.blk.startable 1 (isOp opCopy) = none ∧ (∀ e ∈ [add, upd, com], 0 < (workFlow e).trCount) ∧
      (∀ e ∈ [copy, add, upd, com, quant, cal, board], (workFlow e).cut = false) := by decide
theorem witness_InlineCopyAsksForItsWrites :
    let f := { flowOf (pack [(0, 0x0C), (17, 7), (66, 1), (96, 448), (128, 1), (224, fast0 + 4000)]) with inline := zeros 448 }
    let s := at' (withFlow onBlock f)
    Settled s ∧ BegunNow s (isOp opCopy) 1 f ∧ f.stage = .running ∧ f.cpInline = true ∧ f.cpRows = 1 ∧ f.cpDstCrc = false ∧
      (cutPages f.cpDst f.cpLength).length = 2 ∧ s.blk.effectsHeld f = false := by decide
theorem witness_InlineCopyAsksForItsWrites_release :
    let f := { flowOf (pack [(0, 0x0C), (9, 1), (17, 7), (66, 1), (96, 448), (128, 1), (224, fast0 + 4000)]) with
      id := 2, inline := zeros 448 }
    let s := at' (withFlow { onBlock with flows := [flowOf opNop] } f)
    Settled s ∧ BegunNow s (isOp opCopy) 2 f ∧ f.stage = .running ∧ f.cpInline = true ∧ f.cpRows = 1 ∧ f.cpDstCrc = false ∧
      s.blk.effectsHeld f = true := by decide
theorem witness_CommandsFeedTheirWing :
    let pool := pack [(0, 1), (84, 1), (112, 1), (128, 1), (160, 1)]
    let raw := pack [(0, 2), (84, 1), (128, 1)]
    let proj := pack [(0, 7), (96, 2), (112, 1), (128, 1), (160, 0x1000), (224, 0x2000), (352, 8), (376, 8)]
    let vec := pack [(0, 8), (96, 2), (128, 1), (160, 0x1000), (288, 8)]
    mayGoOn (workState pool) (isOp opGatherPool) (workFlow pool) Block.gatherWork ∧ mayGoOn (workState raw) (isOp opGatherRaw) (workFlow raw) Block.gatherWork ∧
      mayGoOn (workState proj) (isOp opProject) (workFlow proj) Block.projectWork ∧ mayGoOn (workState vec) (isOp opVecChain) (workFlow vec) Block.vecWork ∧
      on.blk.startable 1 (isOp opProject) = none := by decide
theorem witness_CommandsFeedTheirWing_recall :
    let f0 := { recallFlow with entry := pack [(0, 3), (88, 1), (96, 1), (144, 2), (256, 0x1000)] }
    let work (n : Nat) (bad : Bool) : RecallWork :=
      { slots := [], given := 0, next := 0, full := false, newKey := [], newValue := [], appendBad := bad, queries := [],
        kept := [], poisonedKeys := 0, nanScores := 0, admitted := 0, phase := n, appended := false, appendSlot := 0 }
    mayGoOn (at' (withFlow onBlock f0)) (isOp opRecall) f0 Block.recallWork ∧ f0.search = none ∧ f0.cut = false ∧
    (∀ x ∈ [(false, false), (true, true), (true, false)],
      let f := { f0 with search := some (work 2 x.2), entry := f0.entry + 2 ^ 133 * b2n x.1 }
      let s := at' (withFlow onBlock f)
      mayGoOn s (isOp opRecall) f Block.recallWork ∧ s.blk.writesWait 1 = false ∧ s.blk.tileOpen 1 = false ∧ f.rcAppend = x.1) ∧
    (let f := { f0 with search := some (work 4 false) }
     mayGoOn (at' (withFlow onBlock f)) (isOp opRecall) f Block.recallWork ∧ f.rcResult = 0) := by decide

/-! ### Hypotheses that are met: Seryo ports -/

/-- A link flit with an LCMD and further payload fields. -/
def linkFlit (lcmd : Nat) (l : List (Nat × Nat)) : Flit :=
  mkFlit (pack [(0, 2)]) (natLE 240 (pack ((96, lcmd) :: l) >>> 96)) false
/-- A DATA flit that holds a whole message of a pool. -/
def dataFlit (pool seq : Nat) (msg : Bytes) : Flit :=
  mkFlit (pack [(0, 1), (4, pool % 4), (6, pool / 4), (7, 1), (8, 1), (16, seq)]) msg false
/-- A READY block whose port 31 has a state, a neighbour and its own buffers. -/
def portBlock (st nb : Nat) (p : Port) : Block :=
  (odAt onBlock [(0x2701, 32, st), (0x2701, 0x40, nb)]).putPort { p with number := 31 }
/-- A blank port. -/
def port0 : Port := blankPort 31

theorem witness_PortsComeUpAndGoDown :
    (∀ st ∈ [1, 2, 3], let s := at' (portBlock st 0xFF { port0 with replay := [(0, 0)] })
      Settled s ∧ s.blk.mayTrain = true ∧ s.blk.portState 31 = st ∧ (s.blk.port 31).helloOk = false ∧
        (s.blk.port 31).replay ≠ []) ∧
    State.reset.blk.mayTrain = false ∧
    (let own := linkFlit 1 [(104, on.blk.package)]
     let other := linkFlit 1 [(104, 63)]
     flitGood own = true ∧ fl own 3 0 = 2 ∧ fl own 103 96 = 1 ∧ fl own 109 104 = on.blk.package ∧ flitGood other = true ∧
       fl other 109 104 ≠ on.blk.package ∧ on.blk.peer? (fl other 109 104) = none ∧ on.blk.package < 64) ∧
    (let x := linkFlit 5 []
     flitGood x = true ∧ fl x 3 0 = 2 ∧ fl x 103 96 = 5) := by decide +kernel
theorem witness_FlitsAreTakenInOrder :
    (let p := { port0 with rxSeq := 65535, told := 65535, nakSeq := 4 }
     let s := at' (portBlock 3 9 p)
     Settled s ∧ s.blk.portState 31 = 3 ∧ (s.blk.port 31).rxSeq = 65535 ∧ (s.blk.port 31).naking = false ∧
       (s.blk.port 31).txq = [] ∧ s.blk.NoneLeaves) ∧
    (let x := mkFlit (pack [(0, 1), (4, 1), (7, 1), (16, 65535)]) [] false
     let bad := mkFlit (pack [(0, 1), (4, 1), (7, 1), (16, 65535)]) [] true
     flitGood x = true ∧ fl x 3 0 = 1 ∧ fl x 31 16 = 65535 ∧ fl x 8 8 = 0 ∧ flitGood bad = false ∧ fl bad 3 0 = 1) ∧
    (∀ q ∈ [(2, 0), (2, 3), (3, 0), (3, 3)], let s := at' (portBlock 3 9 { port0 with nakSeq := 4, nakRun := q.2 })
      (s.blk.port 31).nakSeq = 4 ∧ (s.blk.port 31).nakRun = q.2) ∧
    (∀ c ∈ [2, 3, 4], let x := linkFlit c [(224, 4)]
      flitGood x = true ∧ fl x 3 0 = 2 ∧ fl x 103 96 = c ∧ fl x 48 48 = 0 ∧ fl x 239 224 = 4) ∧
    (let x := mkFlit 0 [] false
     flitGood x = true ∧ fl x 3 0 = 0) ∧ frameGood 0 = false ∧ frameGood (0x5C <<< 32 + 0x5C) = true := by decide +kernel

/-- Package 9 as a peer of session 5, with two messages' answers open. -/
def peer9 : Peer :=
  { number := 9, incarn := 5, ident := 77, neighbours := 0, ref := 0, refDist := 0, digest := 0, commitEpoch := 0, txn := 8,
    awaiting := [], backlog := [], rowRoutes := [], performed := [], heardAt := 0 }
/-- A READY block with a message of type t and session inc at UP port 31, in pool 3, from package 9 to package dst. -/
def msgBlock (t dst inc : Nat) (body : Bytes) : Block :=
  let b := portBlock 3 9 { port0 with rx := [(3, dataFlit 3 0 (mkMsg t 9 dst 0 7 inc body))] }
  { b with seryo := { b.seryo with peers := [peer9] } }
/-- The message arrives whole and has the type, the sender and the destination given. -/
abbrev Arrived (s : State) (t dst : Nat) (fs : List Flit) : Prop :=
  Settled s ∧ s.blk.portUp 31 = true ∧ firstMsg (s.blk.port 31) 3 = some fs ∧ mg (msgBytes fs) 5 0 = t ∧
    mg (msgBytes fs) 13 8 = 9 ∧ mg (msgBytes fs) 63 32 = 7 ∧ mg (msgBytes fs) 21 16 = dst
theorem witness_MessagesAreTaken :
    ∀ t ∈ [2, 4, 5, 6, 7, 8, 0x11], ∀ inc ∈ [5, 6],
      let s := at' (msgBlock t on.blk.package inc (zeros 32))
      let fs := [dataFlit 3 0 (mkMsg t 9 on.blk.package 0 7 inc (zeros 32))]
      Arrived s t s.blk.package fs ∧ s.blk.admitted (msgBytes fs) = (inc == 5) ∧ s.blk.NoneLeaves := by decide +kernel
theorem witness_MessagesAreTaken_asked :
    (let s := at' (msgBlock 1 on.blk.package 5 (zeros 32))
     (s.blk.onMsg 31 3 mtRgather (fun b src msg => Block.takeRgather s.mem b 31 src msg)).blocked = false) ∧
    (let s := at' (msgBlock 3 on.blk.package 5 (zeros 64))
     (s.blk.onMsg 31 3 mtRadd (fun b src msg => Block.takeRadd s.mem b 31 src msg)).blocked = false) ∧
    (∀ k ∈ [(2, 1), (4, 3), (8, 7)], let r : RemoteRow := ⟨k.2, 9, 0, 0, 7, false, 0, []⟩
      let f := { flowOf opScatterAdd with remote := [r] }
      let s := at' (withFlow (msgBlock k.1 on.blk.package 5 (zeros 32)) f)
      s.blk.flow? 1 = some f ∧ s.blk.asker 9 7 k.2 = some (f, r)) := by decide +kernel
theorem witness_MessagesAreTaken_tiles :
    (let q : SatQueue :=
       { number := 0, desc := pack [(0, 1), (2, 1), (8, 2), (16, 15), (32, 0xFF_FFFF)], sats := [.empty, .empty],
         consumer := none, turns := [], interval := 0, lastTake := none, count := 0 }
     let b := odAt (msgBlock 5 on.blk.package 5 (natLE 16 (pack [(24, 128), (32, 32768)]))) [(0x2600, 2, 1)]
     let s := at' { b with streams := { b.streams with queues := [q] } }
     (firstMsg (s.blk.port 31) 3).map (fun fs => s.blk.grantRefused (mg (msgBytes fs) 151 128) (mg (msgBytes fs) 159 152)
       (mg (msgBytes fs) 178 160)) = some false ∧ s.blk.peer? 9 = some peer9 ∧ s.blk.rollRefuses 9 = false ∧
       peer9.performed.find? (fun e => e.txn == 7) = none) ∧
    (let q : SatQueue :=
       { number := 0, desc := pack [(0, 1), (2, 1), (8, 2), (16, 15), (32, 0xFF_FFFF)],
         sats := [.empty, { Satchel.empty with state := .granted, remote := some (9, 6) }], consumer := none, turns := [],
         interval := 0, lastTake := none, count := 0 }
     let b := odAt (msgBlock 7 on.blk.package 5 (natLE 32 (pack [(24, 1), (31, 1), (32, 6)]))) [(0x2600, 2, 1)]
     let s := at' { b with streams := { b.streams with queues := [q] } }
     (firstMsg (s.blk.port 31) 3).map (fun fs => (mg (msgBytes fs) 159 159, s.blk.grantedTo (mg (msgBytes fs) 151 128)
       (mg (msgBytes fs) 157 152) 9 (mg (msgBytes fs) 175 160))) = some (1, true) ∧ s.blk.rollRefuses 9 = false) := by decide +kernel
theorem witness_DiscoveryAndForwarding :
    (let s := at' { msgBlock 0x10 on.blk.package 6 (zeros 64) with seryo := { (msgBlock 0x10 on.blk.package 6 (zeros 64)).seryo with peers := [] } }
     Arrived s 0x10 s.blk.package [dataFlit 3 0 (mkMsg 0x10 9 on.blk.package 0 7 6 (zeros 64))] ∧ s.blk.neighbour 31 = 9 ∧
       9 ≠ s.blk.package ∧ s.blk.peer? 9 = none) := by decide +kernel
theorem witness_DiscoveryAndForwarding_route :
    (let s := at' (msgBlock 0x11 on.blk.package 5 (zeros 16))
     Arrived s 0x11 s.blk.package [dataFlit 3 0 (mkMsg 0x11 9 on.blk.package 0 7 5 (zeros 16))] ∧ s.blk.neighbour 31 = 9 ∧
       s.blk.peer? 9 = some peer9 ∧ peer9.incarn = 5) := by decide +kernel
theorem witness_DiscoveryAndForwarding_forward :
    (∀ t ∈ [1, 8, 0x10], let s := at' (odAt (msgBlock t 33 5 []) [(0x2700, 3, 1), (0x2701, 1, 3), (0x2701, 0x21, 33)])
      let fs := [dataFlit 3 0 (mkMsg t 9 33 0 7 5 [])]
      Arrived s t 33 fs ∧ 33 ≠ s.blk.package ∧ mg (msgBytes fs) 22 22 = 0 ∧ s.blk.od' 0x2700 3 = 1 ∧
        s.blk.directPorts 33 ≠ []) := by decide +kernel

/-! ### Hypotheses that are met: faults, power, start-up -/

/-- The units and classes of the first three levels of R500, as the model grades them with no record open. -/
theorem witness_FaultsAreGradedAndRecorded :
    (Settled on ∧ on.blk.powered = true ∧ on.blk.engineState ≠ 4 ∧ on.blk.faults.lastNo + 1 < 2 ^ 32 ∧
      on.blk.openRecs.length < 64) ∧
    (classKnown 1 = true ∧ unitKnown 0x100 = true ∧ on.blk.fenced 0x100 = false ∧ on.blk.faultLevel 1 0x100 = 0) ∧
    (classKnown 2 = true ∧ on.blk.faultLevel 2 0x100 = 0) ∧ classKnown 0 = false ∧
    unitKnown (islandUnit (.wingIsland .south)) = true := by decide
/-- The same without core rail good, and HALTED. -/
theorem witness_FaultsAreGradedAndRecorded_halted :
    (let s := at' onBlock.railOff; Settled s ∧ s.blk.powered = false) ∧
    (let s := at' (onBlock.halt 1)
     Settled s ∧ s.blk.powered = true ∧ s.blk.engineState = 4 ∧ s.blk.faultLevel 7 0x100 = 3) := by decide
theorem witness_FaultsAreGradedAndRecorded_levels :
    (∃ cls, cls < 256 ∧ classKnown cls = true ∧ unitKnown 0x100 = true ∧ isAgent 0x100 = true ∧ on.blk.faultLevel cls 0x100 = 1) ∧
    (∃ cls, cls < 256 ∧ classKnown cls = true ∧ unitKnown 0x600 = true ∧ on.blk.faultLevel cls 0x600 = 3) ∧
    fenced0.blk.fenced 0 = true ∧ noticeClass 1 = false ∧
    (let b : Block := { onBlock with faults := { onBlock.faults with returning := [1] } }
     b.faults.returning.contains (Block.wingNo .south) = true ∧ b.faults.bridgeFenced = false ∧
       b.faults.ownFence.contains 16 = false) ∧
    on.blk.faults.returning.contains (Block.wingNo .south) = false := by decide
theorem witness_LevelZeroRecordsCloseThemselves :
    Settled open812 ∧ Block.recOpen (open812.blk.slotRec 63) = true ∧ open812.blk.od' 0x2801 2 ≠ 0 ∧
      bits (open812.blk.slotRec 63) 41 40 = 0 ∧ (odAt open812.blk [(0x2801, 2, 0)]).od' 0x2801 2 = 0 := by decide
/-- A READY state whose lease has lapsed, or is claimed. -/
def leased (lapsed claim : Bool) : State :=
  at' { onBlock with faults := { onBlock.faults with epochNorth := 1, epochSouth := 1, lapsed := lapsed, claim := claim } }
theorem witness_LeaseMovesTheToken :
    (∀ x ∈ [(false, false), (true, false), (false, true)], let s := leased x.1 x.2
      Settled s ∧ s.blk.leaseRuns = true ∧ s.blk.faults.injections = [] ∧ s.blk.wingUp s.blk.holderWing = true ∧
        s.blk.followerUp = true ∧ s.blk.faults.lapsed = x.1 ∧ s.blk.faults.claim = x.2 ∧
        s.blk.faults.renewed + 14000 ≤ max s.blk.time (s.blk.faults.confirmed + 14000)) := by decide
theorem witness_LeaseMovesTheToken_alone :
    (let s := at' (odAt onBlock [(0x1000, 9, 1)])
     Settled s ∧ s.blk.leaseRuns = true ∧ s.blk.followerUp = false ∧ s.blk.faults.lapsed = false) ∧
    (let s := at' { onBlock with time := 5, faults := { onBlock.faults with renewed := 5 } }
     s.blk.leaseRuns = true ∧ s.blk.followerUp = true ∧
       max s.blk.time (s.blk.faults.confirmed + 14000) < s.blk.faults.renewed + 14000) := by decide
theorem witness_PowerAndHeatAreHeld :
    (Settled on ∧ on.blk.powered = true ∧ fresherSeq on.blk.power.seq 3 = true ∧ fresherSeq (some 3) 3 = false ∧
      on.blk.wingUp .north = true ∧ on.blk.engineState = 2 ∧ on.blk.samples = true ∧
      (odAt onBlock [(0x2802, 9, 1)]).samples = false) ∧
    (let b := odAt onBlock [(0x2900, 1, 60)]
     b.pass .north ≠ 0 ∧ (b.engine .north).current = none ∧ (b.engine .north).ready = []) ∧
    (let b := onBlock.setWingPower .north { onBlock.wingPower .north with asked := some (60, 5) }
     (b.wingPower .north).asked = some (60, 5)) ∧
    (on.blk.engineState ≠ 4 ∧ on.blk.od' 0x2500 2 ≤ 8 ∧ 0 < on.blk.od' 0x2500 2 ∧ on.blk.od' 0x2501 1 ≤ on.blk.od' 0x2501 2 ∧
      on.blk.od' 0x2501 2 ≤ on.blk.od' 0x2501 3 ∧ on.blk.od' 0x2502 0x11 ≤ 3) ∧
    (on.blk.wingEnabled .north = true ∧ islandDomain 0 = Block.wingNo .north ∧ on.blk.power.failed.contains 11 = false) := by decide
/-- A block that waits at step 8 of start-up, with the last three conditions as given. -/
def waiting8 (cache trained base : Bool) : State :=
  at' (odAt { onBlock with startUp := { onBlock.startUp with step := 8, cacheReady := cache, trained := trained, timebaseSet := base } }
    [(0x2000, 4, 1)])
theorem witness_StartUpReachesReady :
    (Settled on ∧ on.blk.powered = true ∧ on.blk.tiersRun = true ∧ on.blk.words = []) ∧
    (let b : Block := { onBlock with startUp := { onBlock.startUp with step := 0 } }
     (at' (odAt b [(0x2000, 4, 0)])).blk.powered = false) ∧
    (State.reset.blk.engineState = 1 ∧ State.reset.blk.startUp.step = 2 ∧ State.reset.blk.startUp.cacheReady = false) := by decide
theorem witness_StartUpReachesReady_open :
    (∀ x ∈ [(false, true, true), (false, false, true), (true, true, false), (true, false, false), (true, false, true)],
      let s := waiting8 x.1 x.2.1 x.2.2
      Settled s ∧ s.blk.engineState = 1 ∧ s.blk.startUp.step = 8 ∧ s.blk.startUp.cacheReady = x.1 ∧ s.blk.od' 0x2000 9 = 0 ∧
        s.blk.startUp.trained = x.2.1 ∧ s.blk.startUp.timebaseSet = x.2.2 ∧ s.blk.od' 0x2500 2 ≤ 8) := by decide
theorem witness_StartUpReachesReady_retrain :
    (0 < on.blk.od' 0x2500 2 ∧ (∀ r ∈ on.blk.agents.retrains, r.1 ≠ 0)) ∧
    (let b : Block := { onBlock with agents := { onBlock.agents with retrains := [(0, some 5)] } }
     b.agents.retrains.find? (fun r => r.1 == 0) = some (0, some 5)) := by decide
theorem witness_HostLinkKeepsItsEpoch :
    (Settled on ∧ on.blk.powered = true ∧ on.blk.od' 0x2202 2 = 1 ∧ on.blk.od' 0x2202 1 = 7 ∧ on.blk.words = []) ∧
    (∀ st ∈ [0, 2, 3], let s := at' (odAt onBlock [(0x2202, 2, st)])
      Settled s ∧ s.blk.powered = true ∧ s.blk.od' 0x2202 2 = st) := by decide

end Sys2Proof.Tests
end

/-! ### The owner of an address (R318, R320, R321)

A fast-tier or bulk-tier address is written as the start of its tier, a stack or bulk channel, and an offset below that
range's size; the map's divisions then give the two parts back. -/

namespace Sys2Proof.Machine

theorem inFast_iff (a : Nat) :
    inFast a = true ↔ Config.fastStart ≤ a ∧ a < Config.fastStart + 8 * Config.stackBytes := by
  simp [inFast]

theorem inBulk_iff (a : Nat) :
    inBulk a = true ↔ Config.bulkStart ≤ a ∧ a < Config.bulkStart + 24 * Config.bulkBytes := by
  simp [inBulk]

theorem inFast_eq_false_of_inBulk {a : Nat} (h : inBulk a = true) : inFast a = false := by
  have hsep : Config.fastStart + 8 * Config.stackBytes ≤ Config.bulkStart := by decide
  rw [inBulk_iff] at h
  rw [← Bool.not_eq_true, inFast_iff]
  omega

theorem isHost_iff (a : Nat) : isHost a = true ↔ a < 2 ^ 52 ∧ inFast a = false ∧ inBulk a = false := by
  simp [isHost, and_assoc]

/-! ### The channel hash -/

theorem channelOf_eq (u : Nat) :
    channelOf u = u % 32 ^^^ (u / 2 ^ 5) % 32 ^^^ (u / 2 ^ 10) % 32 ^^^ (u / 2 ^ 15) % 32 ^^^ (u / 2 ^ 20) % 16 := by
  simp [channelOf, bits_eq]

/-- Each of the five fields that the hash combines has at most five bits, and so has their exclusive or. -/
theorem channelOf_lt (u : Nat) : channelOf u < 32 := by
  have field (n : Nat) : n % 32 < 2 ^ 5 := Nat.mod_lt n (by decide)
  have last : u / 2 ^ 20 % 16 < 2 ^ 5 := (Nat.mod_lt _ (by decide)).trans (by decide)
  rw [channelOf_eq]
  exact Nat.xor_lt_two_pow (Nat.xor_lt_two_pow (Nat.xor_lt_two_pow (Nat.xor_lt_two_pow
    (field _) (field _)) (field _)) (field _)) last

/-! ### The owner in each range of the map -/

theorem inFast_of_stack_offset {s o : Nat} (hs : s < 8) (ho : o < Config.stackBytes) :
    inFast (Config.fastStart + s * Config.stackBytes + o) = true := by
  have nextStack : (s + 1) * Config.stackBytes ≤ 8 * Config.stackBytes := Nat.mul_le_mul_right _ hs
  rw [Nat.succ_mul] at nextStack
  rw [inFast_iff]
  omega

theorem inBulk_of_channel_offset {c o : Nat} (hc : c < 24) (ho : o < Config.bulkBytes) :
    inBulk (Config.bulkStart + c * Config.bulkBytes + o) = true := by
  have nextChannel : (c + 1) * Config.bulkBytes ≤ 24 * Config.bulkBytes := Nat.mul_le_mul_right _ hc
  rw [Nat.succ_mul] at nextChannel
  rw [inBulk_iff]
  omega

theorem agentOf_stack_offset {s o : Nat} (hs : s < 8) (ho : o < Config.stackBytes) :
    agentOf (Config.fastStart + s * Config.stackBytes + o) = 32 * s + channelOf (o / 4096) := by
  have offset : Config.fastStart + s * Config.stackBytes + o - Config.fastStart = o + s * Config.stackBytes := by omega
  have stack : (o + s * Config.stackBytes) / Config.stackBytes = s := by
    rw [Nat.add_mul_div_right _ _ (by decide), Nat.div_eq_of_lt ho, Nat.zero_add]
  have inStack : (o + s * Config.stackBytes) % Config.stackBytes = o := by
    rw [Nat.add_mul_mod_self_right, Nat.mod_eq_of_lt ho]
  rw [agentOf, if_pos (inFast_of_stack_offset hs ho), stackOf, offset, stack, inStack]

theorem agentOf_channel_offset {c o : Nat} (hc : c < 24) (ho : o < Config.bulkBytes) :
    agentOf (Config.bulkStart + c * Config.bulkBytes + o) = 256 + c := by
  have bulk := inBulk_of_channel_offset hc ho
  have offset : Config.bulkStart + c * Config.bulkBytes + o - Config.bulkStart = o + c * Config.bulkBytes := by omega
  have channel : (o + c * Config.bulkBytes) / Config.bulkBytes = c := by
    rw [Nat.add_mul_div_right _ _ (by decide), Nat.div_eq_of_lt ho, Nat.zero_add]
  rw [agentOf, if_neg (by simp [inFast_eq_false_of_inBulk bulk]), if_pos bulk, bulkOf, offset, channel]

theorem agentOf_of_isHost {a : Nat} (h : isHost a = true) : agentOf a = Config.hostPort := by
  obtain ⟨-, notFast, notBulk⟩ := (isHost_iff a).mp h
  simp [agentOf, notFast, notBulk]

theorem isHost_of_outside_tiers {a : Nat} (ha : a < 2 ^ 52)
    (hfast : a < Config.fastStart ∨ Config.fastStart + 8 * Config.stackBytes ≤ a)
    (hbulk : a < Config.bulkStart ∨ Config.bulkStart + 24 * Config.bulkBytes ≤ a) : isHost a = true := by
  rw [isHost_iff, ← Bool.not_eq_true, ← Bool.not_eq_true, inFast_iff, inBulk_iff]
  omega

/-- Settles O11: the owner in each of the map's three ranges, with the hash written out by `channelOf_eq`. -/
theorem addressHasItsOwner : Obligations.AddressHasItsOwner := by
  refine ⟨fun s o hs ho => ?_, fun c o hc ho => agentOf_channel_offset hc ho, fun a ha hfast hbulk => ?_⟩
  · intro u ch
    have hash : channelOf u = ch := channelOf_eq u
    rw [← hash]
    exact ⟨agentOf_stack_offset hs ho, channelOf_lt u⟩
  · have host := isHost_of_outside_tiers ha hfast hbulk
    exact ⟨host, agentOf_of_isHost host⟩

end Sys2Proof.Machine

/-! ### The dictionary window without reach (R453, R457, R460)

A window write of a whole slot is a write of its entry, recorded; a write over a path that its entry refuses leaves the
block as it was, so that the record is all that is left of it. -/

namespace Sys2Proof.Machine

/-- A command answered by `finishRead` with no read that waits gives what its quiet end holds. -/
theorem gives_of_finishRead {c : Instr} {s : State} {b : Block} {P : State → Prop} (h : exec c s = finishRead s b)
    (hb : b.blocked = false) (hq : b.Quiet) (hP : P (quietEnd s b)) : Gives c s P :=
  ⟨quietEnd s b, by rw [h, finishRead_quiet s b hb hq], rfl, hP⟩

namespace Block

/-- Whether a block is quiet depends on its faults, its held effects, its ports and their states alone. -/
theorem Quiet.congr {b c : Block} (hq : b.Quiet) (hr : c.raised = b.raised) (hh : c.heldBack = b.heldBack)
    (hs : c.seryo = b.seryo) (hp : ∀ n, c.portState n = b.portState n) : c.Quiet := by
  obtain ⟨noFault, noneHeld, silent⟩ := hq
  refine ⟨hr.trans noFault, hh.trans noneHeld, fun n hn hsends => ?_⟩
  have hport : c.port n = b.port n := by unfold port; rw [hs]
  have hup : c.portUp n = b.portUp n := by unfold portUp; rw [hp]
  rw [hp, hup] at hsends
  rw [hport]
  exact silent n (hs ▸ hn) hsends

/-- An entry below the port states leaves them as they are. -/
theorem setOd_portState (b : Block) {i j : Nat} (v n : Nat) (hi : i < 0x2700) (hj : j < 256)
    (hc : odKey i j ≠ odKey 0x1000 6) : (b.setOd i j v).portState n = b.portState n := by
  refine setOd_other b i j v 0x2701 (n + 1) ?_ hc ?_ <;> unfold odKey <;> omega

theorem count_portState (b : Block) {i j : Nat} (k n : Nat) (hi : i < 0x2700) (hj : j < 256)
    (hc : odKey i j ≠ odKey 0x1000 6) : (b.count i j k).portState n = b.portState n :=
  setOd_portState b _ n hi hj hc

/-! ### The record of a window write -/

theorem recordWindow_portState (b : Block) (code key n : Nat) :
    (b.recordWindow code key).portState n = b.portState n := by
  unfold recordWindow
  rw [count_portState _ _ _ (by decide) (by decide) (by decide), count_portState _ _ _ (by decide) (by decide) (by decide),
    setOd_portState _ _ _ (by decide) (by decide) (by decide)]

theorem recordWindow_heldBack (b : Block) (code key : Nat) : (b.recordWindow code key).heldBack = b.heldBack := by
  unfold recordWindow; simp only [count_heldBack, setOd_heldBack]

theorem recordWindow_seryo (b : Block) (code key : Nat) : (b.recordWindow code key).seryo = b.seryo := by
  unfold recordWindow; simp only [count_seryo, setOd_seryo]

/-- The record of a window write is in the dictionary alone. -/
theorem recordWindow_od_alone (b : Block) (code key : Nat) : { b.recordWindow code key with od := b.od } = b := by
  unfold recordWindow count setOd; rfl

theorem recordWindow_quiet {b : Block} (h : b.Quiet) (code key : Nat) : (b.recordWindow code key).Quiet :=
  h.congr (recordWindow_raised b code key) (recordWindow_heldBack b code key) (recordWindow_seryo b code key)
    (recordWindow_portState b code key)

theorem recordWindow_result (b : Block) (code key : Nat) :
    (b.recordWindow code key).od' 0x2000 1 = pack [(0, code), (16, key % 256), (24, key / 256),
      (40, (bits (b.od' 0x2000 1) 63 40 + 1) % 2 ^ 24)] := by
  unfold recordWindow
  rw [count_other _ _ _ _ _ _ (by decide) (by decide) (by decide),
    count_other _ _ _ _ _ _ (by decide) (by decide) (by decide), setOd_self]

theorem recordWindow_refusals (b : Block) {code : Nat} (key : Nat) (hc : code ≠ 0) :
    (b.recordWindow code key).od' 0x2000 2 = add64 (b.od' 0x2000 2) 1 := by
  have refusal : b2n (code != 0) = 1 := by simp [b2n, hc]
  unfold recordWindow
  rw [count_other _ _ _ _ _ _ (by decide) (by decide) (by decide), count_self, refusal,
    setOd_other _ _ _ _ _ _ (by decide) (by decide) (by decide)]

/-! ### A write of a slot -/

/-- A write of a whole slot, of 4 bytes where its entry has no more, is a write of its entry, recorded (R454, R456). -/
theorem windowWrite_slot (m : Memory) {b : Block} {i j size : Nat} {r : OdRow} (v : Nat) (hp : b.powered = true)
    (hi : 0x1000 ≤ i) (hi' : i < 0x3000) (hj : j < 256) (hr : odFind (odKey i j) = some r)
    (hsize : size = 8 ∨ (size = 4 ∧ r.ty.bytes ≤ 4)) :
    windowWrite m b (slotOff i j) size v =
      (odWrite m b false (odKey i j) v).2.recordWindow (odWrite m b false (odKey i j) v).1 (odKey i j) := by
  have inSlots : slotOff i j < 0x0100_0000 := by unfold slotOff; omega
  have whole : slotOff i j % 8 = 0 := by unfold slotOff; omega
  have key : odKey (0x1000 + slotOff i j / 2048) (slotOff i j / 8 % 256) = odKey i j := by
    unfold slotOff; congr 1 <;> omega
  unfold windowWrite slotWrite
  obtain rfl | ⟨rfl, small⟩ := hsize
  · simp [hp, inSlots, whole, key]
  · simp [hp, inSlots, whole, key, hr, small]

/-- The window refuses an entry while OD 0x1100.03 holds 0, signal words apart, and the entries that MCTP alone writes
always (R457). -/
theorem odWrite_accPath (m : Memory) {b : Block} {key : Nat} {r : OdRow} (v : Nat) (hr : odFind key = some r)
    (h : (b.od' 0x1100 3 = 0 ∧ isSignalKey key = false) ∨ mctpOnly key = true) :
    odWrite m b false key v = (accPath, b) := by
  have shut : (b.od' 0x1100 3 == 0 && !isSignalKey key || mctpOnly key) = true := by
    obtain ⟨reach, noSignal⟩ | only := h
    · simp [reach, noSignal]
    · simp [only]
  unfold odWrite
  cases b.writesShut false key
  · simp [hr, shut]
  · rfl

end Block

/-! ### What a refused window write leaves -/

theorem recorded_quietEnd (s : State) {code i j : Nat} (hc : code < 2 ^ 16) (hi : i < 2 ^ 16) (hj : j < 256) :
    Recorded s (quietEnd s (s.blk.recordWindow code (odKey i j))) code i j := by
  have sub : odKey i j % 256 = j := by unfold odKey; omega
  have index : odKey i j / 256 = i := by unfold odKey; omega
  unfold Recorded
  rw [quietEnd_od _ _ _ _ (by decide), Block.recordWindow_result, sub, index]
  generalize bits (s.blk.od' 0x2000 1) 63 40 = seq
  simp only [pack_cons, pack_nil, bits_eq]
  omega

/-- A window write that comes to the record of a refusal gives that record and changes nothing else (R456, R460). -/
theorem gives_refusedWindowWrite {s : State} {i j size v code : Nat} (hs : Settled s) (hc : code < 2 ^ 16) (hc' : code ≠ 0)
    (hi : i < 2 ^ 16) (hj : j < 256)
    (h : Block.windowWrite s.mem s.blk (slotOff i j) size v = s.blk.recordWindow code (odKey i j)) :
    Gives (.dictWrite (slotOff i j) size v) s (fun t =>
      Recorded s t code i j ∧ t.blk.od' 0x2000 2 = add64 (s.blk.od' 0x2000 2) 1 ∧ OdOnly s t windowKeys ∧ OnlyOd s t) := by
  have ⟨_, unblocked, quiet, _⟩ := hs
  have exec_eq : exec (.dictWrite (slotOff i j) size v) s = finishRead s (s.blk.recordWindow code (odKey i j)) := by
    show finishRead s (Block.windowWrite s.mem s.blk (slotOff i j) size v) = _
    rw [h]
  refine gives_of_finishRead exec_eq (by rw [Block.recordWindow_blocked, unblocked]) (Block.recordWindow_quiet quiet _ _)
    ⟨recorded_quietEnd s hc hi hj, ?_, ?_, onlyOd_quietEnd s _ hs (Block.recordWindow_od_alone ..)⟩
  · rw [quietEnd_od _ _ _ _ (by decide), Block.recordWindow_refusals _ _ hc']
  · exact odOnly_quietEnd s _ _ fun k l hl hk => Block.recordWindow_other _ _ _ k l hl hk

end Sys2Proof.Machine

/-! ### A message of one packet on the management port (R458, R459)

A message of at most 64 bytes is one frame. The endpoint takes it whole, and where its row names its operation, the step
serves it at once. -/

namespace Sys2Proof.Machine

/-- Bytes behind a run and before another read back by their place. -/
theorem slice_append {xs ys : Bytes} (zs : Bytes) {off len : Nat} (hx : xs.length = off) (hy : ys.length = len) :
    slice (xs ++ (ys ++ zs)) off len = ys := by
  subst hx hy
  simp [slice, zeros]

theorem chunks_of_length_le {α : Type} {n : Nat} {l : List α} (hn : 0 < n) (hl : l ≠ []) (h : l.length ≤ n) :
    chunks n l = [l] := by
  obtain ⟨x, xs, rfl⟩ := List.exists_cons_of_ne_nil hl
  have hmax : max n 1 = n := by omega
  have empty : ∀ fuel, chunksAux n fuel ([] : List α) = [] := fun fuel => by cases fuel <;> rfl
  rw [chunks, hmax, List.length_cons, chunksAux, List.take_of_length_le h, List.drop_of_length_le h, empty]
  simp

/-- The packet header of a request in one packet, from endpoint `source` under a tag (R458, log 36). -/
def requestHeader (dest source tag : Nat) : Nat :=
  pack [(0, 1), (8, dest), (16, source), (24, tag), (27, 1), (28, 0), (30, 1), (31, 1)]

/-- The header of a WRITE of one entry, before its value (R459). -/
def writeHeader (i j : Nat) : Nat := pack [(0, 1), (8, 2), (24, 1), (32, i), (48, j)]

section
variable {dest source tag : Nat} (hd : dest < 256) (hs : source < 256) (ht : tag < 8)
include hd hs ht

theorem requestHeader_lt : requestHeader dest source tag < 256 ^ 4 := by
  simp only [requestHeader, pack_cons, pack_nil]
  omega

theorem requestHeader_fields :
    bits (requestHeader dest source tag) 3 0 = 1 ∧ bits (requestHeader dest source tag) 15 8 = dest ∧
      bits (requestHeader dest source tag) 23 16 = source ∧ bits (requestHeader dest source tag) 26 24 = tag ∧
      bit (requestHeader dest source tag) 27 = true ∧ bit (requestHeader dest source tag) 30 = true ∧
      bit (requestHeader dest source tag) 31 = true := by
  simp only [requestHeader, pack_cons, pack_nil, bits_eq, bit_eq, decide_eq_true_eq]
  omega

end

theorem writeHeader_operation (i j : Nat) : bits (writeHeader i j) 14 8 = 2 := by
  simp only [writeHeader, pack_cons, pack_nil, bits_eq]
  omega

section
variable {i j : Nat} (hi : i < 2 ^ 16) (hj : j < 256)
include hi hj

theorem writeHeader_lt : writeHeader i j < 256 ^ 12 := by
  simp only [writeHeader, pack_cons, pack_nil]
  omega

theorem writeHeader_entry : bits (writeHeader i j) 47 32 = i ∧ bits (writeHeader i j) 55 48 = j := by
  simp only [writeHeader, pack_cons, pack_nil, bits_eq]
  omega

theorem writeHeader_reserved :
    bits (writeHeader i j) 7 0 = 1 ∧ bit (writeHeader i j) 15 = false ∧ bits (writeHeader i j) 31 24 = 1 ∧
      bits (writeHeader i j) 63 56 = 0 ∧ bits (writeHeader i j) 95 64 = 0 := by
  simp only [writeHeader, pack_cons, pack_nil, bits_eq, bit_eq, decide_eq_false_iff_not]
  omega

theorem badTursioc_writeHeader : Block.badTursioc (writeHeader i j) 20 = false := by
  obtain ⟨version, response, count, reserved, result⟩ := writeHeader_reserved hi hj
  simp [Block.badTursioc, writeHeader_operation, version, response, count, reserved, result]

end

namespace Block

/-! ### One packet taken -/

theorem frames_of_length_le (b : Block) {body : Bytes} (up dest source tag : Nat) (h : body ≠ []) (h' : body.length ≤ 64) :
    b.frames up dest source 1 tag body = [b.frame up (natLE 4 (requestHeader dest source tag) ++ body)] := by
  unfold frames
  rw [chunks_of_length_le (by decide) h h']
  rfl

theorem takeFrame_request (b : Block) (held : List Request) {body : Bytes} {source tag : Nat} (hb : body ≠ [])
    (hown : b.od' 0x1100 1 < 256) (hs : source < 256) (ht : tag < 8) :
    b.takeFrame held (b.frame 0 (natLE 4 (requestHeader (b.od' 0x1100 1) source tag) ++ body)) =
      b.takePacket held (requestHeader (b.od' 0x1100 1) source tag) body := by
  obtain ⟨version, dest, -, -, owner, -, -⟩ := requestHeader_fields hown hs ht
  have header := leNat_natLE 4 _ (requestHeader_lt hown hs ht)
  generalize requestHeader (b.od' 0x1100 1) source tag = hdr at *
  have packet : (b.frame 0 (natLE 4 hdr ++ body)).dropLast = natLE 4 hdr ++ body := List.dropLast_concat
  have front : (natLE 4 hdr ++ body).take 4 = natLE 4 hdr := List.take_left' (natLE_length 4 hdr)
  have rest : (natLE 4 hdr ++ body).drop 4 = body := List.drop_left' (natLE_length 4 hdr)
  have long : ¬ 4 + body.length < 5 := by
    have := List.length_pos_iff.2 hb
    omega
  unfold takeFrame
  simp [packet, front, rest, header, long, version, dest, owner]

/-- A message that is its own first and last packet is held whole where its endpoint has none under that tag. -/
theorem takePacket_whole (b : Block) (held : List Request) {part : Bytes} {hdr : Nat}
    (hfirst : bit hdr 31 = true) (hlast : bit hdr 30 = true) (hlen : part.length ≤ 512)
    (hnew : ∀ a ∈ b.dict.assembly, a.source ≠ bits hdr 23 16 ∨ a.tag ≠ bits hdr 26 24) :
    b.takePacket held hdr part = b.holdRequest held ⟨bits hdr 23 16, bits hdr 26 24, part⟩ := by
  have none_old : b.dict.assembly.find? (fun a => a.source == bits hdr 23 16 && a.tag == bits hdr 26 24) = none := by
    rw [List.find?_eq_none]
    intro a ha
    obtain h | h := hnew a ha <;> simp [h]
  have kept : b.forget (bits hdr 23 16) (bits hdr 26 24) = b := by
    have : b.dict.assembly.filter (fun a => a.source != bits hdr 23 16 || a.tag != bits hdr 26 24) = b.dict.assembly := by
      rw [List.filter_eq_self]
      intro a ha
      obtain h | h := hnew a ha <;> simp [h]
    unfold forget
    rw [this]
  unfold takePacket
  simp [hfirst, hlast, none_old, kept, joined, Nat.not_lt.2 hlen]

/-- A request in one packet that its row names is served in the step that receives it. -/
theorem management_request (m : Memory) (b : Block) {op source tag : Nat} {body : Bytes} (hp : b.powered = true)
    (hown : b.od' 0x1100 1 < 256) (hs : source < 256) (ht : tag < 8)
    (hnew : ∀ a ∈ b.dict.assembly, a.source ≠ source ∨ a.tag ≠ tag) (hbody : body ≠ []) (hlen : body.length ≤ 64)
    (htakes : b.takes body = true) (hfits : fits op ⟨source, tag, body⟩ = true) :
    management m b op (b.frames 0 (b.od' 0x1100 1) source 1 tag body) = serveRequest m b ⟨source, tag, body⟩ := by
  obtain ⟨-, -, fromSource, underTag, -, isLast, isFirst⟩ := requestHeader_fields hown hs ht
  have held : b.takeFrame [] (b.frame 0 (natLE 4 (requestHeader (b.od' 0x1100 1) source tag) ++ body)) =
      (b, [⟨source, tag, body⟩]) := by
    rw [takeFrame_request b [] hbody hown hs ht,
      takePacket_whole b [] isFirst isLast (by omega) (by rwa [fromSource, underTag]), fromSource, underTag]
    simp [holdRequest, htakes]
  unfold management
  rw [frames_of_length_le b 0 _ _ _ hbody hlen]
  simp [held, hp, hfits]

/-! ### A WRITE message served -/

theorem vendorHead_length (b : Block) : b.vendorHead.length = 5 := by simp [vendorHead]

theorem slice_vendorHead (b : Block) (rest : Bytes) : slice (b.vendorHead ++ rest) 0 5 = b.vendorHead :=
  slice_append (xs := []) rest rfl b.vendorHead_length

/-- A vendor message is told from a control message by its first byte, the message type. -/
theorem vendorHead_not_control (b : Block) (rest : Bytes) : (slice (b.vendorHead ++ rest) 0 1 == [0]) = false := by
  have type : slice (b.vendorHead ++ rest) 0 1 = natLE 1 0x7F := by
    rw [vendorHead, List.append_assoc]
    exact slice_append (xs := []) (ys := natLE 1 0x7F) _ rfl rfl
  rw [type]
  rfl

theorem takes_vendorHead (b : Block) (rest : Bytes) : b.takes (b.vendorHead ++ rest) = true := by
  simp [takes, slice_vendorHead, vendorHead_length]

theorem writeMessage_eq (b : Block) (i j v : Nat) :
    b.writeMessage i j v = b.vendorHead ++ (natLE 12 (writeHeader i j) ++ natLE 8 v) := List.append_assoc ..

theorem writeMessage_length (b : Block) (i j v : Nat) : (b.writeMessage i j v).length = 25 := by
  simp [writeMessage_eq, vendorHead_length]

theorem writeMessage_not_control (b : Block) (i j v : Nat) : (slice (b.writeMessage i j v) 0 1 == [0]) = false := by
  rw [writeMessage_eq, vendorHead_not_control]

theorem drop_writeMessage (b : Block) (i j v : Nat) :
    (b.writeMessage i j v).drop 5 = natLE 12 (writeHeader i j) ++ natLE 8 v := by
  rw [writeMessage_eq, List.drop_left' b.vendorHead_length]

section
variable {i j : Nat} (hi : i < 2 ^ 16) (hj : j < 256)
include hi hj

theorem leNat_take_writeMessage (b : Block) (v : Nat) :
    leNat (((b.writeMessage i j v).drop 5).take 12) = writeHeader i j := by
  rw [drop_writeMessage, List.take_left' (natLE_length 12 _), leNat_natLE 12 _ (writeHeader_lt hi hj)]

theorem badTursioc_writeMessage (b : Block) (v : Nat) :
    badTursioc (writeHeader i j) ((b.writeMessage i j v).drop 5).length = false := by
  rw [List.length_drop, writeMessage_length, badTursioc_writeHeader hi hj]

theorem fits_writeMessage (b : Block) (source tag v : Nat) : fits 2 ⟨source, tag, b.writeMessage i j v⟩ = true := by
  have op : operation ⟨source, tag, b.writeMessage i j v⟩ = some 2 := by
    unfold operation
    simp only [writeMessage_not_control, leNat_take_writeMessage hi hj, badTursioc_writeMessage hi hj,
      writeHeader_operation, Bool.false_eq_true, if_false]
  rw [fits, op]
  rfl

/-- A WRITE is answered with the result of the write of its entry over MCTP (R459). -/
theorem serveRequest_writeMessage (m : Memory) (b : Block) (source tag : Nat) {v : Nat} (hv : v < 2 ^ 64) :
    serveRequest m b ⟨source, tag, b.writeMessage i j v⟩ =
      (odWrite m (b.count 0x2000 3 1) true (odKey i j) v).2.tursiocReply ⟨source, tag, b.writeMessage i j v⟩
        (writeHeader i j) (odWrite m (b.count 0x2000 3 1) true (odKey i j) v).1 [] := by
  obtain ⟨index, sub⟩ := writeHeader_entry hi hj
  have value : leNat (slice ((b.writeMessage i j v).drop 5) 12 8) = v := by
    rw [drop_writeMessage, ← List.append_nil (natLE 8 v), slice_append [] (natLE_length 12 _) (natLE_length 8 v),
      leNat_natLE 8 v (by omega)]
  unfold serveRequest tursioc
  simp only [writeMessage_not_control, leNat_take_writeMessage hi hj, badTursioc_writeMessage hi hj,
    writeHeader_operation, value, Bool.false_eq_true, if_false]
  rw [tursiocWrite, index, sub]

end

/-! ### A response, and what it leaves -/

theorem tursiocReply_od' (b : Block) (q : Request) (hdr result : Nat) (value : Bytes) {i j : Nat}
    (h : odKey i j ≠ odKey 0x1100 4) : (b.tursiocReply q hdr result value).od' i j = b.od' i j := by
  unfold tursiocReply respond
  rw [count_other _ _ _ _ _ _ h (by decide) (by decide)]
  exact od'_congr _ _ rfl i j

theorem tursiocReply_quiet {b : Block} (hq : b.Quiet) (q : Request) (hdr result : Nat) (value : Bytes) :
    (b.tursiocReply q hdr result value).Quiet :=
  hq.congr rfl rfl rfl fun n => tursiocReply_od' b q hdr result value (by unfold odKey; omega)

/-! ### OD 0x1100.03 over MCTP -/

/-- Over MCTP the reach of the window takes either of its values while the engine is STARTING or READY (R457, R476). -/
theorem odWrite_reach (m : Memory) {b : Block} {v : Nat} (hs : b.engineState = 1 ∨ b.engineState = 2) (hv : v ≤ 1) :
    odWrite m b true (odKey 0x1100 3) v = (accOk, b.setOd 0x1100 3 v) := by
  have notShut : b.writesShut true (odKey 0x1100 3) = false := by
    obtain h | h := hs <;> simp [writesShut, ready, h]
  have row : odFind (odKey 0x1100 3) = some ⟨0x1100, 3, 3, .bool, .rw, 1, 0, 1⟩ := by decide
  have inRange : odInRange (b.od' 0x1000 6) (odKey 0x1100 3) ⟨0x1100, 3, 3, .bool, .rw, 1, 0, 1⟩ v = true := by
    obtain rfl | rfl : v = 0 ∨ v = 1 := by omega
    · rfl
    · rfl
  simp only [odWrite, notShut, row, inRange]
  rfl

end Block

/-- A WRITE over MCTP, sent by any endpoint under any tag, sets the reach of the window (R457 to R459). -/
theorem gives_reach_of_mctpWrite {s : State} {v source tag : Nat} (hset : Settled s) (hp : s.blk.powered = true)
    (hstate : s.blk.engineState = 1 ∨ s.blk.engineState = 2) (hv : v ≤ 1) (hown : s.blk.od' 0x1100 1 < 256)
    (hs : source < 256) (ht : tag < 8) (hnew : ∀ a ∈ s.blk.dict.assembly, a.source ≠ source ∨ a.tag ≠ tag) :
    Gives (.mctpWrite (s.blk.frames 0 (s.blk.od' 0x1100 1) source 1 tag (s.blk.writeMessage 0x1100 3 v))) s (fun t =>
      t.blk.od' 0x1100 3 = v) := by
  obtain ⟨-, unblocked, quiet, -⟩ := hset
  have hi : 0x1100 < 2 ^ 16 := by decide
  have hj : 3 < 256 := by decide
  have len := s.blk.writeMessage_length 0x1100 3 v
  have counted : (s.blk.count 0x2000 3 1).engineState = s.blk.engineState :=
    Block.count_other _ _ _ _ _ _ (by decide) (by decide) (by decide)
  have served : Block.management s.mem s.blk 2
      (s.blk.frames 0 (s.blk.od' 0x1100 1) source 1 tag (s.blk.writeMessage 0x1100 3 v)) =
      ((s.blk.count 0x2000 3 1).setOd 0x1100 3 v).tursiocReply ⟨source, tag, s.blk.writeMessage 0x1100 3 v⟩
        (writeHeader 0x1100 3) accOk [] := by
    rw [Block.management_request s.mem s.blk hp hown hs ht hnew (List.ne_nil_of_length_pos (by omega)) (by omega)
      (by rw [Block.writeMessage_eq, Block.takes_vendorHead]) (Block.fits_writeMessage hi hj _ _ _ _),
      Block.serveRequest_writeMessage hi hj _ _ _ _ (by omega), Block.odWrite_reach _ (counted ▸ hstate) hv]
  have quietAfter : ((s.blk.count 0x2000 3 1).setOd 0x1100 3 v).Quiet := quiet.congr rfl rfl rfl fun n => by
    rw [Block.setOd_portState _ _ _ (by decide) hj (by decide), Block.count_portState _ _ _ (by decide) hj (by decide)]
  refine gives_of_finishRead (congrArg (finishRead s) served) unblocked (Block.tursiocReply_quiet quietAfter _ _ _ _) ?_
  rw [quietEnd_od _ _ _ _ (by decide), Block.tursiocReply_od' _ _ _ _ _ (by decide), Block.setOd_self]

/-- Settles O13: a shut window's write comes to its record alone, and the WRITE message reaches OD 0x1100.03 as a single
packet that is served at once. -/
theorem windowIsShutWithoutReach : Obligations.WindowIsShutWithoutReach := by
  refine ⟨fun s i j size v r hs hp hi hi' hj hr hsize hshut => ?_, fun s v hs hp hstate hv hown hnone => ?_⟩
  · have refused : Block.odWrite s.mem s.blk false (odKey i j) v = (accPath, s.blk) := by
      refine Block.odWrite_accPath s.mem v hr (hshut.imp_right fun reach => ?_)
      obtain ⟨rfl, rfl⟩ := Prod.mk.inj reach
      rfl
    refine gives_refusedWindowWrite hs (by decide) (by decide) (by omega) hj ?_
    rw [Block.windowWrite_slot s.mem v hp hi hi' hj hr hsize, refused]
    rfl
  · exact gives_reach_of_mctpWrite hs hp hstate hv hown (by decide) (by decide) (by simp [hnone])

end Sys2Proof.Machine

/-! ### What the end of a step leaves alone

Where no fault was found and nothing is held back, the end of a step may still send IDLE flits. They are the fabric's
alone: whatever the ports have to tell, the dictionary and the writes to land stay as they are. -/

namespace Sys2Proof.Machine

namespace Block

theorem injected_keeps_od_posted (b : Block) (unit checker : Nat) :
    (b.injected unit checker).2.od = b.od ∧ (b.injected unit checker).2.posted = b.posted := by
  unfold injected
  split <;> exact ⟨rfl, rfl⟩

theorem sendIdle_keeps_od_posted (b : Block) (n : Nat) : (b.sendIdle n).od = b.od ∧ (b.sendIdle n).posted = b.posted := by
  unfold sendIdle launch
  exact b.injected_keeps_od_posted (0x300 + n) 5

theorem idleOut_keeps_od_posted (fuel : Nat) (b : Block) (n : Nat) :
    (idleOut fuel b n).od = b.od ∧ (idleOut fuel b n).posted = b.posted := by
  induction fuel generalizing b with
  | zero => exact ⟨rfl, rfl⟩
  | succ fuel ih =>
    unfold idleOut
    split
    · obtain ⟨od, posted⟩ := ih (b.sendIdle n)
      obtain ⟨od', posted'⟩ := b.sendIdle_keeps_od_posted n
      exact ⟨od.trans od', posted.trans posted'⟩
    · exact ⟨rfl, rfl⟩

theorem idleAll_keeps_od_posted (b : Block) : b.idleAll.od = b.od ∧ b.idleAll.posted = b.posted := by
  unfold idleAll
  refine List.foldlRecOn (motive := fun c : Block => c.od = b.od ∧ c.posted = b.posted) _ _ ⟨rfl, rfl⟩ ?_
  rintro c ⟨od, posted⟩ n -
  split
  · obtain ⟨od', posted'⟩ := idleOut_keeps_od_posted (5 + (c.port n).owed.sum) c n
    exact ⟨od'.trans od, posted'.trans posted⟩
  · exact ⟨od, posted⟩

/-- With no fault to grade and no effect held back, the end of a step shows the old flows in the dictionary and adds no
write. -/
theorem settle_keeps_od_posted {b : Block} (hr : b.raised = []) (hh : b.heldBack = []) :
    b.settle.od = (b.setOd 0x2202 0x0D b.oldFlows).od ∧ b.settle.posted = b.posted := by
  have unraised : { b with raised := [] } = b := by cases b; cases hr; rfl
  unfold settle
  rw [hr, List.foldl_nil, unraised, releaseBack_quiet b hh]
  exact (b.setOd 0x2202 0x0D b.oldFlows).idleAll_keeps_od_posted

end Block

/-- A command whose work finds no fault, holds nothing back and leaves no read waiting gives a state with the memory and
the dictionary of its work, OD 0x2202.0D apart. -/
theorem gives_of_finishRead_unraised {c : Instr} {s : State} {b : Block} {P : State → Prop} (h : exec c s = finishRead s b)
    (hb : b.blocked = false) (hr : b.raised = []) (hh : b.heldBack = [])
    (hP : ∀ t : State, t.mem = land s.mem b.posted →
      (∀ i j, odKey i j ≠ odKey 0x2202 0x0D → t.blk.od' i j = b.od' i j) → P t) : Gives c s P := by
  obtain ⟨od, posted⟩ := Block.settle_keeps_od_posted hr hh
  refine ⟨landed s b.settle, by simp [h, finishRead, finish, hb], rfl,
    hP _ (congrArg (land s.mem) posted) fun i j hij => ?_⟩
  have shown : (landed s b.settle).blk.od' i j = (b.setOd 0x2202 0x0D b.oldFlows).od' i j := Block.od'_congr _ _ od i j
  rw [shown, Block.setOd_other _ _ _ _ _ _ hij (by decide) (by decide)]

/-- The record of a window write is R456's in any state that shows its entry. -/
theorem recorded_of_recordWindow {s t : State} {b : Block} {code i j : Nat} (hc : code < 2 ^ 16) (hi : i < 2 ^ 16)
    (hj : j < 256) (hb : b.od' 0x2000 1 = s.blk.od' 0x2000 1)
    (ht : t.blk.od' 0x2000 1 = (b.recordWindow code (odKey i j)).od' 0x2000 1) : Recorded s t code i j := by
  have own := recorded_quietEnd s hc hi hj
  unfold Recorded at own ⊢
  rw [quietEnd_od _ _ _ _ (by decide), Block.recordWindow_result] at own
  rwa [ht, Block.recordWindow_result, hb]

/-! ### A record closed by its acknowledgement (R506) -/

namespace Block

/-- Any value that is no sending port state leaves a quiet block quiet, whichever entry it is written to: nothing bounds
the numbers of ports, so that a key of OD 0x2701 may be any later entry's. -/
theorem setOd_quiet {b : Block} (hq : b.Quiet) {i j v : Nat} (hv : v ≠ psTraining) (hv' : v ≠ psUp)
    (h1 : odKey i j ≠ odKey 0x1000 6) (h2 : odKey i j ≠ odKey 0x2700 1) : (b.setOd i j v).Quiet := by
  obtain ⟨noFault, noneHeld, silent⟩ := hq
  refine ⟨noFault, noneHeld, fun n hn hsends => silent n hn ?_⟩
  have state : (b.setOd i j v).portState n = v ∨ (b.setOd i j v).portState n = b.portState n := by
    by_cases same : odKey 0x2701 (n + 1) = odKey i j
    · exact .inl (by unfold portState od'; rw [same]; exact setOd_self b i j v)
    · exact .inr (setOd_other b i j v _ _ same h1 h2)
  obtain written | kept := state
  · simp [portUp, written, hv, hv'] at hsends
  · simpa [portUp, kept] using hsends

/-- An entry set and the record of its write are in the dictionary alone. -/
theorem recordWindow_setOd_od_alone (b : Block) (i j v code key : Nat) :
    { (b.setOd i j v).recordWindow code key with od := b.od } = b := by
  unfold recordWindow count setOd; rfl

/-- `closeRecord` by the word that it leaves in the slot: with w a variable, no check by computation unfolds the
subtraction of 2^44. -/
def closeWith (b : Block) (k w : Nat) : Block :=
  let b1 := b.setOd 0x2810 k w
  ({ b1 with faults := { b1.faults with opened := mapErase b1.faults.opened k } } : Block).setOd 0x2801 1 b1.openRecs.length

theorem closeRecord_eq (b : Block) (k : Nat) : b.closeRecord k = b.closeWith k (b.slotRec k - 2 ^ 44) := rfl

/-- In the dictionary a record's closing writes its slot and the count of open records. -/
theorem closeWith_od' (b : Block) (k w i j : Nat) : (b.closeWith k w).od' i j =
    ((b.setOd 0x2810 k w).setOd 0x2801 1 (b.setOd 0x2810 k w).openRecs.length).od' i j := od'_congr _ _ rfl i j

@[simp] theorem closeWith_posted (b : Block) (k w : Nat) : (b.closeWith k w).posted = b.posted := rfl
@[simp] theorem closeWith_raised (b : Block) (k w : Nat) : (b.closeWith k w).raised = b.raised := rfl
@[simp] theorem closeWith_blocked (b : Block) (k w : Nat) : (b.closeWith k w).blocked = b.blocked := rfl
@[simp] theorem closeWith_heldBack (b : Block) (k w : Nat) : (b.closeWith k w).heldBack = b.heldBack := rfl

theorem closeWith_slotRec (b : Block) {k : Nat} (w : Nat) (hk : k < 256) : (b.closeWith k w).slotRec k = w := by
  rw [slotRec, closeWith_od', setOd_other _ _ _ _ _ _ (by unfold odKey; omega) (by decide) (by decide), setOd_self]

theorem closeWith_other (b : Block) {k i j : Nat} (w : Nat) (hk : k < 256) (hj : j < 256)
    (hslot : (i, j) ≠ (0x2810, k)) (hcount : (i, j) ≠ (0x2801, 1)) : (b.closeWith k w).od' i j = b.od' i j := by
  rw [Ne, Prod.mk.injEq] at hslot hcount
  rw [closeWith_od', setOd_other _ _ _ _ _ _ (by rwa [Ne, odKey_inj hj (by decide)]) (by decide) (by decide),
    setOd_other _ _ _ _ _ _ (by rwa [Ne, odKey_inj hj hk]) (by unfold odKey; omega) (by unfold odKey; omega)]

theorem acknowledge_of_none {b : Block} {number : Nat}
    (h : b.openRecs.find? (fun k => bits (b.slotRec k) 31 0 == number) = none) :
    b.acknowledge number = b.setOd 0x2801 4 1 := by
  simp only [acknowledge, h]

theorem acknowledge_of_some {b : Block} {number k : Nat}
    (h : b.openRecs.find? (fun k => bits (b.slotRec k) 31 0 == number) = some k) :
    b.acknowledge number = (b.closeWith k (b.slotRec k - 2 ^ 44)).setOd 0x2801 4 0 := by
  simp only [acknowledge, h, closeRecord_eq]

theorem mem_openRecs {b : Block} {k : Nat} : k ∈ b.openRecs ↔ k < 64 ∧ recOpen (b.slotRec k) = true := by
  simp [openRecs]

/-- OPEN taken away from an open record's word leaves it closed. -/
theorem recOpen_sub {w : Nat} (h : recOpen w = true) : recOpen (w - 2 ^ 44) = false := by
  simp only [recOpen, bit_eq, decide_eq_true_eq, decide_eq_false_iff_not] at h ⊢
  omega

/-- A record closed with its result shown takes three entries. -/
theorem closeWith_result_other (b : Block) {k i j : Nat} (w : Nat) (hk : k < 256) (hj : j < 256)
    (h : (i, j) ∉ [(0x2810, k), (0x2801, 1), (0x2801, 4)]) :
    ((b.closeWith k w).setOd 0x2801 4 0).od' i j = b.od' i j := by
  simp only [List.mem_cons, List.not_mem_nil, or_false, not_or] at h
  obtain ⟨notSlot, notCount, notResult⟩ := h
  rw [setOd_other _ _ _ _ _ _ (by rwa [Ne, odKey_inj hj (by decide), ← Prod.mk.injEq]) (by decide) (by decide),
    closeWith_other _ _ hk hj notSlot notCount]

/-- A window write of a fault number is its acknowledgement, recorded as accepted (R506, R456). -/
theorem entryWrite_faultNumber (m : Memory) {b : Block} {number : Nat} (hp : b.powered = true)
    (hs : b.engineState = 1 ∨ b.engineState = 2) (hw : b.od' 0x1100 3 ≠ 0) (hn : number < 2 ^ 32) :
    entryWrite m b 0x2801 3 number = (b.acknowledge number).recordWindow accOk (odKey 0x2801 3) := by
  have row : odFind (odKey 0x2801 3) = some ⟨0x2801, 3, 3, .u32, .wo, 0, 0, top64⟩ := by decide
  have inRange : odInRange (b.od' 0x1000 6) (odKey 0x2801 3) ⟨0x2801, 3, 3, .u32, .wo, 0, 0, top64⟩ number = true := by
    have small : number < 2 ^ (8 * OdType.u32.bytes) := hn
    have below : number ≤ top64 := by unfold top64; omega
    simp [odInRange, odTypeOk, odAlignOk, odKey, small, below]
  rw [entryWrite_open m b _ _ _ _ hp (by decide) (by decide) (by decide) hs hw row (.inr rfl) (by decide) inRange]
  rfl

end Block

theorem exec_faultAcknowledge {s : State} {number : Nat} (hw : WindowOpen s) (hn : number < 2 ^ 32) :
    exec (.faultAcknowledge number) s =
      finishRead s ((s.blk.acknowledge number).recordWindow accOk (odKey 0x2801 3)) := by
  obtain ⟨powered, state, reach⟩ := hw
  exact congrArg (finishRead s) (Block.entryWrite_faultNumber s.mem powered state reach hn)

/-- A fault number that an open record carries closes that record: its word without OPEN is a closed one. -/
theorem exec_faultAcknowledge_found {s : State} {number k : Nat} (hw : WindowOpen s) (hn : number < 2 ^ 32)
    (hfind : s.blk.openRecs.find? (fun k => bits (s.blk.slotRec k) 31 0 == number) = some k) :
    k < 256 ∧ ∃ w, Block.recOpen w = false ∧ exec (.faultAcknowledge number) s =
      finishRead s (((s.blk.closeWith k w).setOd 0x2801 4 0).recordWindow accOk (odKey 0x2801 3)) := by
  obtain ⟨hk, isOpen⟩ := Block.mem_openRecs.1 (List.mem_of_find?_eq_some hfind)
  refine ⟨by omega, _, Block.recOpen_sub isOpen, ?_⟩
  rw [exec_faultAcknowledge hw hn, Block.acknowledge_of_some hfind]

/-- A command whose work closes a record with a closed word, shows the result 0 and records the write gives just that in
the dictionary; no unit's detention is among the entries. -/
theorem gives_of_closeWith {c : Instr} {s : State} {k w : Nat} (hs : Settled s) (hk : k < 256)
    (hexec : exec c s =
      finishRead s (((s.blk.closeWith k w).setOd 0x2801 4 0).recordWindow accOk (odKey 0x2801 3)))
    (closed : Block.recOpen w = false) :
    Gives c s (fun t =>
      Block.recOpen (t.blk.slotRec k) = false ∧ t.blk.od' 0x2801 4 = 0 ∧ Recorded s t 0 0x2801 3 ∧
      OdOnly s t ((0x2810, k) :: (0x2801, 1) :: (0x2801, 4) :: windowKeys) ∧ t.mem = s.mem) := by
  obtain ⟨noWrite, unblocked, ⟨noFault, noneHeld, -⟩, -⟩ := hs
  refine gives_of_finishRead_unraised hexec (by simpa using unblocked) (by simpa using noFault)
    (by simpa [Block.recordWindow_heldBack] using noneHeld) fun t hmem hod => ⟨?_, ?_, ?_, ?_, ?_⟩
  · have word : t.blk.slotRec k = w := by
      rw [Block.slotRec, hod _ _ (by unfold odKey; omega), Block.recordWindow_other _ _ _ _ _ hk (by simp [windowKeys]),
        Block.setOd_other _ _ _ _ _ _ (by unfold odKey; omega) (by decide) (by decide)]
      exact s.blk.closeWith_slotRec w hk
    rw [word, closed]
  · rw [hod _ _ (by decide), Block.recordWindow_other _ _ _ _ _ (by decide) (by decide), Block.setOd_self]
  · exact recorded_of_recordWindow (by decide) (by decide) (by decide)
      (Block.closeWith_result_other _ _ hk (by decide) (by simp)) (hod _ _ (by decide))
  · intro i j hj hij notOld
    have split : (i, j) ∉ [(0x2810, k), (0x2801, 1), (0x2801, 4)] ∧ (i, j) ∉ windowKeys :=
      not_or.1 fun h => hij ((List.mem_append (s := [(0x2810, k), (0x2801, 1), (0x2801, 4)])).2 h)
    rw [hod _ _ (by rw [Ne, odKey_inj hj (by decide)]; simpa using notOld), Block.recordWindow_other _ _ _ _ _ hj split.2,
      Block.closeWith_result_other _ _ hk hj split.1]
  · rw [hmem, Block.recordWindow_posted, Block.setOd_posted, Block.closeWith_posted, noWrite]
    rfl

/-- A number that no open record carries leaves its result and the record of the write, and nothing else. -/
theorem gives_of_no_record {s : State} {number : Nat} (hs : Settled s) (hw : WindowOpen s) (hn : number < 2 ^ 32)
    (hfind : s.blk.openRecs.find? (fun k => bits (s.blk.slotRec k) 31 0 == number) = none) :
    Gives (.faultAcknowledge number) s (fun t =>
      t.blk.od' 0x2801 4 = 1 ∧ Recorded s t 0 0x2801 3 ∧ OdOnly s t ((0x2801, 4) :: windowKeys) ∧ OnlyOd s t) := by
  have ⟨_, unblocked, quiet, _⟩ := hs
  have hexec := exec_faultAcknowledge hw hn
  rw [Block.acknowledge_of_none hfind] at hexec
  have quiet' : (s.blk.setOd 0x2801 4 1).Quiet :=
    Block.setOd_quiet quiet (by decide) (by decide) (by decide) (by decide)
  refine gives_of_finishRead hexec (by simpa using unblocked)
    (Block.recordWindow_quiet quiet' _ _) ⟨?_, ?_, ?_, ?_⟩
  · rw [quietEnd_od _ _ _ _ (by decide), Block.recordWindow_other _ _ _ _ _ (by decide) (by decide), Block.setOd_self]
  · exact recorded_of_recordWindow (by decide) (by decide) (by decide)
      (Block.setOd_other _ _ _ _ _ _ (by decide) (by decide) (by decide)) (quietEnd_od _ _ _ _ (by decide))
  · refine odOnly_quietEnd s _ _ fun i j hj hij => ?_
    obtain ⟨notResult, notWindow⟩ := not_or.1 (mt List.mem_cons.2 hij)
    rw [Block.recordWindow_other _ _ _ _ _ hj notWindow,
      Block.setOd_other _ _ _ _ _ _ (by rwa [Ne, odKey_inj hj (by decide), ← Prod.mk.injEq]) (by decide) (by decide)]
  · exact onlyOd_quietEnd s _ hs (Block.recordWindow_setOd_od_alone ..)

/-- Settles O20: either outcome of the search for the number's open record; the other slots and the entries of detention
are outside the entries that the write takes. -/
theorem faultRecordAcknowledged : Obligations.FaultRecordAcknowledged := by
  intro s number hs hw hn
  refine ⟨fun k hfind => ?_, gives_of_no_record hs hw hn⟩
  obtain ⟨hk, w, closedWord, exec_eq⟩ := exec_faultAcknowledge_found hw hn hfind
  obtain ⟨t, hexec, hpending, closed, result, recorded, only, mem⟩ := gives_of_closeWith hs hk exec_eq closedWord
  refine ⟨t, hexec, hpending, closed, result, recorded, fun q hq hqk => ?_, fun j hj => ?_, only, mem⟩
  · exact only 0x2810 q hq (by simp [windowKeys, hqk]) (by simp)
  · exact only 0x2802 j hj (by simp [windowKeys]) (by simp)

end Sys2Proof.Machine

/-! ### The machine (R10, R318, R326, R445, R470) -/

namespace Sys2Proof.Machine

/-- Settles O1: a queue with a front command is the second case of `step`. -/
theorem stepRunsFrontCommand : Obligations.StepRunsFrontCommand := by
  intro s c rest hfront
  rw [step, hfront]

/-! ### The tick (R10, R445) -/

namespace Block

theorem slewRate_of_ne {b : Block} (h : b.seryo.slew ≠ 0) :
    b.slewRate = if b.seryo.slew.natAbs ≤ 10000 * 10000 then 1 else 10 := by
  simp [slewRate, h]

/-- A counter on its reference moves on by one. -/
theorem tick_of_slew_eq_zero {b : Block} (h : b.seryo.slew = 0) : b.tick = { b with time := (b.time + 1) % 2 ^ 64 } := by
  have rate : b.slewRate = 0 := by simp [slewRate, h]
  unfold tick
  simp only [rate, h]
  cases b
  rename_i seryo _ _ _ _
  cases seryo
  simp_all

/-- A counter off its reference comes closer to it by the rate, without a step. -/
theorem tick_slews {b : Block} {rate : Int} (hrate : rate = (if b.seryo.slew.natAbs ≤ 10000 * 10000 then 1 else 10 : Int))
    (hslew : b.seryo.slew ≠ 0) (htime : b.time + 3 < 2 ^ 64) (hfrac : b.seryo.frac < 10000) :
    b.tick.seryo.slew.natAbs + rate = b.seryo.slew.natAbs ∧ b.tick.seryo.frac < 10000 ∧ b.time ≤ b.tick.time ∧
      (10000 * b.tick.time + b.tick.seryo.frac : Int) =
        10000 * (b.time + 1) + b.seryo.frac + (if 0 < b.seryo.slew then rate else -rate) := by
  obtain ⟨r, hr, hcase⟩ : ∃ r : Nat, b.slewRate = r ∧ rate = r ∧ r ≤ b.seryo.slew.natAbs ∧ 0 < r ∧ r ≤ 10 := by
    rw [slewRate_of_ne hslew]
    split at hrate
    · exact ⟨1, by simp_all, by simpa using hrate, by omega, by omega, by omega⟩
    · exact ⟨10, by simp_all, by simpa using hrate, by omega, by omega, by omega⟩
  unfold tick
  simp only [hr]
  by_cases ahead : 0 < b.seryo.slew
  · by_cases gain : 10000 ≤ b.seryo.frac + r <;> simp [ahead, gain, -Nat.cast_natAbs] <;> omega
  · by_cases lose : b.seryo.frac < r <;> simp [ahead, lose, -Nat.cast_natAbs] <;> omega

end Block

/-- Settles O2: the two cases of the counter, on its reference and off it. -/
theorem emptyQueueIdles : Obligations.EmptyQueueIdles := by
  intro s hempty
  refine ⟨idleStep s, by rw [step, hempty], rfl, fun hslew => ?_, fun hslew htime hfrac => ?_⟩
  · rw [idleStep, Block.tick_of_slew_eq_zero hslew]
    exact ⟨rfl, rfl⟩
  · exact Block.tick_slews rfl hslew htime hfrac

/-! ### Reset (R470, R476, R477) -/

/-- Settles O3: the dictionary lists no entry, so that each reads as its default. -/
theorem resetHoldsDefaults : Obligations.ResetHoldsDefaults := by
  refine ⟨fun i j r hj hrow hnot => ?_, by decide, rfl, rfl, rfl, rfl, rfl, rfl, rfl, rfl, rfl, rfl, rfl, rfl, rfl, fun _ => rfl⟩
  have other : odKey i j ≠ odKey 0x2703 3 := by rwa [Ne, odKey_inj hj (by decide), ← Prod.mk.injEq]
  show Block.odDefault Block.reset (odKey i j) = _
  simp only [Block.odDefault, hrow, beq_iff_eq, other, if_false]
  rfl

/-- Settles O4: nothing of the state after reset is listed. -/
theorem resetMeetsInvariant : Obligations.ResetMeetsInvariant :=
  ⟨⟨List.Pairwise.nil, fun _ h => nomatch h⟩, rfl, rfl, rfl, rfl, rfl⟩

/-! ### The invariant of every step (R326, R488) -/

/-- The end of a step leaves none of its marks. -/
theorem inv_landed {s : State} (b : Block) (hmem : s.mem.wf) : Inv (landed s b.settle) :=
  ⟨land_wf _ _ hmem, rfl, rfl, rfl, rfl, rfl⟩

theorem inv_of_kept {s : State} {b : Block} (h : Inv s) (hkept : Kept s.blk b) : Inv { s with blk := b } := by
  obtain ⟨wf, noWrite, unblocked, noKey, noRange, began⟩ := h
  obtain ⟨posted, blocked, heldAt, heldRange, began', moved⟩ := hkept
  exact ⟨wf, posted.trans noWrite, blocked.trans unblocked, heldAt.trans noKey, heldRange.trans noRange,
    began'.trans (began.trans moved.symm)⟩

/-- A tick leaves all that the invariant speaks of. -/
theorem inv_idleStep {s : State} (h : Inv s) : Inv (idleStep s) := h

theorem Answer.inv {s t : State} (h : Inv s) {o : Out} (ha : Answer s o) (ho : o = .next t) : Inv t := by
  cases ha with
  | waits b hkept =>
    cases ho
    exact inv_of_kept h hkept
  | ended m b hm =>
    cases ho
    refine inv_landed b ?_
    obtain rfl | rfl := hm
    · exact h.1
    · exact tiersLost_wf _ h.1

/-! ### Commands beyond the address map (R318) -/

/-- The three commands that read a given address fault beyond the map. -/
theorem exec_of_leavesMap {c : Instr} {s : State} (h : LeavesMap c) : ∃ a, exec c s = .fault (.outsideAddressMap a) := by
  cases c
  case rowRead a n => exact ⟨a, if_pos (decide_eq_true (show 2 ^ 52 < a + _ from h))⟩
  case blockRead a n => exact ⟨a, if_pos (decide_eq_true (show 2 ^ 52 < a + _ from h))⟩
  case rowFill a hint => exact ⟨a, if_pos (decide_eq_true (show 2 ^ 52 < a + _ from h))⟩
  all_goals exact h.elim

theorem Answer.next {s : State} {o : Out} (h : Answer s o) : ∃ t, o = .next t ∧ t.pending = s.pending := by
  cases h with
  | waits b _ => exact ⟨_, rfl, rfl⟩
  | ended m b _ => exact ⟨_, rfl, rfl⟩

/-- Settles O5: a tick changes nothing of it; a command answers a wait that is shown, or the end of a step. -/
theorem everyStepKeepsInvariant : Obligations.EveryStepKeepsInvariant := by
  intro s t hinv hstep
  cases hp : s.pending with
  | nil =>
    rw [step, hp] at hstep
    cases hstep
    exact inv_idleStep hinv
  | cons c rest =>
    rw [stepRunsFrontCommand s c rest hp] at hstep
    by_cases hmap : LeavesMap c
    · obtain ⟨a, hfault⟩ := exec_of_leavesMap (s := { s with pending := rest }) hmap
      rw [hfault] at hstep
      cases hstep
    · exact (exec_answer c _ hmap).inv (s := { s with pending := rest }) hinv hstep

/-- Settles O6: each form of answer is a next state with the queue as it was. -/
theorem everyCommandAnswers : Obligations.EveryCommandAnswers := by
  refine fun c s => ⟨fun hmap => ?_, exec_of_leavesMap⟩
  obtain ⟨t, hexec, hpending⟩ := (exec_answer c s hmap).next
  exact ⟨t, hexec, hpending, trivial⟩

/-! ### The end of a quiet step (R494) -/

/-- A byte outside every write of a step reads as before. -/
theorem memByte_land_out (ws : List Store) (m : Memory) (x : Nat)
    (h : ∀ w ∈ ws, x < w.addr ∨ w.addr + w.data.length ≤ x) : memByte (land m ws) x = memByte m x := by
  induction ws generalizing m with
  | nil => rfl
  | cons w ws ih =>
    have rest := ih (memWrite m w.addr w.data) fun v hv => h v (List.mem_cons_of_mem w hv)
    exact rest.trans (memByte_write_out m _ _ x (h w List.mem_cons_self))

/-- Settles O7: what a quiet step ends with, its parts read off one by one. -/
theorem quietStepLandsItsWrites : Obligations.QuietStepLandsItsWrites := by
  refine fun s b hquiet => ⟨finish_quiet s b hquiet, rfl, fun x hout => memByte_land_out _ _ x hout, ?_, ?_, ?_, rfl, rfl⟩
  · intro a d k hk hposted
    rw [quietEnd_mem, hposted]
    exact memByte_write_in s.mem a d k hk
  · have shown : (quietEnd s b).blk.od' 0x2202 0x0D = (b.setOd 0x2202 0x0D b.oldFlows).od' 0x2202 0x0D :=
      Block.od'_congr _ _ rfl _ _
    rw [shown, Block.setOd_self]
    rfl
  · intro i j hj hij
    refine quietEnd_od s b i j ?_
    rwa [Ne, odKey_inj hj (by decide), ← Prod.mk.injEq]

/-! ### Records (R148, R519) -/

/-- A bit read off as the remainder that b2n writes. -/
theorem bit_eq_of_mod {w i : Nat} {q : Bool} (h : w / 2 ^ i % 2 = b2n q) : bit w i = q := by
  rw [bit_eq, h]
  cases q <;> rfl

/-- Settles O8: the fields lie side by side, each below the place of the next. -/
theorem completionRecordFields : Obligations.CompletionRecordFields := by
  intro w phase head hstatus hsq hhead hdetail htag
  have hphase := b2n_lt phase
  have hpoison := b2n_lt w.poison
  have hlate := b2n_lt w.late
  simp only [recordBits, pack_cons, pack_nil, bits_eq]
  refine ⟨by omega, bit_eq_of_mod ?_, bit_eq_of_mod ?_, bit_eq_of_mod ?_, ?_⟩ <;> omega

set_option maxRecDepth 10000 in
/-- Settles O10: nine bytes through the CRC. -/
theorem blockCrcCheckValue : Obligations.BlockCrcCheckValue := by
  unfold Obligations.BlockCrcCheckValue
  decide

end Sys2Proof.Machine

/-! ### Writes of the engine's own (R319, R324, R326, R488, R519) -/

namespace Sys2Proof.Machine

namespace Block

/-! ### Channel time (R322) -/

theorem mem_unitsOf {a len u : Nat} :
    u ∈ unitsOf a len ↔ ∃ k, a / unitSize a ≤ k ∧ k < (a + len - 1) / unitSize a + 1 ∧ u = k * unitSize a := by
  simp only [unitsOf, span, List.mem_map, List.mem_range]
  constructor
  · rintro ⟨_, ⟨i, hi, rfl⟩, rfl⟩
    exact ⟨i + a / unitSize a, by omega, by omega, rfl⟩
  · rintro ⟨k, hlo, hhi, rfl⟩
    exact ⟨k, ⟨k - a / unitSize a, by omega, by omega⟩, rfl⟩

/-- A write whose units are covered whole, or neither poisoned nor failing, meets no error of the memory. -/
theorem tierWrite_sound {b : Block} {a : Nat} {data : Bytes} (hlen : 0 < data.length)
    (habs : b.absentRange a data.length = false) (hout : b.stackOut a = false)
    (hunits : ∀ u ∈ unitsOf a data.length, coversUnit a data.length u = true ∨
      (b.agents.poisoned.contains u = false ∧ b.agents.failing.contains u = false)) :
    ∃ n, b.tierWrite a data = ((({ b with freeCount := n } : Block).post a data).clearPoison a data.length).charge a
      (writeCost a data.length) := by
  have notEmpty : data.isEmpty = false := by cases data <;> simp_all
  have sound : ∀ us : List Nat, (∀ u ∈ us, u ∈ unitsOf a data.length ∧
      (b.agents.poisoned.contains u = true ∨ b.agents.failing.contains u = true)) →
      us.filter (fun u => !coversUnit a data.length u) = [] := by
    intro us hus
    rw [List.filter_eq_nil_iff]
    intro u hu
    obtain ⟨hmem, hbad⟩ := hus u hu
    obtain covered | ⟨noPoison, noFail⟩ := hunits u hmem
    · simp [covered]
    · rw [noPoison, noFail] at hbad
      simp at hbad
  unfold tierWrite
  simp only [notEmpty, habs, hout, Bool.or_self, Bool.false_eq_true, if_false]
  have reportedOf : ∃ us n, b.reported a data.length = (us, { b with freeCount := n }) ∧
      ∀ u ∈ us, u ∈ unitsOf a data.length ∧ b.agents.failing.contains u = true := by
    unfold reported
    dsimp only
    split
    · exact ⟨[], b.freeCount, rfl, by simp⟩
    · refine ⟨_, b.freeCount + 1, rfl, fun u hu => ?_⟩
      exact List.mem_filter.1 (List.mem_filter.1 hu).1
  obtain ⟨us, n, hrep, hus⟩ := reportedOf
  rw [hrep]
  refine ⟨n, ?_⟩
  rw [sound]
  · rfl
  · intro u hu
    rcases List.mem_append.1 hu with hu | hu
    · obtain ⟨hmem, hpoison⟩ := List.mem_filter.1 hu
      exact ⟨hmem, .inl hpoison⟩
    · exact ⟨(hus u hu).1, .inr (hus u hu).2⟩

/-- What a write of the engine's own that lands at once leaves: the write, and its traces at the agents. -/
theorem ownPut_lands {b : Block} {a : Nat} {data : Bytes} (h : b.Lands a data.length) (after : List After) :
    ∃ c, b.ownPut a data after = (c, true) ∧ c.posted = b.posted ++ [⟨a, data⟩] ∧ c.agents.queue = b.agents.queue ∧
      ∃ n g, c = { b with posted := b.posted ++ [⟨a, data⟩], freeCount := n, agents := g } := by
  obtain ⟨hlen, ⟨host, up⟩ | ⟨tier, room, habs, hout, hunits⟩⟩ := h
  · refine ⟨b.post a data, by simp [ownPut, host, up], rfl, rfl, b.freeCount, b.agents, rfl⟩
  · obtain ⟨n, hwrite⟩ := tierWrite_sound hlen habs hout hunits
    refine ⟨b.tierWrite a data, by simp [ownPut, tier, room], ?_⟩
    rw [hwrite]
    unfold charge
    split <;> exact ⟨rfl, rfl, n, _, rfl⟩

/-! ### The event ring (R519, R523) -/

/-- With none of its records on their way, a ring shows its next place. -/
theorem shownIndex_of_noneInto {b : Block} {base entry k next : Nat} (h : b.NoneInto base (entry * 2 ^ k)) :
    b.shownIndex base entry k next = next := by
  have none : b.agents.queue.find? (ownInto base (entry * 2 ^ k)) = none := by
    rw [List.find?_eq_none]
    intro r hr
    simp [h r hr]
  simp [shownIndex, none]

/-- An event that lands at once: its record is the one write more, and the write index stands behind it. -/
theorem event_lands {b : Block} {ty payload : Nat} (hfull : b.eventFull = false)
    (hlands : b.Lands (b.od' 0x2800 1 + 64 * (b.faults.eventNext % 2 ^ b.od' 0x2800 2)) 64)
    (hnone : b.NoneInto (b.od' 0x2800 1) (64 * 2 ^ b.od' 0x2800 2)) (hirq : b.od' 0x2800 6 = 0) :
    (b.event ty payload).posted = b.posted ++
        [⟨b.od' 0x2800 1 + 64 * (b.faults.eventNext % 2 ^ b.od' 0x2800 2), natLE 64 (b.eventRecord ty payload)⟩] ∧
      (b.event ty payload).od' 0x2800 3 = (b.faults.eventNext % 2 ^ b.od' 0x2800 2 + 1) % 2 ^ b.od' 0x2800 2 ∧
      (b.event ty payload).faults.eventSeq = (b.faults.eventSeq + 1) % 2 ^ 32 := by
  unfold event
  simp only [hfull, Bool.false_eq_true, if_false]
  unfold eventWritten ownWrite
  simp only [eventAfter, hirq, beq_self_eq_true, if_true]
  generalize hb1 : ({ b with faults := _ } : Block) = b1
  have lands : b1.Lands (b.od' 0x2800 1 + 64 * (b.faults.eventNext % 2 ^ b.od' 0x2800 2))
      (natLE 64 (b.eventRecord ty payload)).length := by
    rw [natLE_length, ← hb1]
    exact hlands
  obtain ⟨c, hput, hposted, hqueue, n, g, hc⟩ := ownPut_lands lands [.eventIndex]
  rw [hput]
  have index : c.shownIndex (c.od' 0x2800 1) 64 (c.od' 0x2800 2) c.faults.eventNext =
      (b.faults.eventNext % 2 ^ b.od' 0x2800 2 + 1) % 2 ^ b.od' 0x2800 2 := by
    have none : c.NoneInto (c.od' 0x2800 1) (64 * 2 ^ c.od' 0x2800 2) := by
      unfold NoneInto
      rw [hqueue, od'_congr c b (by rw [hc, ← hb1]), od'_congr c b (by rw [hc, ← hb1]), ← hb1]
      exact hnone
    rw [shownIndex_of_noneInto none, hc, ← hb1]
  simp only [if_true, List.foldl_cons, List.foldl_nil, runAfter, index]
  refine ⟨by rw [← hb1] at hposted; exact hposted, ?_, ?_⟩
  · exact setOd_self ..
  · rw [setOd_faults, hc, ← hb1]

end Block

/-- Settles O9: the record's fields lie side by side, and it lands at once. -/
theorem eventWritesItsRecord : Obligations.EventWritesItsRecord := by
  intro b ty payload size base place hfull hlands hnone hirq hty hseq htime hpayload
  obtain ⟨posted, index, seq⟩ := Block.event_lands (ty := ty) (payload := payload) hfull hlands hnone hirq
  have hphase := b2n_lt b.faults.eventPhase
  refine ⟨_, posted, ?_, ?_, ?_, ?_, ?_, ?_, ?_, index, seq⟩ <;>
    simp only [Block.eventRecord, pack_cons, pack_nil]
  case refine_2 => exact bit_eq_of_mod (by omega)
  all_goals simp only [bits_eq]; omega

/-! ### Channel time within one tier (R322) -/

/-- A write's cost over its units, told by how many of them it covers whole. -/
theorem sum_units (p : Nat → Bool) (u : Nat) (ks : List Nat) :
    (ks.map (fun k => if p k then u else 2 * u)).sum + ks.countP p * u = 2 * ks.length * u := by
  induction ks with
  | nil => simp
  | cons k ks ih =>
    rw [List.map_cons, List.sum_cons, List.countP_cons, List.length_cons]
    cases p k <;> simp <;> linarith

/-- How many of the numbers from lo to hi - 1 lie in a run within them. -/
theorem countP_span {A B lo hi : Nat} (hA : lo ≤ A) (hB : B ≤ hi) :
    (span lo hi).countP (fun k => A ≤ k && k < B) = B - A := by
  have count : ∀ n, (List.range n).countP (fun k => A ≤ k + lo && k + lo < B) = min B (n + lo) - A := by
    intro n
    induction n with
    | zero => simp; omega
    | succ n ih =>
      rw [List.range_succ, List.countP_append, ih, List.countP_singleton]
      split <;> simp_all <;> omega
  rw [span, List.countP_map]
  exact (count (hi - lo)).trans (by omega)

/-- Within one tier every unit that a range touches has the tier's size. -/
theorem unitSize_mul {a n k : Nat}
    (h : (inFast a = true ∧ inFast (a + n - 1) = true) ∨ (inBulk a = true ∧ inBulk (a + n - 1) = true))
    (hlo : a / unitSize a ≤ k) (hhi : k ≤ (a + n - 1) / unitSize a) : unitSize (k * unitSize a) = unitSize a := by
  obtain ⟨fast, last⟩ | ⟨bulk, last⟩ := h
  · rw [inFast_iff, Config.fastStart, Config.stackBytes] at fast last
    have notBulk {x : Nat} (hx : x < Config.bulkStart) : inBulk x = false := by
      rw [← Bool.not_eq_true, inBulk_iff]
      omega
    rw [Config.bulkStart] at notBulk
    have size : unitSize a = 256 := by simp [unitSize, notBulk (x := a) (by omega)]
    rw [size] at hlo hhi ⊢
    simp [unitSize, notBulk (x := k * 256) (by omega)]
  · have size : unitSize a = 512 := by simp [unitSize, bulk]
    rw [size] at hlo hhi ⊢
    have inside : inBulk (k * 512) = true := by
      rw [inBulk_iff, Config.bulkStart, Config.bulkBytes] at *
      omega
    simp [unitSize, inside]

/-- A unit lies wholly inside a write when it starts at or behind the write's start and ends at or before its end. -/
theorem coversUnit_mul {a n k u : Nat} (hu : 0 < u) (hsize : unitSize (k * u) = u) :
    coversUnit a n (k * u) = ((a + u - 1) / u ≤ k && k < (a + n) / u) := by
  have first : a ≤ k * u ↔ (a + u - 1) / u ≤ k := by
    rw [← Nat.lt_succ_iff (n := k), Nat.div_lt_iff_lt_mul hu, Nat.succ_mul]; omega
  have last : k * u + u ≤ a + n ↔ k < (a + n) / u := by
    rw [Nat.lt_iff_add_one_le, Nat.le_div_iff_mul_le hu, Nat.add_mul, Nat.one_mul]
  simp only [coversUnit, hsize, first, last]

/-- Settles O12: a cost for each unit of the span, those covered whole being a run within it. -/
theorem channelTimeOfAccesses : Obligations.ChannelTimeOfAccesses := by
  intro a n hn htier u touched whole
  have size : unitSize a = u := rfl
  have hu : 0 < u := by show 0 < if inBulk a then 512 else 256; split <;> decide
  have units : (unitsOf a n).length = touched := by
    have : a / u ≤ (a + n - 1) / u := Nat.div_le_div_right (by omega)
    simp only [unitsOf, span, size, List.length_map, List.length_range]
    show _ = (a + n - 1) / u - a / u + 1
    omega
  refine ⟨by rw [readCost, units, size], ?_⟩
  have cost : writeCost a n = ((span (a / u) ((a + n - 1) / u + 1)).map
      (fun k => if (a + u - 1) / u ≤ k && k < (a + n) / u then u else 2 * u)).sum := by
    rw [writeCost, unitsOf, List.map_map]
    congr 1
    refine List.map_congr_left fun k hk => ?_
    simp only [span, List.mem_map, List.mem_range, size] at hk
    obtain ⟨i, hi, rfl⟩ := hk
    have same := unitSize_mul htier (k := i + a / u) (by rw [size]; omega) (by rw [size]; omega)
    rw [size] at same
    simp only [Function.comp, size, coversUnit_mul hu same, same]
  have first : a / u ≤ (a + u - 1) / u := Nat.div_le_div_right (by omega)
  have last : (a + n) / u ≤ (a + n - 1) / u + 1 := by
    rw [← Nat.add_div_right _ hu]
    exact Nat.div_le_div_right (by omega)
  have total := sum_units (fun k => (a + u - 1) / u ≤ k && k < (a + n) / u) u (span (a / u) ((a + n - 1) / u + 1))
  rw [countP_span first last, ← cost] at total
  have length : (span (a / u) ((a + n - 1) / u + 1)).length = touched := by
    rw [← units, unitsOf, List.length_map, size]
  rw [length] at total
  obtain ⟨d, hd⟩ : ∃ d, touched = whole + d := Nat.exists_eq_add_of_le (by
    show (a + n) / u - (a + u - 1) / u ≤ (a + n - 1) / u - a / u + 1
    omega)
  have : (a + n) / u - (a + u - 1) / u = whole := rfl
  rw [this, hd] at total
  rw [hd, Nat.add_sub_cancel_left]
  linarith

end Sys2Proof.Machine

/-! ### What a command's next state shows

The refutations below name a settled state and a command, let the model run it, and read off one field of the next state
that the statement says cannot have changed. -/

namespace Sys2Proof.Machine

/-- One reading of the state that a command answers; none for a fault. -/
def shows {α : Type} (o : Out) (f : State → α) : Option α :=
  match o with
  | .next t => some (f t)
  | _ => none

/-- What a command gives holds of the state that shows the reading. -/
theorem gives_shows {α : Type} {c : Instr} {s : State} {P : State → Prop} {f : State → α} {x : α} (hg : Gives c s P)
    (h : shows (exec c s) f = some x) : ∃ t, f t = x ∧ P t := by
  obtain ⟨t, hexec, -, hP⟩ := hg
  rw [hexec] at h
  exact ⟨t, Option.some.inj h, hP⟩

/-! ### A port beyond the 32 of R416

Nothing in a settled state bounds the numbers of ports, so that the entry which shows the state of a far port is also an
entry of a later index. A write of that entry can take the port UP or into TRAINING, and a port that owes its peer a flit
then sends one as the step ends. -/

/-- The port whose state is shown at (i, j), an entry behind OD 0x2701. -/
def farPort (i j : Nat) : Nat := odKey i j - odKey 0x2701 1

/-- The block after reset, with one port that has an ACK_SEQ to tell. -/
def owingBlock (n : Nat) : Block :=
  { Block.reset with seryo := { Block.reset.seryo with ports := [{ blankPort n with told := 1 }] } }

/-- The numbers of the next codeword pair, port by port: they move on where a port has sent one. -/
def pairNumbers (b : Block) : List Nat := b.seryo.ports.map (·.pairNo)

theorem pairNumbers_of_onlyOd {s t : State} (h : OnlyOd s t) : pairNumbers t.blk = pairNumbers s.blk := by
  obtain ⟨-, hblk⟩ := h
  rw [← hblk]
  rfl

set_option maxRecDepth 100000 in
/-- Refutes O14: a write of 2 to OD 0x2800.04, a plain entry, is a write of TRAINING for the port whose state has the same
key, which then sends what it owes. -/
theorem not_windowWriteTakesAPlainEntry : ¬ Obligations.WindowWriteTakesAPlainEntry := by
  intro h
  let s : State := { State.reset with blk := owingBlock (farPort 0x2800 4) }
  have plain : PlainEntry 0x2800 4 ⟨0x2800, 4, 4, .u32, .rw, 0, 0, top64⟩ := by unfold PlainEntry; decide
  obtain ⟨t, sent, -, -, -, only⟩ := gives_shows (f := fun t => pairNumbers t.blk) (x := [1])
    (h s 0x2800 4 8 2 _ (by decide) (by decide) (by decide) (by decide) (by decide) plain (.inl rfl) (by decide)) (by decide)
  have stands := pairNumbers_of_onlyOd only
  rw [sent] at stands
  exact absurd stands (by decide)

set_option maxRecDepth 100000 in
/-- Refutes O21: the code 2 of a FENCE that is not accepted, here for a bridge in detention, stands in OD 0x2802.02, and is
TRAINING for the port whose state has the same key. -/
theorem not_unitsFencedAndRestored : ¬ Obligations.UnitsFencedAndRestored := by
  intro h
  let b := owingBlock (farPort 0x2802 2)
  let s : State := { State.reset with blk := { b with faults := { b.faults with bridgeFenced := true } } }
  obtain ⟨-, refused, -⟩ := h s 0x500 (by decide) (by decide) (by decide)
  obtain ⟨t, sent, -, -, only⟩ := gives_shows (f := fun t => pairNumbers t.blk) (x := [1])
    (refused 2 (.inr (.inl (by decide)))) (by decide)
  have stands := pairNumbers_of_onlyOd only
  rw [sent] at stands
  exact absurd stands (by decide)

set_option maxRecDepth 100000 in
/-- Refutes O23: the second word armed makes OD 0x2804.03 read 2, which is TRAINING for the port whose state has the same
key; the flits that it then sends use up an injection armed for it before. -/
theorem not_injectionsArmed : ¬ Obligations.InjectionsArmed := by
  intro h
  let n := farPort 0x2804 3
  let b := owingBlock n
  let s : State := { State.reset with blk := { b with
    od := [(odKey 0x2804 1, 1), (odKey 0x2804 3, 1)],
    faults := { b.faults with injections := [⟨0x300 + n, 5, 1⟩] } } }
  obtain ⟨armed, -⟩ := h s 0x300 5 1 (by decide) (by decide) (by decide) (by decide) (by decide) (by decide)
  obtain ⟨t, left, injections, -⟩ := gives_shows (f := fun t => t.blk.faults.injections) (x := [⟨0x300, 5, 1⟩])
    (armed (by decide) (by decide)) (by decide)
  rw [left] at injections
  exact absurd injections (by decide)

/-! ### A draining ring that does not exist -/

set_option maxRecDepth 100000 in
/-- Refutes O28: SQ_DISABLE of ring 1, where ring 0 is the only one that exists, is refused with code 1; a draining ring of
that number with nothing left in flight is dropped all the same. -/
theorem not_queueControlRefused : ¬ Obligations.QueueControlRefused := by
  intro h
  let ring : SubRing := { number := 1, state := .draining, desc := 0, head := 0, tail := 0, phase := true, epoch := none,
                          tries := 0, readAt := 0, bells := [] }
  let s : State := { State.reset with blk := { Block.reset with rings := [ring] } }
  obtain ⟨t, dropped, -, -, -, -, only⟩ := gives_shows (f := fun t => t.blk.rings) (x := [])
    (h s 1 1 (.sqDisable 1) (by decide) (by decide) (by decide) rfl (by decide) (by decide) (.inl (by decide))) (by decide)
  have stands : t.blk.rings = s.blk.rings := by simpa using congrArg Block.rings only
  rw [dropped] at stands
  exact absurd stands (by decide)

end Sys2Proof.Machine

/-! ### What the end of a step leaves alone, field by field

With no fault found and nothing held back, the end of a step shows the old flows, and may let ports send IDLE flits, which
can use up injections. -/

namespace Sys2Proof.Machine

namespace Block

/-- c is the block b but for what the ports have sent, and the injections that the flits have used up. -/
def SentFrom (b c : Block) : Prop :=
  ∃ sy inj, c = { b with seryo := sy, faults := { b.faults with injections := inj } }

theorem SentFrom.refl (b : Block) : b.SentFrom b := ⟨b.seryo, b.faults.injections, rfl⟩

theorem SentFrom.trans {b c d : Block} (h : b.SentFrom c) (h' : c.SentFrom d) : b.SentFrom d := by
  obtain ⟨sy, inj, rfl⟩ := h
  obtain ⟨sy', inj', rfl⟩ := h'
  exact ⟨sy', inj', rfl⟩

theorem injected_sentFrom (b : Block) (unit checker : Nat) : b.SentFrom (b.injected unit checker).2 := by
  unfold injected
  split
  · exact ⟨_, _, rfl⟩
  · exact .refl b

theorem launch_sentFrom (b : Block) (n hdr : Nat) (payload : Bytes) : b.SentFrom (b.launch n hdr payload) :=
  (b.injected_sentFrom (0x300 + n) 5).trans ⟨_, _, rfl⟩

theorem idleOut_sentFrom (fuel : Nat) (b : Block) (n : Nat) : b.SentFrom (idleOut fuel b n) := by
  induction fuel generalizing b with
  | zero => exact .refl b
  | succ fuel ih =>
    unfold idleOut
    split
    · exact (launch_sentFrom ..).trans (ih _)
    · exact .refl b

theorem idleAll_sentFrom (b : Block) : b.SentFrom b.idleAll := by
  unfold idleAll
  refine List.foldlRecOn (motive := b.SentFrom) _ _ (.refl b) fun c hc n _ => ?_
  split
  · exact hc.trans (idleOut_sentFrom _ c n)
  · exact hc

/-- The end of a step that found no fault and holds nothing back. -/
theorem settle_unraised {b : Block} (hr : b.raised = []) (hh : b.heldBack = []) :
    ({ b.setOd 0x2202 0x0D b.oldFlows with blocked := false } : Block).SentFrom b.settle := by
  have unraised : { b with raised := [] } = b := by cases b; cases hr; rfl
  obtain ⟨sy, inj, sent⟩ := (b.setOd 0x2202 0x0D b.oldFlows).idleAll_sentFrom
  refine ⟨sy, inj, ?_⟩
  unfold settle
  rw [hr, List.foldl_nil, unraised, releaseBack_quiet b hh]
  change { (b.setOd 0x2202 0x0D b.oldFlows).idleAll with blocked := false } = _
  rw [sent]

end Block

/-- The state t ends a step whose work left the block b: its writes have landed, the marks of the step are gone, and of the
rest only OD 0x2202.0D, what ports sent and the injections that their flits used up may differ. -/
structure EndOf (s : State) (b : Block) (t : State) : Prop where
  mem : t.mem = land s.mem b.posted
  od : ∀ i j, odKey i j ≠ odKey 0x2202 0x0D → t.blk.od' i j = b.od' i j
  blk : ∃ od sy inj, t.blk = { b with
    od := od, posted := [], blocked := false, seryo := sy,
    agents := { b.agents with began := b.agents.moved, heldAt := none, heldRange := none },
    faults := { b.faults with injections := inj } }

namespace EndOf

variable {s t : State} {b : Block} (h : EndOf s b t)
include h

theorem time : t.blk.time = b.time := by obtain ⟨_, _, _, e⟩ := h.blk; rw [e]
theorem rings : t.blk.rings = b.rings := by obtain ⟨_, _, _, e⟩ := h.blk; rw [e]
theorem cqs : t.blk.cqs = b.cqs := by obtain ⟨_, _, _, e⟩ := h.blk; rw [e]
theorem waiting : t.blk.waiting = b.waiting := by obtain ⟨_, _, _, e⟩ := h.blk; rw [e]
theorem flows : t.blk.flows = b.flows := by obtain ⟨_, _, _, e⟩ := h.blk; rw [e]
theorem nextFlow : t.blk.nextFlow = b.nextFlow := by obtain ⟨_, _, _, e⟩ := h.blk; rw [e]
theorem heldBack : t.blk.heldBack = b.heldBack := by obtain ⟨_, _, _, e⟩ := h.blk; rw [e]
theorem contexts : t.blk.contexts = b.contexts := by obtain ⟨_, _, _, e⟩ := h.blk; rw [e]
theorem cache : t.blk.cache = b.cache := by obtain ⟨_, _, _, e⟩ := h.blk; rw [e]
theorem north : t.blk.north = b.north := by obtain ⟨_, _, _, e⟩ := h.blk; rw [e]
theorem south : t.blk.south = b.south := by obtain ⟨_, _, _, e⟩ := h.blk; rw [e]
theorem streams : t.blk.streams = b.streams := by obtain ⟨_, _, _, e⟩ := h.blk; rw [e]
theorem dict : t.blk.dict = b.dict := by obtain ⟨_, _, _, e⟩ := h.blk; rw [e]
theorem startUp : t.blk.startUp = b.startUp := by obtain ⟨_, _, _, e⟩ := h.blk; rw [e]
theorem power : t.blk.power = b.power := by obtain ⟨_, _, _, e⟩ := h.blk; rw [e]
theorem queue : t.blk.agents.queue = b.agents.queue := by obtain ⟨_, _, _, e⟩ := h.blk; rw [e]
theorem ring? (n : Nat) : t.blk.ring? n = b.ring? n := by unfold Block.ring?; rw [h.rings]
theorem cq? (n : Nat) : t.blk.cq? n = b.cq? n := by unfold Block.cq?; rw [h.cqs]
theorem flow? (n : Nat) : t.blk.flow? n = b.flow? n := by unfold Block.flow?; rw [h.flows]

/-- The entries that a step leaves alone are those that its work leaves alone. -/
theorem odOnly {ks : List (Nat × Nat)} (hb : ∀ i j, j < 256 → (i, j) ∉ ks → b.od' i j = s.blk.od' i j) : OdOnly s t ks := by
  intro i j hj hk hn
  rw [h.od i j (by rw [Ne, odKey_inj hj (by decide)]; simpa using hn)]
  exact hb i j hj hk

end EndOf

theorem landed_endOf {s : State} {b : Block} (hr : b.raised = []) (hh : b.heldBack = []) :
    EndOf s b (landed s b.settle) := by
  obtain ⟨sy, inj, settled⟩ := Block.settle_unraised hr hh
  refine ⟨by rw [settled]; rfl, fun i j hij => ?_, ?_⟩
  · have shown : (landed s b.settle).blk.od' i j = (b.setOd 0x2202 0x0D b.oldFlows).od' i j := by
      rw [settled]; exact Block.od'_congr _ _ rfl i j
    rw [shown, Block.setOd_other _ _ _ _ _ _ hij (by decide) (by decide)]
  · rw [settled]
    exact ⟨_, _, _, rfl⟩

/-- A command whose work finds no fault and holds nothing back gives what holds of the end of that work. -/
theorem gives_of_endOf {c : Instr} {s : State} {b : Block} {P : State → Prop} (h : exec c s = finish s b)
    (hr : b.raised = []) (hh : b.heldBack = []) (hP : ∀ t, EndOf s b t → P t) : Gives c s P :=
  ⟨_, h, rfl, hP _ (landed_endOf hr hh)⟩

theorem gives_of_endOf_read {c : Instr} {s : State} {b : Block} {P : State → Prop} (h : exec c s = finishRead s b)
    (hb : b.blocked = false) (hr : b.raised = []) (hh : b.heldBack = []) (hP : ∀ t, EndOf s b t → P t) : Gives c s P :=
  gives_of_endOf (h.trans (by simp [finishRead, hb])) hr hh hP

/-- A command whose read does not wait works as its block says. -/
theorem works_of_finishRead {c : Instr} {s : State} {b : Block} {P : Block → Prop} (h : exec c s = finishRead s b)
    (hb : b.blocked = false) (hP : P b) : Works c s P :=
  works_of_finish (h.trans (by simp [finishRead, hb])) hP

namespace Block

/-- Another entry, told by index and subindex, reads as before. -/
theorem setOd_od'_of_ne (b : Block) {i j i' j' : Nat} (v : Nat) (hj' : j' < 256) (hj : j < 256) (h : (i', j') ≠ (i, j))
    (h1 : odKey i j ≠ odKey 0x1000 6) (h2 : odKey i j ≠ odKey 0x2700 1) : (b.setOd i j v).od' i' j' = b.od' i' j' :=
  setOd_other b i j v i' j' (by rwa [Ne, odKey_inj hj' hj, ← Prod.mk.injEq]) h1 h2

theorem count_od'_of_ne (b : Block) {i j i' j' : Nat} (n : Nat) (hj' : j' < 256) (hj : j < 256) (h : (i', j') ≠ (i, j))
    (h1 : odKey i j ≠ odKey 0x1000 6) (h2 : odKey i j ≠ odKey 0x2700 1) : (b.count i j n).od' i' j' = b.od' i' j' :=
  setOd_od'_of_ne b _ hj' hj h h1 h2

end Block

/-! ### Window writes that an entry refuses (R453, R454, R456, R460, R465) -/

namespace Block

/-- A write of a whole slot of 8 bytes, whether a chapter names its entry or not. -/
theorem windowWrite_slot8 (m : Memory) {b : Block} {i j : Nat} (v : Nat) (hp : b.powered = true) (hi : 0x1000 ≤ i)
    (hi' : i < 0x3000) (hj : j < 256) :
    windowWrite m b (slotOff i j) 8 v =
      (odWrite m b false (odKey i j) v).2.recordWindow (odWrite m b false (odKey i j) v).1 (odKey i j) :=
  entryWrite_slot m b i j v hp hi hi' hj

/-- A write of 1 or 2 bytes is no write of a slot (R454). -/
theorem windowWrite_narrow (m : Memory) {b : Block} {i j size : Nat} (v : Nat) (hp : b.powered = true) (hi : 0x1000 ≤ i)
    (hi' : i < 0x3000) (hj : j < 256) (hsize : size = 1 ∨ size = 2) :
    windowWrite m b (slotOff i j) size v = b.recordWindow accWidth (odKey i j) := by
  have inSlots : slotOff i j < 0x0100_0000 := by unfold slotOff; omega
  have key : odKey (0x1000 + slotOff i j / 2048) (slotOff i j / 8 % 256) = odKey i j := by
    unfold slotOff; congr 1 <;> omega
  unfold windowWrite slotWrite
  obtain rfl | rfl := hsize <;> simp [hp, inSlots, key]

/-- The entries that MCTP alone writes are written, or written while STARTING. -/
theorem mctpOnly_acc {key : Nat} {r : OdRow} (h : mctpOnly key = true) (hr : odFind key = some r) :
    r.acc = .rw ∨ r.acc = .wo ∨ r.acc = .rwl := by
  have rows : ∀ k ∈ [odKey 0x1100 3, odKey 0x2000 5, odKey 0x2000 9, odKey 0x2804 1],
      ∀ r ∈ odFind k, r.acc = .rw ∨ r.acc = .wo ∨ r.acc = .rwl := by decide
  refine rows key ?_ r hr
  simpa [mctpOnly, or_assoc] using h

/-- What the open window does with a write, by the access code of the entry (R453, R460). -/
theorem odWrite_window (m : Memory) {b : Block} {key : Nat} (v : Nat) (hs : b.engineState = 1 ∨ b.engineState = 2)
    (hw : b.od' 0x1100 3 ≠ 0) : odWrite m b false key v =
      match odFind key with
      | none => (accNoEntry, b)
      | some r => if mctpOnly key then (accPath, b) else match r.acc with
        | .ro => (accReadOnly, b)
        | .rwc => b.stageMember r key v
        | .rwl =>
          if b.engineState != 1 then (accLocked, b)
          else if !odInRange (b.od' 0x1000 6) key r v then (accRange, b) else writeEntry m b key v
        | .rw | .wo => if !odInRange (b.od' 0x1000 6) key r v then (accRange, b) else writeEntry m b key v := by
  have notShut : b.writesShut false key = false := by
    obtain h | h := hs <;> simp [writesShut, ready, h]
  unfold odWrite
  simp only [notShut, Bool.false_eq_true, if_false]
  cases odFind key with
  | none => rfl
  | some r => simp [hw] <;> rfl

/-- The refusals of R460 that the statement lists leave the block as it was. -/
theorem odWrite_refused (m : Memory) {b : Block} {key v code : Nat} (hs : b.engineState = 1 ∨ b.engineState = 2)
    (hw : b.od' 0x1100 3 ≠ 0)
    (h : (odFind key = none ∧ code = accNoEntry) ∨
      (∃ r, odFind key = some r ∧ ((r.acc = .ro ∧ code = accReadOnly) ∨
        (r.acc = .rwc ∧ b.staging? (odSet key) = none ∧ code = accNeedsCommit) ∨
        (r.acc = .rwl ∧ mctpOnly key = false ∧ b.engineState = 2 ∧ code = accLocked) ∨
        (r.acc = .rw ∧ odInRange (b.od' 0x1000 6) key r v = false ∧ mctpOnly key = false ∧ code = accRange)))) :
    odWrite m b false key v = (code, b) := by
  rw [odWrite_window m v hs hw]
  obtain ⟨hr, rfl⟩ | ⟨r, hr, hcase⟩ := h
  · rw [hr]
  · have reachable : mctpOnly key = false := by
      rw [← Bool.not_eq_true]
      intro only
      obtain ⟨acc, -⟩ | ⟨acc, -⟩ | ⟨-, closed, -⟩ | ⟨-, -, closed, -⟩ := hcase
      · simpa [acc] using mctpOnly_acc only hr
      · simpa [acc] using mctpOnly_acc only hr
      · simp [closed] at only
      · simp [closed] at only
    simp only [hr, reachable, Bool.false_eq_true, if_false]
    obtain ⟨acc, rfl⟩ | ⟨acc, idle, rfl⟩ | ⟨acc, -, state, rfl⟩ | ⟨acc, range, -, rfl⟩ := hcase
    · simp [acc]
    · simp [acc, stageMember, idle]
    · simp [acc, state]
    · simp [acc, range]

end Block

/-- Settles O15: whichever the refusal, the write comes to its record. -/
theorem refusedWindowWriteChangesNothing : Obligations.RefusedWindowWriteChangesNothing := by
  intro s i j size v code hs ⟨powered, state, reach⟩ hi hi' hj hcase
  have whole {c : Nat} (h : Block.odWrite s.mem s.blk false (odKey i j) v = (c, s.blk)) :
      Block.windowWrite s.mem s.blk (slotOff i j) 8 v = s.blk.recordWindow c (odKey i j) := by
    rw [Block.windowWrite_slot8 s.mem v powered hi hi' hj, h]
  have index : i < 2 ^ 16 := by omega
  have refused {c : Nat} := Block.odWrite_refused s.mem (key := odKey i j) (v := v) (code := c) state reach
  obtain ⟨rfl, hr, rfl⟩ | ⟨rfl, ⟨r, hr, acc⟩, rfl⟩ | ⟨rfl, ⟨r, hr, acc⟩, idle, rfl⟩ | ⟨rfl, ⟨r, hr, acc⟩, path, ready, rfl⟩ |
    ⟨rfl, ⟨r, hr, acc, range⟩, path, rfl⟩ | ⟨narrow, rfl⟩ := hcase
  · exact gives_refusedWindowWrite hs (by decide) (by decide) index hj (whole (refused (.inl ⟨hr, rfl⟩)))
  · exact gives_refusedWindowWrite hs (by decide) (by decide) index hj (whole (refused (.inr ⟨r, hr, .inl ⟨acc, rfl⟩⟩)))
  · exact gives_refusedWindowWrite hs (by decide) (by decide) index hj
      (whole (refused (.inr ⟨r, hr, .inr (.inl ⟨acc, idle, rfl⟩)⟩)))
  · exact gives_refusedWindowWrite hs (by decide) (by decide) index hj
      (whole (refused (.inr ⟨r, hr, .inr (.inr (.inl ⟨acc, path, ready, rfl⟩))⟩)))
  · exact gives_refusedWindowWrite hs (by decide) (by decide) index hj
      (whole (refused (.inr ⟨r, hr, .inr (.inr (.inr ⟨acc, range, path, rfl⟩))⟩)))
  · exact gives_refusedWindowWrite hs (by decide) (by decide) index hj
      (Block.windowWrite_narrow s.mem v powered hi hi' hj narrow)

end Sys2Proof.Machine

/-! ### Messages of the management port and their answers (R458, R459)

Every request below fits one packet, and the endpoint serves it in the step that receives it. A vendor message's block
differs from the state's in the dictionary alone; its answer is then the same whatever the message did. -/

namespace Sys2Proof.Machine

/-- The header of a request for `k` entries from (i, j) on (R459). -/
def askHeader (op k i j : Nat) : Nat := pack [(0, 1), (8, op), (24, k), (32, i), (48, j)]

section
variable {op k i j : Nat} (hop : op < 4) (hk : k < 256) (hi : i < 2 ^ 16) (hj : j < 256)
include hop hk hi hj

theorem askHeader_lt : askHeader op k i j < 256 ^ 12 := by
  simp only [askHeader, pack_cons, pack_nil]
  omega

theorem askHeader_fields :
    bits (askHeader op k i j) 14 8 = op ∧ bits (askHeader op k i j) 31 24 = k ∧ bits (askHeader op k i j) 47 32 = i ∧
      bits (askHeader op k i j) 55 48 = j := by
  simp only [askHeader, pack_cons, pack_nil, bits_eq]
  omega

theorem askHeader_reserved :
    bits (askHeader op k i j) 7 0 = 1 ∧ bit (askHeader op k i j) 15 = false ∧ bits (askHeader op k i j) 63 56 = 0 ∧
      bits (askHeader op k i j) 95 64 = 0 := by
  simp only [askHeader, pack_cons, pack_nil, bits_eq, bit_eq, decide_eq_false_iff_not]
  omega

/-- A response's header repeats operation, count, index and subindex (R459). -/
theorem replyHeader_of_askHeader :
    pack [(0, 1), (8, bits (askHeader op k i j) 14 8), (15, 1), (16, bits (askHeader op k i j) 31 16),
      (32, bits (askHeader op k i j) 55 32), (64, 0)] = pack [(0, 1), (8, op), (15, 1), (24, k), (32, i), (48, j)] := by
  have operation := (askHeader_fields hop hk hi hj).1
  have count : bits (askHeader op k i j) 31 16 = 256 * k := by
    simp only [askHeader, pack_cons, pack_nil, bits_eq]; omega
  have entry : bits (askHeader op k i j) 55 32 = i + 2 ^ 16 * j := by
    simp only [askHeader, pack_cons, pack_nil, bits_eq]; omega
  rw [operation, count, entry]
  simp only [pack_cons, pack_nil]
  omega

/-- Which requests are well formed (R459). -/
theorem badTursioc_askHeader {len : Nat} (h : (op = 1 ∧ k = 1 ∧ len = 12) ∨ (op = 3 ∧ 0 < k ∧ k ≤ 32 ∧ j + k ≤ 256 ∧ len = 12)) :
    Block.badTursioc (askHeader op k i j) len = false := by
  obtain ⟨operation, count, -, sub⟩ := askHeader_fields hop hk hi hj
  obtain ⟨version, request, reserved, result⟩ := askHeader_reserved hop hk hi hj
  unfold Block.badTursioc
  simp only [operation, count, sub, version, request, reserved, result]
  obtain ⟨rfl, rfl, rfl⟩ | ⟨rfl, some, few, inside, rfl⟩ := h
  · rfl
  · simp; omega

end

namespace Block

/-! ### What an answer is made of -/

theorem frame_congr {b c : Block} (h : b.od' 0x1100 2 = c.od' 0x1100 2) (up : Nat) (packet : Bytes) :
    b.frame up packet = c.frame up packet := by
  unfold frame; rw [h]

theorem frames_congr {b c : Block} (h : b.od' 0x1100 2 = c.od' 0x1100 2) (up dest source owner tag : Nat) (body : Bytes) :
    b.frames up dest source owner tag body = c.frames up dest source owner tag body := by
  unfold frames; simp only [frame_congr h]

theorem respond_od'_of_ne (b : Block) (q : Request) (msg : Bytes) {i j : Nat} (hj : j < 256) (h : (i, j) ≠ (0x1100, 4)) :
    (b.respond q msg).od' i j = b.od' i j := by
  unfold respond
  rw [count_od'_of_ne _ _ hj (by decide) h (by decide) (by decide)]
  exact od'_congr _ _ rfl i j

theorem respond_counts (b : Block) (q : Request) (msg : Bytes) :
    (b.respond q msg).od' 0x1100 4 = add64 (b.od' 0x1100 4) 1 := by
  unfold respond
  rw [count_self]
  congr 1

theorem respond_mctpOut (b : Block) (q : Request) (msg : Bytes) :
    (b.respond q msg).dict.mctpOut = b.dict.mctpOut ++ b.frames 1 q.source (b.od' 0x1100 1) 0 q.tag msg := rfl

/-- A request for entries, as a vendor message. -/
def askMessage (b : Block) (op k i j : Nat) : Bytes := b.vendorHead ++ natLE 12 (askHeader op k i j) ++ []

theorem drop_askMessage (b : Block) (op k i j : Nat) : (b.askMessage op k i j).drop 5 = natLE 12 (askHeader op k i j) := by
  rw [askMessage, List.append_nil, List.drop_left' b.vendorHead_length]

theorem askMessage_length (b : Block) (op k i j : Nat) : (b.askMessage op k i j).length = 17 := by
  simp [askMessage, vendorHead_length]

theorem askMessage_not_control (b : Block) (op k i j : Nat) : (slice (b.askMessage op k i j) 0 1 == [0]) = false := by
  rw [askMessage, List.append_assoc, vendorHead_not_control]

theorem slice_askMessage (b : Block) (op k i j : Nat) : slice (b.askMessage op k i j) 0 5 = b.vendorHead := by
  rw [askMessage, List.append_assoc, slice_vendorHead]

section
variable {op k i j : Nat} (hop : op < 4) (hk : k < 256) (hi : i < 2 ^ 16) (hj : j < 256)
include hop hk hi hj

theorem leNat_take_askMessage (b : Block) :
    leNat (((b.askMessage op k i j).drop 5).take 12) = askHeader op k i j := by
  rw [drop_askMessage, List.take_of_length_le (by simp), leNat_natLE 12 _ (askHeader_lt hop hk hi hj)]

theorem fits_askMessage (b : Block) (source tag : Nat) (hgood : badTursioc (askHeader op k i j) 12 = false) :
    fits op ⟨source, tag, b.askMessage op k i j⟩ = true := by
  have operation_eq : operation ⟨source, tag, b.askMessage op k i j⟩ = some op := by
    have len : ((b.askMessage op k i j).drop 5).length = 12 := by rw [drop_askMessage, natLE_length]
    unfold operation
    simp only [askMessage_not_control, leNat_take_askMessage hop hk hi hj, len, hgood, (askHeader_fields hop hk hi hj).1,
      Bool.false_eq_true, if_false]
  rw [fits, operation_eq]
  simp

/-- A well-formed READ or READ_BLOCK is one read of its entries, behind its count (R459). -/
theorem serveRequest_askMessage (m : Memory) (b : Block) (source tag : Nat)
    (hgood : badTursioc (askHeader op k i j) 12 = false) (hread : op = 1 ∨ op = 3) :
    serveRequest m b ⟨source, tag, b.askMessage op k i j⟩ =
      if op = 1 then (b.count 0x2000 3 1).tursiocRead ⟨source, tag, b.askMessage op k i j⟩ (askHeader op k i j)
      else (b.count 0x2000 3 1).tursiocBlock ⟨source, tag, b.askMessage op k i j⟩ (askHeader op k i j) := by
  have len : ((b.askMessage op k i j).drop 5).length = 12 := by rw [drop_askMessage, natLE_length]
  unfold serveRequest tursioc
  simp only [askMessage_not_control, leNat_take_askMessage hop hk hi hj, len, hgood, (askHeader_fields hop hk hi hj).1,
    Bool.false_eq_true, if_false]
  obtain rfl | rfl := hread <;> rfl

end

/-! ### Reading an entry -/

/-- A readable entry reads as its value, and the read leaves no trace (R454, R476). -/
theorem odRead_of_readable {b : Block} {i j : Nat} (hj : j < 256) (hs : b.engineState = 1 ∨ b.engineState = 2)
    (h : ∀ r, odFind (odKey i j) = some r → r.acc ≠ .wo ∧
      (i, j) ∉ [(0x2000, 3), (0x2901, 4), (0x2504, 1), (0x2504, 3)]) :
    b.odRead (odKey i j) = (if (odFind (odKey i j)).isSome then b.od' i j else 0, b) := by
  have notHalted : (b.engineState == 4) = false := by obtain h | h := hs <;> simp [h]
  have index : odKey i j / 256 = i := by unfold odKey; omega
  have sub : odKey i j % 256 = j := by unfold odKey; omega
  unfold odRead
  cases hr : odFind (odKey i j) with
  | none => rfl
  | some r =>
    obtain ⟨acc, kept⟩ := h r hr
    have other {i' j' : Nat} (hj' : j' < 256) (hne : (i, j) ≠ (i', j')) : (odKey i j == odKey i' j') = false := by
      rw [beq_eq_false_iff_ne, Ne, odKey_inj hj hj', ← Prod.mk.injEq]; exact hne
    simp only [List.mem_cons, List.not_mem_nil, or_false, not_or] at kept
    obtain ⟨-, draw, first, second⟩ := kept
    simp [acc, notHalted, other _ draw, other _ first, other _ second, index, sub]

/-- A run of readable entries read one by one. -/
theorem odRead_run {b : Block} {i j : Nat} (hs : b.engineState = 1 ∨ b.engineState = 2) (ks : List Nat)
    (h : ∀ k ∈ ks, j + k < 256 ∧ ∀ r, odFind (odKey i (j + k)) = some r → r.acc ≠ .wo ∧
      (i, j + k) ∉ [(0x2000, 3), (0x2901, 4), (0x2504, 1), (0x2504, 3)]) (front : Bytes) :
    ks.foldl (fun (acc : Bytes × Block) k =>
      let x := acc.2.odRead (odKey i (j + k))
      (acc.1 ++ natLE 8 x.1, x.2)) (front, b) =
    (front ++ ks.flatMap (fun k => natLE 8 (if (odFind (odKey i (j + k))).isSome then b.od' i (j + k) else 0)), b) := by
  induction ks generalizing front with
  | nil => simp
  | cons k ks ih =>
    obtain ⟨inside, readable⟩ := h k List.mem_cons_self
    rw [List.foldl_cons, odRead_of_readable inside hs readable, ih fun k' hk' => h k' (List.mem_cons_of_mem k hk')]
    simp

/-! ### Writing a plain entry -/

/-- A write of a plain entry in range, over MCTP while the engine is STARTING or READY, sets it and does nothing else. -/
theorem odWrite_plain (m : Memory) {b : Block} {i j v : Nat} {r : OdRow} (hj : j < 256)
    (hs : b.engineState = 1 ∨ b.engineState = 2) (h : PlainEntry i j r)
    (hv : odInRange (b.od' 0x1000 6) (odKey i j) r v = true) :
    odWrite m b true (odKey i j) v = (accOk, b.setOd i j v) := by
  obtain ⟨hr, acc, noSignal, notIn⟩ := h
  have notShut : b.writesShut true (odKey i j) = false := by
    obtain h | h := hs <;> simp [writesShut, ready, h]
  have rows : ∀ k ∈ [odKey 0x1F00 1, odKey 0x2000 5, odKey 0x2000 9, odKey 0x2201 1, odKey 0x2202 8, odKey 0x2801 3,
      odKey 0x2802 1, odKey 0x2804 2], ∀ r ∈ odFind k, r.acc ≠ .rw := by decide
  have special {k : Nat} (hk : k ∈ [odKey 0x1F00 1, odKey 0x2000 5, odKey 0x2000 9, odKey 0x2201 1, odKey 0x2202 8,
      odKey 0x2801 3, odKey 0x2802 1, odKey 0x2804 2]) : (odKey i j == k) = false := by
    rw [beq_eq_false_iff_ne]
    rintro rfl
    exact rows _ hk r hr acc
  have excluded {i' j' : Nat} (hj' : j' < 256) (hm : (i', j') ∈ [(0x1100, 3), (0x2602, 1), (0x2700, 2), (0x2700, 3), (0x2804, 1)]) :
      (odKey i j == odKey i' j') = false := by
    rw [beq_eq_false_iff_ne, Ne, odKey_inj hj hj', ← Prod.mk.injEq]
    intro same
    exact notIn (same ▸ hm)
  have index : odKey i j / 256 = i := by unfold odKey; omega
  have sub : odKey i j % 256 = j := by unfold odKey; omega
  unfold odWrite writeEntry
  simp [notShut, hr, acc, hv, noSignal, index, sub, special, excluded]

/-- A plain entry is neither the configuration nor the package number, nor one that the management port shows. -/
theorem plainEntry_ne {i j : Nat} {r : OdRow} (h : PlainEntry i j r) (k : Nat)
    (hk : k ∈ [odKey 0x1000 6, odKey 0x2700 1, odKey 0x1000 3, odKey 0x1100 1, odKey 0x1100 2, odKey 0x1100 4, odKey 0x2000 3,
      odKey 0x2000 4, odKey 0x2202 0x0D]) : odKey i j ≠ k := by
  have rows : ∀ k ∈ [odKey 0x1000 6, odKey 0x2700 1, odKey 0x1000 3, odKey 0x1100 1, odKey 0x1100 2, odKey 0x1100 4,
      odKey 0x2000 3, odKey 0x2000 4, odKey 0x2202 0x0D], ∀ r ∈ odFind k, r.acc ≠ .rw := by decide
  obtain ⟨hr, acc, -, -⟩ := h
  rintro rfl
  exact rows _ hk r hr acc

theorem odInRange_lt {config key v : Nat} {r : OdRow} (h : odInRange config key r v = true) : v < 2 ^ 64 := by
  have typed : odTypeOk r.ty v = true := by
    unfold odInRange at h
    simp only [Bool.and_eq_true] at h
    exact h.1.1.1.1
  cases ht : r.ty <;> simp [odTypeOk, OdType.bytes, ht] at typed <;> grind

end Block

/-! ### A vendor message answered -/

/-- A message whose work changed the entries ks, beside its count, is answered with its result; the counters move on, and
nothing else of the dictionary changes. -/
theorem gives_of_tursiocReply {c : Instr} {s : State} {b : Block} {peer tag op k i j : Nat} {body value : Bytes}
    {ks : List (Nat × Nat)} (hs : Settled s) (hop : op < 4) (hk : k < 256) (hi : i < 2 ^ 16) (hj : j < 256)
    (hexec : exec c s = finishRead s (b.tursiocReply ⟨peer, tag, body⟩ (askHeader op k i j) accOk value))
    (hbody : slice body 0 5 = s.blk.vendorHead) (hb : { b with od := s.blk.od } = s.blk)
    (hcount : b.od' 0x2000 3 = add64 (s.blk.od' 0x2000 3) 1)
    (hod : ∀ i j, j < 256 → (i, j) ∉ (0x2000, 3) :: ks → b.od' i j = s.blk.od' i j)
    (hks : ∀ e ∈ ks, e ∉ [(0x1100, 1), (0x1100, 2), (0x1100, 4)]) {P : State → Prop}
    (hP : ∀ t : State, t.blk.dict.mctpOut = s.blk.dict.mctpOut ++ s.blk.frames 1 peer (s.blk.od' 0x1100 1) 0 tag
        (s.blk.vendorHead ++ natLE 12 (pack [(0, 1), (8, op), (15, 1), (24, k), (32, i), (48, j)]) ++ value) →
      t.blk.od' 0x2000 3 = add64 (s.blk.od' 0x2000 3) 1 → t.blk.od' 0x1100 4 = add64 (s.blk.od' 0x1100 4) 1 →
      OdOnly s t ((0x2000, 3) :: (0x1100, 4) :: ks) → t.mem = s.mem →
      (∀ i j, j < 256 → (i, j) ≠ (0x1100, 4) → (i, j) ≠ (0x2202, 0x0D) → t.blk.od' i j = b.od' i j) → P t) :
    Gives c s P := by
  obtain ⟨noWrite, unblocked, ⟨noFault, noneHeld, -⟩, -⟩ := hs
  have sameField {α : Type} (f : Block → α) (hf : ∀ b od, f { b with od := od } = f b) : f b = f s.blk := by
    exact (hf b s.blk.od).symm.trans (congrArg f hb)
  have port (e : Nat × Nat) (he : e ∈ [(0x1100, 1), (0x1100, 2), (0x1100, 4)]) : b.od' e.1 e.2 = s.blk.od' e.1 e.2 := by
    refine hod e.1 e.2 ?_ ?_
    · fin_cases he <;> decide
    · rw [List.mem_cons, not_or]
      exact ⟨by fin_cases he <;> decide, fun hmem => hks e hmem he⟩
  have reply : b.tursiocReply ⟨peer, tag, body⟩ (askHeader op k i j) accOk value = b.respond ⟨peer, tag, body⟩
      (s.blk.vendorHead ++ natLE 12 (pack [(0, 1), (8, op), (15, 1), (24, k), (32, i), (48, j)]) ++ value) := by
    unfold Block.tursiocReply
    rw [hbody, show accOk = 0 from rfl, replyHeader_of_askHeader hop hk hi hj]
  rw [reply] at hexec
  have posted : b.posted = [] := (sameField Block.posted fun _ _ => rfl).trans noWrite
  refine gives_of_endOf_read hexec ((sameField Block.blocked fun _ _ => rfl).trans unblocked)
    ((sameField Block.raised fun _ _ => rfl).trans noFault) ((sameField Block.heldBack fun _ _ => rfl).trans noneHeld)
    fun t ht => hP t ?_ ?_ ?_ ?_ ?_ ?_
  · rw [ht.dict, Block.respond_mctpOut, Block.frames_congr (port (0x1100, 2) (by simp)), port (0x1100, 1) (by simp),
      sameField Block.dict fun _ _ => rfl]
  · rw [ht.od _ _ (by decide), Block.respond_od'_of_ne _ _ _ (by decide) (by decide), hcount]
  · rw [ht.od _ _ (by decide), Block.respond_counts, port (0x1100, 4) (by simp)]
  · refine ht.odOnly fun i j hj hij => ?_
    simp only [List.mem_cons, not_or] at hij
    obtain ⟨notCount, notResponses, notKs⟩ := hij
    rw [Block.respond_od'_of_ne _ _ _ hj notResponses, hod i j hj (by simp [notCount, notKs])]
  · rw [ht.mem]
    show land s.mem b.posted = _
    rw [posted]
    rfl
  · intro i j hj notResponses notOld
    rw [ht.od i j (by rwa [Ne, odKey_inj hj (by decide), ← Prod.mk.injEq]),
      Block.respond_od'_of_ne _ _ _ hj notResponses]

section
variable {s : State} {i j peer tag : Nat} (hs : Settled s) (hp : s.blk.powered = true)
  (hstate : s.blk.engineState = 1 ∨ s.blk.engineState = 2) (hi : i < 2 ^ 16) (hj : j < 256) (hpeer : peer < 256)
  (htag : tag < 8) (hown : s.blk.od' 0x1100 1 < 256) (hnew : ∀ a ∈ s.blk.dict.assembly, a.source ≠ peer ∨ a.tag ≠ tag)
include hs hp hi hj hpeer htag hown hnew

/-- A READ or READ_BLOCK whose entries read as `value` is answered with it. -/
theorem gives_of_ask {c : Instr} {op k : Nat} {value : Bytes} (hop : op = 1 ∨ op = 3) (hk : k < 256)
    (hgood : Block.badTursioc (askHeader op k i j) 12 = false)
    (hexec : exec c s = finishRead s (Block.management s.mem s.blk op
      (s.blk.frames 0 (s.blk.od' 0x1100 1) peer 1 tag (s.blk.askMessage op k i j))))
    (hread : ∀ q, (if op = 1 then (s.blk.count 0x2000 3 1).tursiocRead q (askHeader op k i j)
      else (s.blk.count 0x2000 3 1).tursiocBlock q (askHeader op k i j)) =
        (s.blk.count 0x2000 3 1).tursiocReply q (askHeader op k i j) accOk value) :
    Gives c s (fun t =>
      t.blk.dict.mctpOut = s.blk.dict.mctpOut ++ s.blk.frames 1 peer (s.blk.od' 0x1100 1) 0 tag
        (s.blk.vendorHead ++ natLE 12 (pack [(0, 1), (8, op), (15, 1), (24, k), (32, i), (48, j)]) ++ value) ∧
      t.blk.od' 0x2000 3 = add64 (s.blk.od' 0x2000 3) 1 ∧ t.blk.od' 0x1100 4 = add64 (s.blk.od' 0x1100 4) 1 ∧
        OdOnly s t [(0x2000, 3), (0x1100, 4)] ∧ t.mem = s.mem) := by
  have hop4 : op < 4 := by omega
  have len := s.blk.askMessage_length op k i j
  rw [Block.management_request s.mem s.blk hp hown hpeer htag hnew (List.ne_nil_of_length_pos (by omega)) (by omega)
    (by rw [Block.askMessage, List.append_assoc, Block.takes_vendorHead])
    (Block.fits_askMessage hop4 hk hi hj _ _ _ hgood),
    Block.serveRequest_askMessage hop4 hk hi hj _ _ _ _ hgood hop, hread] at hexec
  exact gives_of_tursiocReply hs hop4 hk hi hj hexec (Block.slice_askMessage ..) rfl (Block.count_self ..)
    (fun i j hj h => Block.count_od'_of_ne _ _ hj (by decide) (by simpa using h) (by decide) (by decide)) (by simp)
    fun t out count responses only memory _ => ⟨out, count, responses, only, memory⟩

include hstate

/-- A WRITE of a plain entry in range gives it its value, and the answer says so. -/
theorem gives_of_writePlain {v : Nat} {r : OdRow} (hr : PlainEntry i j r)
    (hv : odInRange (s.blk.od' 0x1000 6) (odKey i j) r v = true) :
    Gives (.mctpWrite (s.blk.frames 0 (s.blk.od' 0x1100 1) peer 1 tag (s.blk.writeMessage i j v))) s (fun t =>
      t.blk.dict.mctpOut = s.blk.dict.mctpOut ++ s.blk.frames 1 peer (s.blk.od' 0x1100 1) 0 tag
        (s.blk.vendorHead ++ natLE 12 (pack [(0, 1), (8, 2), (15, 1), (24, 1), (32, i), (48, j)]) ++ []) ∧
      t.blk.od' i j = v ∧ t.blk.od' 0x2000 3 = add64 (s.blk.od' 0x2000 3) 1 ∧
        t.blk.od' 0x1100 4 = add64 (s.blk.od' 0x1100 4) 1 ∧
        OdOnly s t [(0x2000, 3), (0x1100, 4), (i, j)] ∧ t.mem = s.mem) := by
  have len := s.blk.writeMessage_length i j v
  have apart {i' j' : Nat} (hj' : j' < 256) (h : odKey i' j' ∈ [odKey 0x1000 6, odKey 0x2700 1, odKey 0x1000 3,
      odKey 0x1100 1, odKey 0x1100 2, odKey 0x1100 4, odKey 0x2000 3, odKey 0x2000 4, odKey 0x2202 0x0D]) :
      (i, j) ≠ (i', j') := by
    have := Block.plainEntry_ne hr _ h
    rwa [Ne, odKey_inj hj hj', ← Prod.mk.injEq] at this
  have noConfig := Block.plainEntry_ne hr (odKey 0x1000 6) (by simp)
  have noNumber := Block.plainEntry_ne hr (odKey 0x2700 1) (by simp)
  have counted {i' j' : Nat} (hj' : j' < 256) (h : (i', j') ≠ (0x2000, 3)) :
      (s.blk.count 0x2000 3 1).od' i' j' = s.blk.od' i' j' :=
    Block.count_od'_of_ne _ _ hj' (by decide) h (by decide) (by decide)
  have written : Block.odWrite s.mem (s.blk.count 0x2000 3 1) true (odKey i j) v =
      (accOk, (s.blk.count 0x2000 3 1).setOd i j v) := by
    refine Block.odWrite_plain s.mem hj ?_ hr ?_
    · have : (s.blk.count 0x2000 3 1).engineState = s.blk.engineState := counted (by decide) (by decide)
      rwa [this]
    · rwa [counted (by decide) (by decide)]
  have served : Block.management s.mem s.blk 2
      (s.blk.frames 0 (s.blk.od' 0x1100 1) peer 1 tag (s.blk.writeMessage i j v)) =
      ((s.blk.count 0x2000 3 1).setOd i j v).tursiocReply ⟨peer, tag, s.blk.writeMessage i j v⟩
        (askHeader 2 1 i j) accOk [] := by
    rw [Block.management_request s.mem s.blk hp hown hpeer htag hnew (List.ne_nil_of_length_pos (by omega)) (by omega)
      (by rw [Block.writeMessage_eq, Block.takes_vendorHead]) (Block.fits_writeMessage hi hj _ _ _ _),
      Block.serveRequest_writeMessage hi hj _ _ _ _ (Block.odInRange_lt hv), written]
    rfl
  have exec_eq : exec (.mctpWrite (s.blk.frames 0 (s.blk.od' 0x1100 1) peer 1 tag (s.blk.writeMessage i j v))) s =
      finishRead s (((s.blk.count 0x2000 3 1).setOd i j v).tursiocReply ⟨peer, tag, s.blk.writeMessage i j v⟩
        (askHeader 2 1 i j) accOk []) := congrArg (finishRead s) served
  refine gives_of_tursiocReply (ks := [(i, j)]) hs (by decide) (by decide) hi hj exec_eq
    (by rw [Block.writeMessage_eq, Block.slice_vendorHead]) rfl ?_ (fun i' j' hj' h => ?_) ?_
    fun t out count responses only memory same => ⟨out, ?_, count, responses, only, memory⟩
  · rw [Block.setOd_od'_of_ne _ _ (by decide) hj (apart (by decide) (by simp)).symm noConfig noNumber, Block.count_self]
  · simp only [List.mem_cons, List.not_mem_nil, or_false, not_or] at h
    rw [Block.setOd_od'_of_ne _ _ hj' hj h.2 noConfig noNumber, counted hj' h.1]
  · simp only [forall_eq, List.mem_cons, List.not_mem_nil, or_false, not_or]
    exact ⟨apart (by decide) (by simp), apart (by decide) (by simp), apart (by decide) (by simp)⟩
  · rw [same i j hj (apart (by decide) (by simp)) (apart (by decide) (by simp)), Block.setOd_self]

end

/-- Settles O16: each request is one packet, its entries are read or written in the dictionary that the message's own count
has moved on, and the answer repeats its header. -/
theorem managementMessagesAnswered : Obligations.ManagementMessagesAnswered := by
  intro s i j n v peer tag hs hp hstate hi hn hpos hfew hpeer htag hown hnew
  have hj : j < 256 := by omega
  have counted {j' : Nat} (hj' : j' < 256) (h : (i, j') ≠ (0x2000, 3)) :
      (s.blk.count 0x2000 3 1).od' i j' = s.blk.od' i j' :=
    Block.count_od'_of_ne _ _ hj' (by decide) h (by decide) (by decide)
  have started : (s.blk.count 0x2000 3 1).engineState = 1 ∨ (s.blk.count 0x2000 3 1).engineState = 2 := by
    have : (s.blk.count 0x2000 3 1).engineState = s.blk.engineState :=
      Block.count_od'_of_ne _ _ (by decide) (by decide) (by decide) (by decide) (by decide)
    rwa [this]
  refine ⟨fun ⟨r, hr, short⟩ readable => ?_, fun readable => ?_, fun r hr hv => ?_⟩
  · refine gives_of_ask hs hp hi hj hpeer htag hown hnew (.inl rfl) (by decide)
      (badTursioc_askHeader (by decide) (by decide) hi hj (.inl ⟨rfl, rfl, rfl⟩)) rfl fun q => ?_
    obtain ⟨-, -, index, sub⟩ := askHeader_fields (op := 1) (k := 1) (by decide) (by decide) hi hj
    have kept : (i, j) ≠ (0x2000, 3) := fun h => (readable r hr).2 (by simp [h])
    rw [if_pos rfl, Block.tursiocRead, index, sub]
    simp only [hr, Block.odRead_of_readable hj started readable, Nat.not_lt.2 short, Option.isSome_some, if_true, if_false,
      counted hj kept]
  · refine gives_of_ask hs hp hi hj hpeer htag hown hnew (.inr rfl) (by omega)
      (badTursioc_askHeader (by decide) (by omega) hi hj (.inr ⟨rfl, hpos, hfew, hn, rfl⟩)) rfl fun q => ?_
    obtain ⟨-, count, index, sub⟩ := askHeader_fields (op := 3) (k := n) (by decide) (by omega) hi hj
    rw [if_neg (by decide), Block.tursiocBlock, count, index, sub, Block.odRead_run started]
    · have same : ∀ k ∈ List.range n, natLE 8 (if (odFind (odKey i (j + k))).isSome then
          (s.blk.count 0x2000 3 1).od' i (j + k) else 0) =
          natLE 8 (if (odFind (odKey i (j + k))).isSome then s.blk.od' i (j + k) else 0) := fun k hk => by
        rw [List.mem_range] at hk
        cases hr : odFind (odKey i (j + k)) with
        | none => rfl
        | some r =>
          have kept : (i, j + k) ≠ (0x2000, 3) := fun h => (readable _ (by omega) (by omega) r hr).2 (by simp [h])
          rw [counted (by omega) kept]
      simp only [List.nil_append, List.flatMap_congr same]
    · intro k hk
      rw [List.mem_range] at hk
      exact ⟨by omega, readable _ (by omega) (by omega)⟩
  · exact gives_of_writePlain hs hp hstate hi hj hpeer htag hown hnew hr hv

end Sys2Proof.Machine

namespace Sys2Proof.Machine

/-! ### Control messages of the management port (R458) -/

/-- A control request: message type 0, the request bit with its number, the command and its arguments. -/
def controlBody (inst command : Nat) (args : Bytes) : Bytes :=
  [0, BitVec.ofNat 8 (128 + inst), BitVec.ofNat 8 command] ++ args

namespace Block

theorem leNat_byte (x : Byte) : leNat [x] = x.toNat := by simp [leNat]

section
variable {inst : Nat} (hinst : inst < 32) (command : Nat) (args : Bytes)

theorem slice_type_controlBody : slice (controlBody inst command args) 0 1 = [0] := rfl

theorem slice_command_controlBody : slice (controlBody inst command args) 2 1 = [BitVec.ofNat 8 command] := rfl

include hinst

theorem takes_controlBody (b : Block) : b.takes (controlBody inst command args) = true := by
  have second : slice (controlBody inst command args) 1 1 = [BitVec.ofNat 8 (128 + inst)] := rfl
  unfold takes
  rw [slice_type_controlBody, second, leNat_byte]
  simp [controlBody]
  omega

/-- The answer to a control request carries its number and command (R458). -/
theorem controlReply_controlBody (b : Block) (source tag code : Nat) (data : Bytes):
    b.controlReply ⟨source, tag, controlBody inst command args⟩ code data =
      b.respond ⟨source, tag, controlBody inst command args⟩
        ([0, BitVec.ofNat 8 inst, BitVec.ofNat 8 command, BitVec.ofNat 8 code] ++ data) := by
  have second : leNat (slice (controlBody inst command args) 1 1) % 32 = inst := by
    show leNat [BitVec.ofNat 8 (128 + inst)] % 32 = inst
    rw [leNat_byte, BitVec.toNat_ofNat]
    omega
  unfold controlReply
  rw [second, slice_command_controlBody]
  rfl

end

theorem control_setEndpoint (b : Block) (source tag inst eid : Nat) (h : 0 < eid) (h' : eid < 255) :
    b.control ⟨source, tag, controlBody inst 1 [0, BitVec.ofNat 8 eid]⟩ =
      (b.setOd 0x1100 1 eid).controlReply ⟨source, tag, controlBody inst 1 [0, BitVec.ofNat 8 eid]⟩ 0
        [0, BitVec.ofNat 8 eid, 0] := by
  have target : leNat [BitVec.ofNat 8 eid] = eid := by
    rw [leNat_byte, BitVec.toNat_ofNat]
    omega
  have shown : natLE 3 (eid <<< 8) = [0, BitVec.ofNat 8 eid, 0] := by
    have low : BitVec.ofNat 8 (eid * 256) = 0 := by bv_omega
    have high : eid / 256 = 0 := by omega
    simp [natLE, Nat.shiftLeft_eq, low, high]
  have unfolded : b.control ⟨source, tag, controlBody inst 1 [0, BitVec.ofNat 8 eid]⟩ =
      if leNat [BitVec.ofNat 8 eid] == 0 || leNat [BitVec.ofNat 8 eid] == 255 then
        b.controlReply ⟨source, tag, controlBody inst 1 [0, BitVec.ofNat 8 eid]⟩ 2 []
      else (b.setOd 0x1100 1 (leNat [BitVec.ofNat 8 eid])).controlReply
        ⟨source, tag, controlBody inst 1 [0, BitVec.ofNat 8 eid]⟩ 0 (natLE 3 (leNat [BitVec.ofNat 8 eid] <<< 8)) := rfl
  rw [unfolded, target, shown, if_neg (by simp; omega)]

theorem control_getEndpoint (b : Block) (source tag inst : Nat) :
    b.control ⟨source, tag, controlBody inst 2 []⟩ =
      b.controlReply ⟨source, tag, controlBody inst 2 []⟩ 0 (natLE 3 (b.od' 0x1100 1)) := rfl

theorem control_unknown (b : Block) (source tag inst : Nat) {c : Nat} (hc : c < 256) (h : c ∉ [1, 2, 4, 5, 6]) :
    b.control ⟨source, tag, controlBody inst c []⟩ = b.controlReply ⟨source, tag, controlBody inst c []⟩ 5 [] := by
  have command : leNat (slice (controlBody inst c []) 2 1) = c := by
    rw [slice_command_controlBody, leNat_byte, BitVec.toNat_ofNat]
    omega
  simp only [List.mem_cons, List.not_mem_nil, or_false, not_or] at h
  obtain ⟨h1, h2, h4, h5, h6⟩ := h
  unfold control
  simp only [command]

end Block

/-- A control request in one packet, served by a work c of the entries `ks` alone, is answered from there. -/
theorem gives_of_control {s : State} {c : Block} {peer tag inst command code : Nat} {args data : Bytes}
    {ks : List (Nat × Nat)} (hs : Settled s) (hp : s.blk.powered = true) (hpeer : peer < 256) (htag : tag < 8)
    (hinst : inst < 32) (hargs : args.length ≤ 61) (hown : s.blk.od' 0x1100 1 < 256)
    (hnew : ∀ a ∈ s.blk.dict.assembly, a.source ≠ peer ∨ a.tag ≠ tag)
    (hserve : s.blk.control ⟨peer, tag, controlBody inst command args⟩ =
      c.controlReply ⟨peer, tag, controlBody inst command args⟩ code data)
    (hc : { c with od := s.blk.od } = s.blk) (hod : ∀ i j, j < 256 → (i, j) ∉ ks → c.od' i j = s.blk.od' i j)
    (hks : (0x1100, 2) ∉ ks) :
    let fs := s.blk.frames 0 (s.blk.od' 0x1100 1) peer 1 tag (controlBody inst command args)
    Gives (.mctpControl (fs.headD []) fs.tail) s (fun t =>
      t.blk.dict.mctpOut = s.blk.dict.mctpOut ++ s.blk.frames 1 peer (c.od' 0x1100 1) 0 tag
        ([0, BitVec.ofNat 8 inst, BitVec.ofNat 8 command, BitVec.ofNat 8 code] ++ data) ∧
      (∀ i j, j < 256 → (i, j) ≠ (0x1100, 4) → (i, j) ≠ (0x2202, 0x0D) → t.blk.od' i j = c.od' i j) ∧
      OdOnly s t (ks ++ [(0x1100, 4)])) := by
  obtain ⟨-, unblocked, ⟨noFault, noneHeld, -⟩, -⟩ := hs
  have sameField {α : Type} (f : Block → α) (hf : ∀ b od, f { b with od := od } = f b) : f c = f s.blk :=
    (hf c s.blk.od).symm.trans (congrArg f hc)
  have len : (controlBody inst command args).length = args.length + 3 := by simp [controlBody]
  have nonempty : controlBody inst command args ≠ [] := List.ne_nil_of_length_pos (by omega)
  have single := Block.frames_of_length_le s.blk 0 (s.blk.od' 0x1100 1) peer tag nonempty (by omega)
  have served := Block.management_request (op := 0) s.mem s.blk hp hown hpeer htag hnew nonempty (by omega)
    (Block.takes_controlBody hinst command args s.blk) rfl
  intro fs
  have whole : fs.headD [] :: fs.tail = fs := by simp only [fs, single]; rfl
  have exec_eq : exec (.mctpControl (fs.headD []) fs.tail) s =
      finishRead s (c.respond ⟨peer, tag, controlBody inst command args⟩
        ([0, BitVec.ofNat 8 inst, BitVec.ofNat 8 command, BitVec.ofNat 8 code] ++ data)) := by
    show finishRead s (Block.management s.mem s.blk 0 (fs.headD [] :: fs.tail)) = _
    rw [whole, served, Block.serveRequest, Block.slice_type_controlBody]
    simp only [beq_self_eq_true, if_true]
    rw [hserve, Block.controlReply_controlBody hinst]
  refine gives_of_endOf_read exec_eq ((sameField Block.blocked fun _ _ => rfl).trans unblocked)
    ((sameField Block.raised fun _ _ => rfl).trans noFault) ((sameField Block.heldBack fun _ _ => rfl).trans noneHeld)
    fun t ht => ⟨?_, fun i j hj notResponses notOld => ?_, ht.odOnly fun i j hj hij => ?_⟩
  · rw [ht.dict, Block.respond_mctpOut, Block.frames_congr (hod _ _ (by decide) hks), sameField Block.dict fun _ _ => rfl]
  · rw [ht.od i j (by rwa [Ne, odKey_inj hj (by decide), ← Prod.mk.injEq]), Block.respond_od'_of_ne _ _ _ hj notResponses]
  · simp only [List.mem_append, List.mem_singleton, not_or] at hij
    rw [Block.respond_od'_of_ne _ _ _ hj hij.2, hod i j hj hij.1]

/-- Settles O17: each control request is one packet, and its answer names the endpoint identifier that the request leaves. -/
theorem managementControlAnswered : Obligations.ManagementControlAnswered := by
  intro s eid c peer tag inst hs hp hpos hless hpeer htag hinst hown hnew
  refine ⟨?_, ?_, fun hc known => ?_⟩
  · obtain ⟨t, ht, rest, out, same, only⟩ := gives_of_control (ks := [(0x1100, 1)]) hs hp hpeer htag hinst (by simp) hown
      hnew (Block.control_setEndpoint s.blk peer tag inst eid hpos hless) rfl
      (fun i j hj h => Block.setOd_od'_of_ne _ _ hj (by decide) (by simpa using h) (by decide) (by decide)) (by decide)
    refine ⟨t, ht, rest, ?_, ?_, only⟩
    · rw [same _ _ (by decide) (by decide) (by decide), Block.setOd_self]
    · rw [out, Block.setOd_self]
  · obtain ⟨t, ht, rest, out, -, only⟩ := gives_of_control (ks := []) hs hp hpeer htag hinst (by decide) hown hnew
      (Block.control_getEndpoint s.blk peer tag inst) rfl (fun _ _ _ _ => rfl) (by decide)
    exact ⟨t, ht, rest, out, only⟩
  · obtain ⟨t, ht, rest, out, -, only⟩ := gives_of_control (ks := []) hs hp hpeer htag hinst (by decide) hown hnew
      (Block.control_unknown s.blk peer tag inst hc known) rfl (fun _ _ _ _ => rfl) (by decide)
    exact ⟨t, ht, rest, out, only⟩

end Sys2Proof.Machine

/-! ### Control words that the window takes (R454, R456)

A control word in range reaches its own behaviour, and the write is recorded; the step ends as the behaviour left the
block. -/

namespace Sys2Proof.Machine

/-- An entry that software may write at any time through the window, v being in its range. -/
def TakesWord (config i j v : Nat) : Prop :=
  0x1000 ≤ i ∧ i < 0x3000 ∧ j < 256 ∧ mctpOnly (odKey i j) = false ∧
    ∃ r, odFind (odKey i j) = some r ∧ (r.acc = .rw ∨ r.acc = .wo) ∧ odInRange config (odKey i j) r v = true

/-- The three control words of queues and commit sets take every word of 32 bits (R125, R464, R495). -/
theorem takesWord_control (config : Nat) {i j v : Nat} (h : (i, j) ∈ [(0x1F00, 1), (0x2201, 1), (0x2202, 8)])
    (hv : v < 2 ^ 32) : TakesWord config i j v := by
  have top : v ≤ top64 := by unfold top64; omega
  have typed : odTypeOk .u32 v = true := decide_eq_true hv
  simp only [List.mem_cons, Prod.mk.injEq, List.not_mem_nil, or_false] at h
  obtain ⟨rfl, rfl⟩ | ⟨rfl, rfl⟩ | ⟨rfl, rfl⟩ := h
  · exact ⟨by decide, by decide, by decide, by decide, ⟨0x1F00, 1, 1, .u32, .wo, 0, 0, top64⟩, by decide, .inr rfl,
      by simp [odInRange, typed, top, odAlignOk, odKey]⟩
  · exact ⟨by decide, by decide, by decide, by decide, ⟨0x2201, 1, 1, .u32, .wo, 0, 0, top64⟩, by decide, .inr rfl,
      by simp [odInRange, typed, top, odAlignOk, odKey]⟩
  · exact ⟨by decide, by decide, by decide, by decide, ⟨0x2202, 8, 8, .u32, .wo, 0, 0, top64⟩, by decide, .inr rfl,
      by simp [odInRange, typed, top, odAlignOk, odKey]⟩

theorem Block.recordWindow_rings (b : Block) (code key : Nat) : (b.recordWindow code key).rings = b.rings := by
  unfold recordWindow; simp only [count_rings, setOd_rings]

theorem Block.recordWindow_cqs (b : Block) (code key : Nat) : (b.recordWindow code key).cqs = b.cqs := by
  unfold recordWindow; simp only [count_cqs, setOd_cqs]

theorem Block.recordWindow_dict (b : Block) (code key : Nat) : (b.recordWindow code key).dict = b.dict := by
  unfold recordWindow; simp only [count_dict, setOd_dict]

/-- What a word of the window leaves, its behaviour having left the block b: b, with the write recorded. -/
structure WordEnd (s : State) (b : Block) (i j : Nat) (ks : List (Nat × Nat)) (t : State) : Prop where
  recorded : Recorded s t 0 i j
  odOnly : OdOnly s t (ks ++ windowKeys)
  od : ∀ i j, j < 256 → (i, j) ∉ windowKeys → (i, j) ≠ (0x2202, 0x0D) → t.blk.od' i j = b.od' i j
  endOf : EndOf s (b.recordWindow accOk (odKey i j)) t

namespace WordEnd
variable {s t : State} {b : Block} {i j : Nat} {ks : List (Nat × Nat)} (h : WordEnd s b i j ks t)
include h

theorem mem : t.mem = land s.mem b.posted := by rw [h.endOf.mem, Block.recordWindow_posted]
theorem rings : t.blk.rings = b.rings := h.endOf.rings.trans (b.recordWindow_rings ..)
theorem cqs : t.blk.cqs = b.cqs := h.endOf.cqs.trans (b.recordWindow_cqs ..)
theorem flows : t.blk.flows = b.flows := h.endOf.flows.trans (b.recordWindow_flows ..)
theorem dict : t.blk.dict = b.dict := h.endOf.dict.trans (b.recordWindow_dict ..)
theorem ring? (n : Nat) : t.blk.ring? n = b.ring? n := by unfold Block.ring?; rw [h.rings]
theorem cq? (n : Nat) : t.blk.cq? n = b.cq? n := by unfold Block.cq?; rw [h.cqs]
theorem staging? (n : Nat) : t.blk.staging? n = b.staging? n := by unfold Block.staging?; rw [h.dict]

end WordEnd

/-- A control word whose behaviour finds no fault and waits for no read ends in what it did, recorded. -/
theorem gives_of_word {c : Instr} {s : State} {b : Block} {i j v : Nat} {ks : List (Nat × Nat)} {P : State → Prop}
    (hopen : WindowOpen s) (hexec : exec c s = entryStep s i j v) (hword : TakesWord (s.blk.od' 0x1000 6) i j v)
    (hwork : Block.writeEntry s.mem s.blk (odKey i j) v = (accOk, b)) (hb : b.blocked = false) (hr : b.raised = [])
    (hh : b.heldBack = []) (hod : ∀ i j, j < 256 → (i, j) ∉ ks → b.od' i j = s.blk.od' i j)
    (hks : ∀ e ∈ ks, e ∉ windowKeys) (hP : ∀ t, WordEnd s b i j ks t → P t) : Gives c s P := by
  obtain ⟨powered, state, reach⟩ := hopen
  obtain ⟨hi, hi', hj, path, r, hrow, acc, range⟩ := hword
  have exec_eq : exec c s = finishRead s (b.recordWindow accOk (odKey i j)) := by
    rw [hexec, entryStep, Block.entryWrite_open s.mem s.blk i j v r powered hi hi' hj state reach hrow acc path range, hwork]
  refine gives_of_endOf_read exec_eq (by rwa [Block.recordWindow_blocked]) (by rwa [Block.recordWindow_raised])
    (by rwa [Block.recordWindow_heldBack]) fun t ht => hP t ⟨?_, ht.odOnly fun k l hl hk => ?_, fun k l hl hk hn => ?_, ht⟩
  · refine recorded_of_recordWindow (by decide) (by omega) hj (hod _ _ (by decide) fun hmem => hks _ hmem (by decide)) ?_
    rw [ht.od _ _ (by decide), show accOk = 0 from rfl]
  · rw [List.mem_append, not_or] at hk
    rw [Block.recordWindow_other _ _ _ _ _ hl hk.2, hod k l hl hk.1]
  · rw [ht.od k l (by rwa [Ne, odKey_inj hl (by decide), ← Prod.mk.injEq]), Block.recordWindow_other _ _ _ _ _ hl hk]

end Sys2Proof.Machine

/-! ### OPEN and ABORT of commit sets (R464, R465, R468, R548) -/

namespace Sys2Proof.Machine

/-- A commit control word: set, action and owner (R464). -/
def setWord (n act owner : Nat) : Nat := pack [(0, n), (8, act), (16, owner)]

section
variable {n act owner : Nat} (hn : n ≤ 10) (hact : act ≤ 3) (ho : owner < 2 ^ 16)
include hn hact ho

theorem setWord_lt : setWord n act owner < 2 ^ 32 := by
  simp only [setWord, pack_cons, pack_nil]; omega

theorem setWord_fields : bits (setWord n act owner) 7 0 = n ∧ bits (setWord n act owner) 11 8 = act ∧
    bits (setWord n act owner) 31 16 = owner ∧ bits (setWord n act owner) 15 12 = 0 := by
  simp only [setWord, pack_cons, pack_nil, bits_eq]; omega

end

namespace Block

theorem commitResult_od'_of_ne (b : Block) (code n member : Nat) {i j : Nat} (hj : j < 256) (h : (i, j) ≠ (0x1F00, 2)) :
    (b.commitResult code n member).od' i j = b.od' i j :=
  setOd_od'_of_ne _ _ hj (by decide) h (by decide) (by decide)

theorem commitResult_staging? (b : Block) (code n member k : Nat) :
    (b.commitResult code n member).staging? k = b.staging? k := by
  unfold commitResult staging?; rw [setOd_dict]

section
variable {n : Nat} (hn : n ≤ 10)
include hn

theorem showSet_od'_of_ne (b : Block) {i j : Nat} (hj : j < 256) (h : (i, j) ≠ (0x1F00, 0x20 + n)) :
    (b.showSet n).od' i j = b.od' i j :=
  setOd_od'_of_ne _ _ hj (by omega) h (by unfold odKey; omega) (by unfold odKey; omega)

theorem putStaging_od'_of_ne (b : Block) (x : Staging) (hx : x.set = n) {i j : Nat} (hj : j < 256)
    (h : (i, j) ≠ (0x1F00, 0x20 + n)) : (b.putStaging x).od' i j = b.od' i j := by
  subst hx
  exact (showSet_od'_of_ne hn _ hj h).trans (od'_congr _ _ rfl i j)

theorem dropStaging_od'_of_ne (b : Block) {i j : Nat} (hj : j < 256) (h : (i, j) ≠ (0x1F00, 0x20 + n)) :
    (b.dropStaging n).od' i j = b.od' i j :=
  (showSet_od'_of_ne hn _ hj h).trans (od'_congr _ _ rfl i j)

end

theorem showSet_staging? (b : Block) (n k : Nat) : (b.showSet n).staging? k = b.staging? k := by
  unfold showSet staging?; rw [setOd_dict]

theorem showSet_shown (b : Block) (n : Nat) : (b.showSet n).od' 0x1F00 (0x20 + n) = (match b.staging? n with
    | none => 0
    | some s => pack [(0, if s.committing then 2 else 1), (8, min 255 s.copy.length), (16, s.owner)]) := by
  unfold showSet
  rw [setOd_self] <;> rfl

/-- The sets' stagings with x in place of the one of its set. -/
def withStaging (b : Block) (x : Staging) : Block :=
  { b with dict := { b.dict with staging := b.dict.staging.filter (fun y => y.set != x.set) ++ [x] } }

/-- The sets' stagings without the one of set n. -/
def withoutStaging (b : Block) (n : Nat) : Block :=
  { b with dict := { b.dict with staging := b.dict.staging.filter (fun y => y.set != n) } }

theorem withStaging_staging? (b : Block) (x : Staging) : (b.withStaging x).staging? x.set = some x := by
  have gone : (b.dict.staging.filter (fun y => y.set != x.set)).find? (fun y => y.set == x.set) = none := by
    simp [List.find?_eq_none]
  show (b.dict.staging.filter (fun y => y.set != x.set) ++ [x]).find? (fun y => y.set == x.set) = some x
  rw [List.find?_append, gone]
  simp

theorem withoutStaging_staging? (b : Block) (n : Nat) : (b.withoutStaging n).staging? n = none := by
  show (b.dict.staging.filter (fun y => y.set != n)).find? (fun y => y.set == n) = none
  simp [List.find?_eq_none]

theorem putStaging_eq (b : Block) (x : Staging) : b.putStaging x = (b.withStaging x).showSet x.set := rfl

theorem dropStaging_eq (b : Block) (n : Nat) : b.dropStaging n = (b.withoutStaging n).showSet n := rfl

theorem putStaging_staging? (b : Block) (x : Staging) : (b.putStaging x).staging? x.set = some x := by
  rw [putStaging_eq, showSet_staging?, withStaging_staging?]

theorem dropStaging_staging? (b : Block) (n : Nat) : (b.dropStaging n).staging? n = none := by
  rw [dropStaging_eq, showSet_staging?, withoutStaging_staging?]

theorem putStaging_shown (b : Block) (x : Staging) : (b.putStaging x).od' 0x1F00 (0x20 + x.set) =
    pack [(0, if x.committing then 2 else 1), (8, min 255 x.copy.length), (16, x.owner)] := by
  rw [putStaging_eq, showSet_shown, withStaging_staging?]

theorem dropStaging_shown (b : Block) (n : Nat) : (b.dropStaging n).od' 0x1F00 (0x20 + n) = 0 := by
  rw [dropStaging_eq, showSet_shown, withoutStaging_staging?]

end Block
end Sys2Proof.Machine

namespace Sys2Proof.Machine

namespace Block

/-- The commit control word's own action (R464). -/
theorem writeEntry_setWord (m : Memory) (b : Block) (v : Nat) : writeEntry m b (odKey 0x1F00 1) v = commitControl m b v := by
  unfold writeEntry
  rw [if_pos (by decide)]

/-- A well-formed commit word takes the action that it names. -/
theorem commitControl_setWord (m : Memory) (b : Block) {n act owner : Nat} (h1 : 1 ≤ n) (hn : n ≤ 10) (hact1 : 1 ≤ act) (hact : act ≤ 3)
    (ho : owner < 2 ^ 16) (hown : owner ≠ 0xFFFF ∨ act = 3) :
    commitControl m b (setWord n act owner) =
    match act, b.staging? n with
    | 1, none => (accOk, (b.putStaging { set := n, owner := owner, copy := [], committing := false }).commitResult accOk n 0)
    | 2, some s =>
      if s.committing || s.owner != owner then b.refuseWord accBusy n
      else
        let r := commitFault m b s
        if r.2.blocked then (accOk, b.putStaging { s with committing := true })
        else match r.1 with
        | some member => (accOk, r.2.refuseCommit s member)
        | none => (accOk, r.2.putStaging { s with committing := true })
    | 3, some s =>
      if s.committing || (owner != s.owner && owner != 0xFFFF) then b.refuseWord accBusy n
      else (accOk, (b.dropStaging n).commitResult accOk n 0)
    | _, _ => b.refuseWord accBusy n := by
  obtain ⟨set, action, own, reserved⟩ := setWord_fields hn hact ho
  have named : setNamed n = true := by simp [setNamed, h1, hn]
  have noFault : (!setNamed n || act == 0 || decide (3 < act) || (owner == 0xFFFF && act != 3) || (0 : Nat) != 0) = false := by
    simp only [named]
    obtain h | h := hown <;> simp <;> omega
  unfold commitControl
  simp only [set, action, own, reserved, noFault, Bool.false_eq_true, if_false] <;> rfl

/-- What a commit word that is carried out writes: the set's state, and the result. -/
theorem commitResult_setState (b : Block) (n code member : Nat) {c : Block}
    (hc : ∀ i j, j < 256 → (i, j) ≠ (0x1F00, 0x20 + n) → c.od' i j = b.od' i j) (i j : Nat) (hj : j < 256)
    (h : (i, j) ∉ [(0x1F00, 0x20 + n), (0x1F00, 2)]) : (c.commitResult code n member).od' i j = b.od' i j := by
  simp only [List.mem_cons, List.not_mem_nil, or_false, not_or] at h
  rw [commitResult_od'_of_ne _ _ _ _ hj h.2, hc i j hj h.1]

theorem commitResult_state (b : Block) (code : Nat) {n : Nat} (hn : n ≤ 10) (hpos : 1 ≤ n) (member : Nat) :
    (b.commitResult code n member).od' 0x1F00 (0x20 + n) = b.od' 0x1F00 (0x20 + n) :=
  commitResult_od'_of_ne _ _ _ _ (by omega) (by simp; omega)

/-- OD 0x1F00.02 after a word that was carried out (R468). -/
theorem commitResult_accOk (b : Block) (n : Nat) : (b.commitResult accOk n 0).od' 0x1F00 2 = n * 2 ^ 16 := by
  unfold commitResult
  rw [setOd_self]
  simp only [pack_cons, pack_nil, show accOk = 0 from rfl]
  omega

end Block

/-- A commit word that leaves the set's stagings and its state changed, as c, and tells so. -/
theorem gives_of_setWord {i : Instr} {s : State} {c : Block} {n act owner : Nat} (hs : Settled s) (hopen : WindowOpen s)
    (hn : n ≤ 10) (hact : act ≤ 3) (ho : owner < 2 ^ 16)
    (hexec : exec i s = entryStep s 0x1F00 1 (setWord n act owner))
    (hwork : Block.commitControl s.mem s.blk (setWord n act owner) = (accOk, c.commitResult accOk n 0))
    (hc : ∃ od dict, c = { s.blk with od := od, dict := dict })
    (hod : ∀ i j, j < 256 → (i, j) ≠ (0x1F00, 0x20 + n) → c.od' i j = s.blk.od' i j) {P : State → Prop}
    (hP : ∀ t : State, t.blk.staging? n = c.staging? n → t.blk.od' 0x1F00 (0x20 + n) = c.od' 0x1F00 (0x20 + n) →
      t.blk.od' 0x1F00 2 = n * 2 ^ 16 → Recorded s t 0 0x1F00 1 →
      OdOnly s t ((0x1F00, 0x20 + n) :: (0x1F00, 2) :: windowKeys) → t.mem = s.mem → P t) (hpos : 1 ≤ n) :
    Gives i s P := by
  obtain ⟨noWrite, unblocked, ⟨noFault, noneHeld, -⟩, -⟩ := hs
  obtain ⟨od, dict, rfl⟩ := hc
  refine gives_of_word (ks := [(0x1F00, 0x20 + n), (0x1F00, 2)]) hopen hexec
    (takesWord_control _ (by decide) (setWord_lt hn hact ho)) ((Block.writeEntry_setWord ..).trans hwork)
    (by rw [Block.commitResult, Block.setOd_blocked]; exact unblocked)
    (by rw [Block.commitResult, Block.setOd_raised]; exact noFault)
    (by rw [Block.commitResult, Block.setOd_heldBack]; exact noneHeld) (Block.commitResult_setState s.blk n accOk 0 hod) (by simp [windowKeys]) fun t ht => hP t ?_ ?_ ?_ ht.recorded
      ht.odOnly ?_
  · rw [ht.staging?, Block.commitResult_staging?]
  · rw [ht.od _ _ (by omega) (by simp [windowKeys]) (by simp), Block.commitResult_state _ _ hn hpos]
  · rw [ht.od _ _ (by decide) (by decide) (by decide), Block.commitResult_accOk]
  · rw [ht.mem, Block.commitResult, Block.setOd_posted]
    show land s.mem s.blk.posted = _
    rw [noWrite]
    rfl

/-- Settles O18: both words change the set's staging and say so in its state entry. -/
theorem commitSetOpensAndAborts : Obligations.CommitSetOpensAndAborts := by
  intro s n owner hs hopen hpos hn ho
  refine ⟨fun idle notAll => ?_, fun x hx staging byOwner => ?_⟩
  · let x : Staging := { set := n, owner := owner, copy := [], committing := false }
    refine gives_of_setWord (c := s.blk.putStaging x) hs hopen hn (by decide : 1 ≤ 3) ho rfl ?_ ⟨_, _, rfl⟩
      (fun i j hj h => Block.putStaging_od'_of_ne hn _ x rfl hj h)
      (fun t set state result recorded only memory => ⟨?_, ?_, result, recorded, only, memory⟩) hpos
    · rw [Block.commitControl_setWord _ _ hpos hn (by decide) (by decide) ho (.inl notAll), idle]
      rfl
    · rw [set, Block.putStaging_staging? s.blk x]
    · rw [state, Block.putStaging_shown s.blk x]
      simp only [x, pack_cons, pack_nil, List.length_nil]
      simp
  · refine gives_of_setWord (c := s.blk.dropStaging n) hs hopen hn (by decide : 3 ≤ 3) ho rfl ?_ ⟨_, _, rfl⟩
      (fun i j hj h => Block.dropStaging_od'_of_ne hn _ hj h)
      (fun t set state result recorded only memory => ⟨?_, ?_, result, recorded, only, memory⟩) hpos
    · rw [Block.commitControl_setWord _ _ hpos hn (by decide) (by decide) ho (.inr rfl), hx]
      have accepted : (x.committing || (owner != x.owner && owner != 0xFFFF)) = false := by
        obtain rfl | rfl := byOwner <;> simp [staging]
      simp only [accepted, Bool.false_eq_true, if_false]
    · rw [set, Block.dropStaging_staging?]
    · rw [state, Block.dropStaging_shown]

end Sys2Proof.Machine

/-! ### Writes that change entries alone, and no port's state -/

namespace Sys2Proof.Machine

/-- A settled block whose entries and management port alone change, no port's state among them, stays quiet; the step
ends with those changes and nothing else. -/
theorem gives_of_entriesOnly {c : Instr} {s : State} {b : Block} {od : NatMap} {dict : Dict} {P : State → Prop}
    (hs : Settled s) (hexec : exec c s = finishRead s b) (hb : b = { s.blk with od := od, dict := dict })
    (hp : ∀ n, b.portState n = s.blk.portState n)
    (hP : ∀ t : State, (∀ i j, j < 256 → (i, j) ≠ (0x2202, 0x0D) → t.blk.od' i j = b.od' i j) → t.mem = s.mem →
      { t.blk with od := s.blk.od, dict := s.blk.dict } = s.blk → t.blk.dict = b.dict → P t) : Gives c s P := by
  obtain ⟨noWrite, unblocked, quiet, noneHeldAt, noneHeldRange, marks⟩ := hs
  have bquiet : b.Quiet := quiet.congr (by rw [hb]) (by rw [hb]) (by rw [hb]) hp
  refine gives_of_finishRead hexec (by rw [hb]; exact unblocked) bquiet (hP _ (fun i j hj hij => ?_) ?_ ?_ ?_)
  · exact quietEnd_od _ _ _ _ (by rwa [Ne, odKey_inj hj (by decide), ← Prod.mk.injEq])
  · subst hb
    show land s.mem s.blk.posted = s.mem
    rw [noWrite]
    rfl
  · subst hb
    show { s.blk with
      posted := [], blocked := false,
      agents := { s.blk.agents with began := s.blk.agents.moved, heldAt := none, heldRange := none } } = s.blk
    rw [← noWrite, ← unblocked, ← noneHeldAt, ← noneHeldRange, ← marks]
  · rfl

/-- Rows of an entry's index decide its row. -/
theorem odFind_of_index {i j : Nat} {r : OdRow} (hj : j < 256) (h : odRows.filter (fun r => r.index == i) = [r])
    (hr : r.first ≤ j ∧ j ≤ r.last) : odFind (odKey i j) = some r := by
  have index : odKey i j / 256 = i := by unfold odKey; omega
  have sub : odKey i j % 256 = j := by unfold odKey; omega
  have found := congrArg (List.find? fun r => decide (r.first ≤ j) && decide (j ≤ r.last)) h
  rw [List.find?_filter] at found
  unfold odFind
  rw [index, sub]
  simp only [Bool.and_assoc]
  simpa [hr, beq_eq_decide] using found

/-- A signal word's row (R387). -/
theorem odFind_signalWord {n : Nat} (hn : n < 4096) :
    odFind (odKey (0x2610 + n / 256) (n % 256)) = some ⟨0x2610 + n / 256, 0, 255, .u64, .rw, 0, 0, top64⟩ := by
  have rows : ∀ k < 16, odRows.filter (fun r => r.index == 0x2610 + k) = [⟨0x2610 + k, 0, 255, .u64, .rw, 0, 0, top64⟩] := by
    decide
  exact odFind_of_index (Nat.mod_lt _ (by decide)) (rows _ (by omega)) ⟨Nat.zero_le _, by show n % 256 ≤ 255; omega⟩

theorem isSignalKey_signalWord {n : Nat} (hn : n < 4096) : isSignalKey (odKey (0x2610 + n / 256) (n % 256)) = true := by
  have index : odKey (0x2610 + n / 256) (n % 256) / 256 = 0x2610 + n / 256 := by unfold odKey; omega
  rw [isSignalKey, index, Bool.and_eq_true, decide_eq_true_eq, decide_eq_true_eq]
  omega

namespace Block

/-- A write of a signal word with no WAIT on it sets the word. -/
theorem setSignal_of_noWaits (b : Block) {n : Nat} (v : Nat) (h : ∀ f ∈ b.flows, waitsFor f n = false) :
    b.setSignal n v = b.setOd (0x2610 + n / 256) (n % 256) (v % 2 ^ 64) := by
  have none_waits (q : Flow → Bool) : b.flows.filter (fun f => waitsFor f n && q f) = [] := by
    rw [List.filter_eq_nil_iff]
    intro f hf
    simp [h f hf]
  unfold setSignal
  simp only [setOd_flows, none_waits, List.foldl_nil]

/-- Entries whose write is an order of its own, none of them a signal word. -/
theorem writeEntry_signalWord (m : Memory) (b : Block) {n : Nat} (v : Nat) (hn : n < 4096) :
    writeEntry m b (odKey (0x2610 + n / 256) (n % 256)) v = (accOk, b.setSignal n v) := by
  have number : (odKey (0x2610 + n / 256) (n % 256) - odKey 0x2610 0) % 4096 = n := by unfold odKey; omega
  have apart {k : Nat} (hk : k < odKey 0x2610 0 ∨ odKey 0x2620 0 ≤ k) :
      (odKey (0x2610 + n / 256) (n % 256) == k) = false := by
    rw [beq_eq_false_iff_ne]
    unfold odKey at hk ⊢
    omega
  unfold writeEntry
  rw [apart (.inl (by decide)), apart (.inl (by decide)), apart (.inl (by decide)), apart (.inl (by decide)),
    apart (.inl (by decide)), apart (.inl (by decide)), apart (.inr (by decide)), apart (.inr (by decide)),
    apart (.inr (by decide)), apart (.inr (by decide)), apart (.inr (by decide)), isSignalKey_signalWord hn, number]
  rfl

/-- A write in range that its path may make reaches its entry (R453, R457, R460). -/
theorem odWrite_inRange (m : Memory) {b : Block} {mctp : Bool} {key v : Nat} {r : OdRow}
    (hs : b.engineState = 1 ∨ b.engineState = 2) (hr : odFind key = some r)
    (hpath : mctp = true ∨ ((b.od' 0x1100 3 ≠ 0 ∨ isSignalKey key = true) ∧ mctpOnly key = false))
    (hacc : r.acc = .rw ∨ r.acc = .wo ∨ (r.acc = .rwl ∧ b.engineState = 1))
    (hv : odInRange (b.od' 0x1000 6) key r v = true) : odWrite m b mctp key v = writeEntry m b key v := by
  have notShut : b.writesShut mctp key = false := by
    obtain h | h := hs <;> simp [writesShut, ready, h]
  have reached : (!mctp && ((b.od' 0x1100 3 == 0 && !isSignalKey key) || mctpOnly key)) = false := by
    obtain h | ⟨h | h, path⟩ := hpath
    · simp [h]
    · simp [h, path]
    · simp [h, path]
  unfold odWrite
  simp only [notShut, hr, reached, hv, Bool.false_eq_true, if_false, Bool.not_true]
  obtain acc | acc | ⟨acc, start⟩ := hacc
  · simp only [acc]
  · simp only [acc]
  · simp [acc, start]

end Block

/-- Settles O22: with no WAIT on the word begun, the SIGNAL sets the word alone. -/
theorem signalWordTakesAWrite : Obligations.SignalWordTakesAWrite := by
  intro s n v hs powered state hn hv none_waits
  have hj : n % 256 < 256 := Nat.mod_lt _ (by decide)
  have low : v % 2 ^ 64 = v := Nat.mod_eq_of_lt hv
  have range : odInRange (s.blk.od' 0x1000 6) (odKey (0x2610 + n / 256) (n % 256))
      ⟨0x2610 + n / 256, 0, 255, .u64, .rw, 0, 0, top64⟩ v = true := by
    have aligned : odAlignOk (odKey (0x2610 + n / 256) (n % 256)) v = true := by
      have first : (odKey (0x2610 + n / 256) (n % 256) == odKey 0x2300 8) = false := by
        rw [beq_eq_false_iff_ne]; unfold odKey; omega
      have second : (odKey (0x2610 + n / 256) (n % 256) == odKey 0x2800 6) = false := by
        rw [beq_eq_false_iff_ne]; unfold odKey; omega
      rw [odAlignOk, first, second]
      rfl
    have share : (odKey (0x2610 + n / 256) (n % 256) == odKey 0x2500 5) = false := by
      rw [beq_eq_false_iff_ne]; unfold odKey; omega
    have share' : (odKey (0x2610 + n / 256) (n % 256) == odKey 0x2500 6) = false := by
      rw [beq_eq_false_iff_ne]; unfold odKey; omega
    have typed : odTypeOk .u64 v = true := decide_eq_true hv
    have top : v ≤ top64 := Nat.le_sub_one_of_lt hv
    simp [odInRange, typed, top, aligned, share, share']
  have path : mctpOnly (odKey (0x2610 + n / 256) (n % 256)) = false := by
    simp only [mctpOnly, odKey, Bool.or_eq_false_iff, beq_eq_false_iff_ne]
    omega
  have exec_eq : exec (.signalWordWrite n v) s = finishRead s
      ((s.blk.setOd (0x2610 + n / 256) (n % 256) v).recordWindow accOk (odKey (0x2610 + n / 256) (n % 256))) := by
    show entryStep s (0x2610 + n % 4096 / 256) (n % 256) v = _
    rw [Nat.mod_eq_of_lt hn, entryStep, Block.entryWrite_slot _ _ _ _ _ powered (by omega) (by omega) hj,
      Block.odWrite_inRange s.mem state (odFind_signalWord hn) (.inr ⟨.inr (isSignalKey_signalWord hn), path⟩) (.inl rfl) range,
      Block.writeEntry_signalWord _ _ _ hn, Block.setSignal_of_noWaits _ _ none_waits, low]
  have noConfig : odKey (0x2610 + n / 256) (n % 256) ≠ odKey 0x1000 6 := by unfold odKey; omega
  have noNumber : odKey (0x2610 + n / 256) (n % 256) ≠ odKey 0x2700 1 := by unfold odKey; omega
  refine gives_of_entriesOnly (dict := s.blk.dict) hs exec_eq (by unfold Block.recordWindow Block.count Block.setOd; rfl)
    (fun k => by rw [Block.recordWindow_portState, Block.setOd_portState _ _ _ (by omega) hj noConfig])
    fun t od memory rest dict => ⟨?_, ?_, fun i j hj' h hold => ?_, memory, ?_⟩
  · show t.blk.od' (0x2610 + n / 256) (n % 256) = v
    rw [od _ _ hj (by simp; omega), Block.recordWindow_other _ _ _ _ _ hj (by simp [windowKeys]; omega), Block.setOd_self]
  · refine recorded_of_recordWindow (b := s.blk.setOd (0x2610 + n / 256) (n % 256) v) (by decide) (by omega) hj ?_
      (od _ _ (by decide) (by decide))
    exact Block.setOd_od'_of_ne _ _ (by decide) hj (by simp; omega) noConfig noNumber
  · simp only [List.mem_cons, not_or] at h
    rw [od i j hj' hold, Block.recordWindow_other _ _ _ _ _ hj' (by simpa [windowKeys] using h.2),
      Block.setOd_od'_of_ne _ _ hj' hj h.1 noConfig noNumber]
  · rw [Block.recordWindow_dict, Block.setOd_dict] at dict
    rw [← dict] at rest
    exact rest

end Sys2Proof.Machine

/-! ### Entries that any path may carry (R383, R425, R442, R479) -/

namespace Sys2Proof.Machine

/-- c is b with (i, j) at v, its other entries as they were. -/
def Block.Holds (b c : Block) (i j v : Nat) : Prop :=
  ∃ od, c = { b with od := od } ∧ c.od' i j = v ∧ ∀ i' j', odKey i' j' ≠ odKey i j → c.od' i' j' = b.od' i' j'

namespace Block

theorem holds_setOd (b : Block) {i j : Nat} (v : Nat) (h1 : odKey i j ≠ odKey 0x1000 6) (h2 : odKey i j ≠ odKey 0x2700 1) :
    b.Holds (b.setOd i j v) i j v :=
  ⟨_, rfl, setOd_self .., fun _ _ h => setOd_other _ _ _ _ _ _ h h1 h2⟩

theorem holds_self {b : Block} {i j v : Nat} (h : b.od' i j = v) : b.Holds b i j v := ⟨_, rfl, h, fun _ _ _ => rfl⟩

/-- The blocks that a write over a path starts from: the state's, its message counted where it came as one. -/
def PathStart (b : Block) (c : Block) : Prop := c = b ∨ c = b.count 0x2000 3 1

end Block

/-- A write over a path of an entry that takes its value and does nothing else: the entry, the record or the counts of
messages, and the answer. -/
theorem gives_of_pathWrite {c : Instr} {s : State} {p : Path} {i j v : Nat} (hs : Settled s) (hopen : WindowOpen s)
    (hi : 0x1000 ≤ i) (hi' : odKey i j ≤ odKey 0x2700 3) (hj : j < 256) (hv : v < 2 ^ 64)
    (hexec : exec c s = finishRead s (Block.pathWrite s.mem s.blk p i j v))
    (hwork : ∀ b mctp, s.blk.PathStart b → (mctp = false → p = .window) →
      ∃ d, Block.odWrite s.mem b mctp (odKey i j) v = (accOk, d) ∧ b.Holds d i j v)
    (hks : (i, j) ∉ (0x2202, 0x0D) :: (0x1100, 4) :: windowKeys) {P : State → Prop}
    (hP : ∀ t : State, t.blk.od' i j = v → OdOnly s t ((i, j) :: (0x1100, 4) :: windowKeys) → t.mem = s.mem →
      { t.blk with od := s.blk.od, dict := s.blk.dict } = s.blk → P t) : Gives c s P := by
  obtain ⟨powered, state, reach⟩ := hopen
  have hi16 : i < 0x2701 := by unfold odKey at hi'; omega
  have away {n : Nat} : odKey 0x2701 (n + 1) ≠ odKey i j := by unfold odKey at hi' ⊢; omega
  simp only [List.mem_cons, not_or] at hks
  obtain ⟨notOld, notAnswers, notRecord⟩ := hks
  have notCount : (i, j) ≠ (0x2000, 3) := fun h => notRecord (by simp [h, windowKeys])
  have key {i' j' : Nat} (hj' : j' < 256) (h : (i', j') ≠ (i, j)) : odKey i' j' ≠ odKey i j := by
    rwa [Ne, odKey_inj hj' hj, ← Prod.mk.injEq]
  cases p with
  | window =>
    obtain ⟨d, write, od, rfl, held, others⟩ := hwork s.blk false (.inl rfl) fun _ => rfl
    have exec_eq : exec c s = finishRead s (Block.recordWindow { s.blk with od := od } accOk (odKey i j)) := by
      rw [hexec, Block.pathWrite, Block.entryWrite_slot _ _ _ _ _ powered hi (by omega) hj, write]
    refine gives_of_entriesOnly (dict := s.blk.dict) hs exec_eq (by unfold Block.recordWindow Block.count Block.setOd; rfl)
      (fun n => by rw [Block.recordWindow_portState]; exact others _ _ away) fun t od' memory rest _ =>
        hP t ?_ (fun k l hl h hold => ?_) memory rest
    · rw [od' i j hj notOld, Block.recordWindow_other _ _ _ _ _ hj notRecord, held]
    · simp only [List.mem_cons, not_or] at h
      rw [od' k l hl hold, Block.recordWindow_other _ _ _ _ _ hl h.2.2, others _ _ (key hl h.1)]
  | mctp =>
    obtain ⟨d, write, od, rfl, held, others⟩ := hwork (s.blk.count 0x2000 3 1) true (.inr rfl) nofun
    have exec_eq : exec c s = finishRead s (Block.tursiocReply { s.blk.count 0x2000 3 1 with od := od }
        ⟨0, 0, s.blk.writeMessage i j v⟩ (writeHeader i j) accOk []) := by
      rw [hexec, Block.pathWrite, if_pos powered, Block.serveRequest_writeMessage (by omega) hj _ _ _ _ hv, write]
    have answered {i' j' : Nat} (h : odKey i' j' ≠ odKey 0x1100 4) :=
      Block.tursiocReply_od' { s.blk.count 0x2000 3 1 with od := od } ⟨0, 0, s.blk.writeMessage i j v⟩ (writeHeader i j)
        accOk [] h
    have counted {i' j' : Nat} (h : odKey i' j' ≠ odKey 0x2000 3) :
        (s.blk.count 0x2000 3 1).od' i' j' = s.blk.od' i' j' := Block.count_other _ _ _ _ _ _ h (by decide) (by decide)
    refine gives_of_entriesOnly hs exec_eq rfl (fun n => ?_) fun t od' memory rest _ =>
        hP t ?_ (fun k l hl h hold => ?_) memory rest
    · have port : odKey 0x2701 (n + 1) ≠ odKey 0x1100 4 ∧ odKey 0x2701 (n + 1) ≠ odKey 0x2000 3 := by
        unfold odKey; omega
      exact (answered port.1).trans ((others _ _ away).trans (counted port.2))
    · rw [od' i j hj notOld, answered (by rwa [Ne, odKey_inj hj (by decide), ← Prod.mk.injEq]), held]
    · simp only [List.mem_cons, not_or, windowKeys] at h
      obtain ⟨notIt, notAnswer, -, -, notCounted, -⟩ := h
      rw [od' k l hl hold, answered (by rwa [Ne, odKey_inj hl (by decide), ← Prod.mk.injEq]), others _ _ (key hl notIt),
        counted (by rwa [Ne, odKey_inj hl (by decide), ← Prod.mk.injEq])]
  | management =>
    obtain ⟨d, write, od, rfl, held, others⟩ := hwork s.blk true (.inl rfl) nofun
    have exec_eq : exec c s = finishRead s { s.blk with od := od } := by
      rw [hexec, Block.pathWrite, if_pos powered, write]
    refine gives_of_entriesOnly (dict := s.blk.dict) hs exec_eq rfl (fun n => others _ _ away) fun t od' memory rest _ =>
        hP t ?_ (fun k l hl h hold => ?_) memory rest
    · rw [od' i j hj notOld, held]
    · simp only [List.mem_cons, not_or] at h
      rw [od' k l hl hold, others _ _ (key hl h.1)]

namespace Block

theorem PathStart.od' {b c : Block} (h : b.PathStart c) {i j : Nat} (hij : odKey i j ≠ odKey 0x2000 3) :
    c.od' i j = b.od' i j := by
  obtain rfl | rfl := h
  · rfl
  · exact count_other _ _ _ _ _ _ hij (by decide) (by decide)

theorem PathStart.startUp {b c : Block} (h : b.PathStart c) : c.startUp = b.startUp := by
  obtain rfl | rfl := h <;> rfl

/-- A write in range of an entry that its path may write, from where the path starts. -/
theorem PathStart.odWrite (m : Memory) {b c : Block} (h : b.PathStart c) {mctp : Bool} {p : Path} {key v : Nat} {r : OdRow}
    (hs : b.engineState = 1 ∨ b.engineState = 2) (hw : b.od' 0x1100 3 ≠ 0) (hr : odFind key = some r)
    (hp : mctp = false → p = .window) (honly : mctpOnly key = true → p ≠ .window)
    (hacc : r.acc = .rw ∨ (r.acc = .rwl ∧ b.engineState = 1)) (hv : odInRange (b.od' 0x1000 6) key r v = true) :
    Block.odWrite m c mctp key v = writeEntry m c key v := by
  have state : c.engineState = b.engineState := h.od' (by decide)
  refine odWrite_inRange m (by rwa [state]) hr ?_ ?_ (by rwa [h.od' (by decide)])
  · cases mctp with
    | true => exact .inl rfl
    | false =>
      have window := hp rfl
      refine .inr ⟨.inl (by rwa [h.od' (by decide)]), ?_⟩
      rw [← Bool.not_eq_true]
      exact fun only => honly only window
  · rw [state]
    exact hacc.imp_right .inr

/-- The hold of start-up, set: nothing goes on (R479). -/
theorem tryReady_of_hold (m : Memory) {b : Block} (h : b.od' 0x2000 9 ≠ 0) : b.tryReady m = b := by
  unfold tryReady
  rw [if_neg (by simp [h])]

end Block

section
variable {v : Nat} (config : Nat)

theorem odInRange_overlapMode (w : Wing) (hv : v ≤ 1) :
    odInRange config (odKey (if w = .north then 0x2101 else 0x2181) 1)
      ⟨if w = .north then 0x2101 else 0x2181, 1, 1, .enum8, .rw, 0, 0, 1⟩ v = true := by
  cases w <;> obtain rfl | rfl : v = 0 ∨ v = 1 := by omega
  all_goals rfl

theorem odInRange_portEnable (hv : v < 2 ^ 32) :
    odInRange config (odKey 0x2700 2) ⟨0x2700, 2, 2, .u32, .rw, 0xFFFF_FFFF, 0, top64⟩ v = true := by
  have typed : odTypeOk .u32 v = true := decide_eq_true hv
  have top : v ≤ top64 := by unfold top64; omega
  simp [odInRange, typed, top, odAlignOk, odKey]

end

/-- Settles O25: whichever the path, the write reaches the entry's behaviour, which here is to hold the value. -/
theorem pathEntriesTakeWrites : Obligations.PathEntriesTakeWrites := by
  intro s p w v hs hopen
  have ⟨powered, state, reach⟩ := hopen
  refine ⟨fun hv => ?_, fun hv early => ?_, fun hv same => ?_, fun start notWindow => ?_, ?_⟩
  · refine gives_of_pathWrite (p := p) (i := if w = .north then 0x2101 else 0x2181) (j := 1) (v := v) hs hopen
      (by cases w <;> decide) (by cases w <;> decide) (by decide) (by omega) (by cases w <;> rfl)
      (fun b mctp hb hp => ⟨b.setOd (if w = .north then 0x2101 else 0x2181) 1 v, ?_, Block.holds_setOd b v
        (by cases w <;> decide) (by cases w <;> decide)⟩) (by cases w <;> decide)
      fun t held only memory rest => ⟨?_, only, memory, rest⟩
    · rw [hb.odWrite s.mem state reach (by cases w <;> decide) hp (absurd · (by cases w <;> decide)) (.inl rfl)
        (odInRange_overlapMode _ w hv)]
      cases w <;> rfl
    · subst held; cases w <;> rfl
  · refine gives_of_pathWrite (p := p) hs hopen (by decide) (by decide) (by decide) (by omega) rfl
      (fun b mctp hb hp => ⟨b.setOd 0x2700 2 v, ?_, Block.holds_setOd b v (by decide) (by decide)⟩) (by decide)
      fun t held only memory rest => ⟨held, only, memory, rest⟩
    rw [hb.odWrite s.mem state reach (by decide) hp (absurd · (by decide)) (.inl rfl) (odInRange_portEnable _ hv)]
    have notYet : ¬ 8 ≤ b.startUp.step := by rw [hb.startUp]; omega
    show (accOk, b.writePortEnable v) = _
    rw [Block.writePortEnable, if_neg notYet]
  · refine gives_of_pathWrite (p := p) hs hopen (by decide) (by decide) (by decide) (by omega) rfl
      (fun b mctp hb hp => ⟨b, ?_, Block.holds_self ((hb.od' (by decide)).trans same)⟩) (by decide)
      fun t held only memory rest => ⟨held, only, memory, rest⟩
    rw [hb.odWrite (r := ⟨0x2700, 3, 3, .bool, .rw, 1, 0, 1⟩) s.mem state reach (by decide) hp (absurd · (by decide)) (.inl rfl)
      (by obtain rfl | rfl : v = 0 ∨ v = 1 := by omega
          all_goals rfl)]
    show (accOk, b.writeForwarding v) = _
    rw [Block.writeForwarding, if_pos (by rw [hb.od' (by decide), same]; exact beq_self_eq_true v)]
  · refine gives_of_pathWrite (p := p) hs hopen (by decide) (by decide) (by decide) (by decide) rfl
      (fun b mctp hb hp => ⟨b.setOd 0x2000 9 1, ?_, Block.holds_setOd b 1 (by decide) (by decide)⟩) (by decide)
      fun t held only memory rest => ⟨held, only, memory, rest⟩
    rw [hb.odWrite (r := ⟨0x2000, 9, 9, .bool, .rwl, 0, 0, 1⟩) s.mem state reach (by decide) hp (fun _ => notWindow)
      (.inr ⟨rfl, start⟩) rfl]
    show (accOk, (b.setOd 0x2000 9 1).tryReady s.mem) = _
    rw [Block.tryReady_of_hold _ (by rw [Block.setOd_self]; decide)]
  · have refused : Block.odWrite s.mem s.blk false (odKey 0x2000 9) v = (accPath, s.blk) :=
      Block.odWrite_accPath (r := ⟨0x2000, 9, 9, .bool, .rwl, 0, 0, 1⟩) s.mem v (by decide) (.inr (by decide))
    have exec_eq : exec (.configurationHold .window v) s = finishRead s (s.blk.recordWindow accPath (odKey 0x2000 9)) := by
      show finishRead s (Block.pathWrite s.mem s.blk .window 0x2000 9 v) = _
      rw [Block.pathWrite, Block.entryWrite_slot _ _ _ _ _ powered (by decide) (by decide) (by decide), refused]
    refine gives_of_entriesOnly (dict := s.blk.dict) hs exec_eq (by unfold Block.recordWindow Block.count Block.setOd; rfl)
      (Block.recordWindow_portState _ _ _) fun t od memory rest dict => ⟨?_, fun i j hj h hold => ?_, memory, ?_⟩
    · exact recorded_of_recordWindow (b := s.blk) (by decide) (by decide) (by decide) rfl (od _ _ (by decide) (by decide))
    · rw [od i j hj hold, Block.recordWindow_other _ _ _ _ _ hj h]
    · rw [Block.recordWindow_dict] at dict
      rw [← dict] at rest
      exact rest

end Sys2Proof.Machine

/-! ### Words of the queue front end (R125 to R131, R495, R496)

A word that finds no other waiting, and whose descriptor can be read, is carried out in the step that gives it. -/

namespace Sys2Proof.Machine

namespace Block

/-- c is b after reads that met no error: free values drawn and channel time charged, and no more. -/
def ReadFrom (b c : Block) : Prop :=
  ∃ k moved, c = { b with freeCount := k, agents := { b.agents with moved := moved } }

theorem ReadFrom.refl (b : Block) : b.ReadFrom b := ⟨b.freeCount, b.agents.moved, rfl⟩

theorem ReadFrom.trans {b c d : Block} (h : b.ReadFrom c) (h' : c.ReadFrom d) : b.ReadFrom d := by
  obtain ⟨k, moved, rfl⟩ := h
  obtain ⟨k', moved', rfl⟩ := h'
  exact ⟨k', moved', rfl⟩

theorem charge_readFrom (b : Block) (a cost : Nat) : b.ReadFrom (b.charge a cost) := by
  unfold charge
  split
  · exact ⟨_, _, rfl⟩
  · exact .refl b

theorem reported_readFrom (b : Block) (a len : Nat) : b.ReadFrom (b.reported a len).2 := by
  unfold reported
  dsimp only
  split
  · exact .refl b
  · exact ⟨_, _, rfl⟩

/-- A read of a tier that neither waits nor is poisoned. -/
theorem tierRead_sound (m : Memory) {b : Block} {a len : Nat} (hsound : (tierRead m b a len).2.1 = false)
    (hgoes : (tierRead m b a len).2.2.blocked = false) : b.ReadFrom (tierRead m b a len).2.2 := by
  unfold tierRead at hsound hgoes ⊢
  split_ifs at hsound hgoes ⊢ with empty ahead gone room
  · exact .refl b
  · cases hgoes
  · cases hgoes
  · have none_bad : (b.reported a len).2.badUnits a len ++ (b.reported a len).1 = [] := by simpa using hsound
    simp only [none_bad, List.foldl_nil]
    exact (reported_readFrom b a len).trans (charge_readFrom _ _ _)

/-- A read by the front end that neither waits nor is poisoned (R488). -/
theorem readOwn_sound (m : Memory) {b : Block} {a len : Nat} (hsound : (readOwn m b a len).2.1 = false)
    (hgoes : (readOwn m b a len).2.2.blocked = false) : b.ReadFrom (readOwn m b a len).2.2 := by
  unfold readOwn at hsound hgoes ⊢
  by_cases host : isHost a
  · rw [if_pos host]; exact .refl b
  · rw [if_neg host] at hsound hgoes ⊢; exact tierRead_sound m hsound hgoes

theorem readDesc_sound (m : Memory) {b : Block} {base builtIn n size : Nat}
    (hsound : (readDesc m b base builtIn n size).2.1 = false)
    (hgoes : (readDesc m b base builtIn n size).2.2.blocked = false) :
    b.ReadFrom (readDesc m b base builtIn n size).2.2 := by
  unfold readDesc at hsound hgoes ⊢
  split_ifs at hsound hgoes ⊢ with builtin
  · exact .refl b
  · exact readOwn_sound m hsound hgoes

/-! ### Rings put in place -/

/-- The first of a list with a number, in one put in order, is the one put there; the others stay (R133). -/
theorem find?_put {α : Type} (num : α → Nat) (l : List α) (x : α) (k : Nat) :
    (l.filter (fun y => num y < num x) ++ x :: l.filter (fun y => num x < num y)).find? (fun y => num y == k) =
      if k = num x then some x else l.find? (fun y => num y == k) := by
  rw [List.find?_append, List.find?_cons]
  rcases Nat.lt_trichotomy k (num x) with less | same | more
  · have low := find?_filter_of_imp (fun y => num y == k) (fun y => num y < num x) l (by simp; omega)
    have high := find?_filter_of_not (fun y => num y == k) (fun y => num x < num y) l (by simp; omega)
    have notIt : (num x == k) = false := by rw [beq_eq_false_iff_ne]; omega
    rw [low, high, notIt, if_neg (by omega)]
    simp
  · have low := find?_filter_of_not (fun y => num y == k) (fun y => num y < num x) l (by simp; omega)
    rw [low, if_pos same]
    simp [same]
  · have low := find?_filter_of_not (fun y => num y == k) (fun y => num y < num x) l (by simp; omega)
    have high := find?_filter_of_imp (fun y => num y == k) (fun y => num x < num y) l (by simp; omega)
    have notIt : (num x == k) = false := by rw [beq_eq_false_iff_ne]; omega
    rw [low, high, notIt, if_neg (by omega)]
    simp

theorem putRing_ring? (b : Block) (r : SubRing) (k : Nat) :
    (b.putRing r).ring? k = if k = r.number then some r else b.ring? k := find?_put SubRing.number b.rings r k

theorem putCq_cq? (b : Block) (c : CompRing) (k : Nat) :
    (b.putCq c).cq? k = if k = c.number then some c else b.cq? k := find?_put CompRing.number b.cqs c k

/-- A list without the members of number n. -/
theorem find?_without {α : Type} (num : α → Nat) (l : List α) (n k : Nat) :
    (l.filter (fun y => num y != n)).find? (fun y => num y == k) = if k = n then none else l.find? (fun y => num y == k) := by
  split_ifs with same
  · exact find?_filter_of_not _ _ l (by simp [same])
  · exact find?_filter_of_imp _ _ l (by simp; omega)

end Block
end Sys2Proof.Machine

namespace Sys2Proof.Machine

namespace Block

/-- c is b but for the rings and the doorbell words of DISABLED ones. -/
def Rings (b c : Block) : Prop := ∃ rings cqs retired, c = { b with rings := rings, cqs := cqs, retired := retired }

/-- A word given while none waits, whose own read does not wait, is carried out at once (R126, R496). -/
theorem giveWord_served (m : Memory) {b : Block} {w : Bool × Nat} (hnone : b.words = []) (hb : b.blocked = false)
    (hp : b.posted = []) (hwait : b.wordWaits w = false)
    (hgoes : (if w.1 then b.reattach m w.2 else b.queueControl m w.2).blocked = false) :
    b.giveWord m w = if w.1 then b.reattach m w.2 else b.queueControl m w.2 := by
  have gone : ({ b with words := [] } : Block) = b := by rw [← hnone]
  have waits : ({ b with words := [w] } : Block).wordWaits w = false := hwait
  unfold giveWord serveWords
  rw [hnone, List.nil_append, if_neg (by simp [hb])]
  show serve 1 (land m b.posted) { b with words := [w] } = _
  rw [show land m b.posted = m by rw [hp]; rfl]
  unfold serve
  simp only [waits, gone, hgoes, Bool.false_eq_true, if_false]
  rfl

/-- The control words that order a ring (R125). -/
def ringWord (n act : Nat) : Nat := pack [(0, n), (20, act)]

/-- The action of a queue control word on ring n: its result and what it leaves (R125, R126). -/
def ringAction (m : Memory) (b : Block) (act n : Nat) : Nat × Block :=
  match act with
  | 1 => enableSq m b n
  | 2 => b.disableSq n
  | 3 => b.resumeSq n
  | 4 => b.abortSq n
  | 5 => enableCq m b (n % 2 ^ 16)
  | 6 => b.disableCq (n % 2 ^ 16)
  | _ => (5, b)

section
variable {n act : Nat} (hn : n < 2 ^ 18) (hact : act < 16)
include hn hact

theorem ringWord_lt : ringWord n act < 2 ^ 32 := by
  simp only [ringWord, pack_cons, pack_nil]; omega

theorem ringWord_fields : bits (ringWord n act) 17 0 = n ∧ bits (ringWord n act) 23 20 = act := by
  simp only [ringWord, pack_cons, pack_nil, bits_eq]; omega

/-- What a queue control word comes to, by its action (R125). -/
theorem queueControl_ringWord (m : Memory) {b c : Block} {code : Nat} (h : ringAction m b act n = (code, c)) :
    b.queueControl m (ringWord n act) = c.setOd 0x2201 2 code := by
  obtain ⟨number, action⟩ := ringWord_fields hn hact
  have low : bits (ringWord n act) 15 0 = n % 2 ^ 16 := by
    simp only [ringWord, pack_cons, pack_nil, bits_eq]; omega
  have same : b.queueControl m (ringWord n act) = (ringAction m b act n).2.setOd 0x2201 2 (ringAction m b act n).1 := by
    unfold queueControl ringAction
    rw [number, action, low] <;> rfl
  rw [same, h]

end

theorem writeEntry_ringWord (m : Memory) (b : Block) (v : Nat) :
    writeEntry m b (odKey 0x2201 1) v = (accOk, b.giveWord m (false, v)) := by
  unfold writeEntry
  rw [if_neg (by decide), if_neg (by decide), if_neg (by decide), if_pos (by decide)]

theorem writeEntry_attachWord (m : Memory) (b : Block) (v : Nat) :
    writeEntry m b (odKey 0x2202 8) v = (accOk, b.giveWord m (true, v)) := by
  unfold writeEntry
  rw [if_neg (by decide), if_neg (by decide), if_neg (by decide), if_neg (by decide), if_pos (by decide)]

end Block

/-- A word of the front end, carried out at once, that leaves the rings as c has them, with result 0. -/
theorem gives_of_frontWord {x : Instr} {s : State} {c d : Block} {w : Bool × Nat} {i j k : Nat} (hs : Settled s)
    (hopen : WindowOpen s) (hnone : s.blk.words = [])
    (hentry : (w.1 = false ∧ i = 0x2201 ∧ j = 1 ∧ k = 2) ∨ (w.1 = true ∧ i = 0x2202 ∧ j = 8 ∧ k = 9)) (hlt : w.2 < 2 ^ 32)
    (hexec : exec x s = entryStep s i j w.2) (hwait : s.blk.wordWaits w = false)
    (hwork : (if w.1 then s.blk.reattach s.mem w.2 else s.blk.queueControl s.mem w.2) = c.setOd i k 0)
    (hread : s.blk.ReadFrom d) (hc : d.Rings c) {P : State → Prop}
    (hP : ∀ t : State, t.blk.rings = c.rings → t.blk.cqs = c.cqs → t.blk.flows = s.blk.flows → t.blk.od' i k = 0 →
      Recorded s t 0 i j → OdOnly s t ((i, k) :: windowKeys) → t.mem = s.mem → P t) : Gives x s P := by
  obtain ⟨noWrite, unblocked, ⟨noFault, noneHeld, -⟩, -⟩ := hs
  obtain ⟨draws, moved, rfl⟩ := hread
  obtain ⟨rings, cqs, retired, rfl⟩ := hc
  have served := Block.giveWord_served s.mem hnone unblocked noWrite hwait
    (by rw [hwork, Block.setOd_blocked]; exact unblocked)
  rw [hwork] at served
  have write : Block.writeEntry s.mem s.blk (odKey i j) w.2 = (accOk, s.blk.giveWord s.mem w) := by
    obtain ⟨isSq, rfl, rfl, -⟩ | ⟨isRe, rfl, rfl, -⟩ := hentry
    · rw [Block.writeEntry_ringWord, ← isSq]
    · rw [Block.writeEntry_attachWord, ← isRe]
  have entry : (i, j) ∈ [(0x1F00, 1), (0x2201, 1), (0x2202, 8)] ∧ k < 256 ∧ odKey i k ≠ odKey 0x1000 6 ∧
      odKey i k ≠ odKey 0x2700 1 ∧ (i, k) ∉ windowKeys ∧ (i, k) ≠ (0x2202, 0x0D) := by
    obtain ⟨-, rfl, rfl, rfl⟩ | ⟨-, rfl, rfl, rfl⟩ := hentry <;> decide
  obtain ⟨control, hk, noConfig, noNumber, notRecord, notOld⟩ := entry
  refine gives_of_word (ks := [(i, k)]) hopen hexec (takesWord_control _ control hlt) (write.trans (congrArg _ served))
    (by rw [Block.setOd_blocked]; exact unblocked) (by rw [Block.setOd_raised]; exact noFault)
    (by rw [Block.setOd_heldBack]; exact noneHeld) (fun i' j' hj' h => ?_)
    (by simpa using notRecord) fun t ht => hP t ?_ ?_ ?_ ?_ ht.recorded ht.odOnly ?_
  · exact Block.setOd_od'_of_ne _ _ hj' hk (by simpa using h) noConfig noNumber
  · rw [ht.rings, Block.setOd_rings]
  · rw [ht.cqs, Block.setOd_cqs]
  · rw [ht.flows, Block.setOd_flows]
  · rw [ht.od _ _ hk notRecord notOld, Block.setOd_self]
  · rw [ht.mem, Block.setOd_posted]
    show land s.mem s.blk.posted = _
    rw [noWrite]
    rfl

/-- A queue control word that is carried out with result 0. -/
theorem gives_of_ringWord {i : Instr} {s : State} {c d : Block} {n act : Nat} (hs : Settled s) (hopen : WindowOpen s)
    (hnone : s.blk.words = []) (hn : n < 2 ^ 18) (hact : act < 16)
    (hexec : exec i s = entryStep s 0x2201 1 (Block.ringWord n act))
    (hwait : s.blk.wordWaits (false, Block.ringWord n act) = false)
    (hdone : Block.ringAction s.mem s.blk act n = (0, c)) (hread : s.blk.ReadFrom d) (hc : d.Rings c) {P : State → Prop}
    (hP : ∀ t : State, t.blk.rings = c.rings → t.blk.cqs = c.cqs → t.blk.flows = s.blk.flows → t.blk.od' 0x2201 2 = 0 →
      Recorded s t 0 0x2201 1 → OdOnly s t ((0x2201, 2) :: windowKeys) → t.mem = s.mem → P t) : Gives i s P :=
  gives_of_frontWord (w := (false, Block.ringWord n act)) hs hopen hnone (.inl ⟨rfl, rfl, rfl, rfl⟩)
    (Block.ringWord_lt hn hact) hexec hwait
    (by simp only [Bool.false_eq_true, if_false, Block.queueControl_ringWord hn hact s.mem hdone]) hread hc hP

end Sys2Proof.Machine

/-! ### Rings enabled (R125 to R128) -/

namespace Sys2Proof.Machine

namespace Block

/-- SQ_ENABLE of a DISABLED ring with a valid descriptor (R128). -/
theorem enableSq_valid (m : Memory) {b : Block} {n : Nat} (hn : n < b.sqCount) (hoff : b.ring? n = none)
    (hsound : (readSq m b n).2.1 = false) (hok : b.sqDescOk (readSq m b n).1 = true)
    (hcq : (b.cq? (bits (readSq m b n).1 63 48)).isSome = true) (hbound : b.sqBinding (readSq m b n).1 ≠ some 0) :
    enableSq m b n = (0, ({ (readSq m b n).2.2 with retired := mapSet (readSq m b n).2.2.retired 0 n 0 } : Block).putRing
      { number := n, state := .active, desc := (readSq m b n).1, head := 0, tail := 0, phase := true,
        epoch := b.sqBinding (readSq m b n).1, tries := 0, readAt := 0, bells := [] }) := by
  unfold enableSq
  have cq : (b.cq? (bits (readSq m b n).1 63 48)).isNone = false := by simpa using hcq
  simp [Nat.not_le.2 hn, hoff, hsound, hok, cq, hbound]

/-- CQ_ENABLE of a DISABLED ring with a valid descriptor (R127). -/
theorem enableCq_valid (m : Memory) {b : Block} {n : Nat} (hn : n < b.cqCount) (hoff : b.cq? n = none)
    (hsound : (readCq m b n).2.1 = false) (hok : cqDescOk (readCq m b n).1 = true)
    (hbound : b.cqBinding (readCq m b n).1 ≠ some 0) :
    enableCq m b n = (0, (readCq m b n).2.2.putCq
      (newCq n (readCq m b n).1 (b.swHeadIn (readCq m b n).1) (b.cqBinding (readCq m b n).1))) := by
  unfold enableCq
  simp [Nat.not_le.2 hn, hoff, hsound, hok, hbound]

end Block

/-- Settles O26: the descriptor is read without error, and the ring starts from it. -/
theorem ringsEnabled : Obligations.RingsEnabled := by
  intro s n hs hopen hnone
  refine ⟨?_, ?_⟩
  · intro r exists_ hn off free sound goes ok cq bound
    have word := Block.enableSq_valid s.mem exists_ off sound ok cq bound
    have read : s.blk.ReadFrom r.2.2 := Block.readDesc_sound s.mem sound goes
    refine gives_of_ringWord (act := 1) hs hopen hnone hn (by decide) rfl free
      word read
      ⟨_, _, _, rfl⟩ fun t rings cqs _ result recorded only memory => ⟨?_, fun k hk => ?_, ?_, result, recorded, only, memory⟩
    · unfold Block.ring?
      rw [rings]
      exact (Block.putRing_ring? _ _ _).trans (if_pos rfl)
    · obtain ⟨_, _, same⟩ := read
      unfold Block.ring?
      rw [rings]
      refine (Block.putRing_ring? _ _ _).trans ((if_neg hk).trans ?_)
      show Block.ring? r.2.2 k = _
      rw [same]
      rfl
    · obtain ⟨_, _, same⟩ := read
      rw [cqs]
      show r.2.2.cqs = _
      rw [same]
  · intro r exists_ hn off free sound goes ok bound
    have word := Block.enableCq_valid s.mem exists_ off sound ok bound
    have action : Block.ringAction s.mem s.blk 5 n = Block.enableCq s.mem s.blk n :=
      congrArg (Block.enableCq s.mem s.blk) (Nat.mod_eq_of_lt hn)
    have read : s.blk.ReadFrom r.2.2 := Block.readDesc_sound s.mem sound goes
    refine gives_of_ringWord (act := 5) hs hopen hnone (by omega) (by decide) rfl free
      (action.trans word) read
      ⟨_, _, _, rfl⟩ fun t rings cqs _ result recorded only memory => ⟨?_, fun k hk => ?_, ?_, result, recorded, only, memory⟩
    · unfold Block.cq?
      rw [cqs]
      exact (Block.putCq_cq? _ _ _).trans (if_pos rfl)
    · obtain ⟨_, _, same⟩ := read
      unfold Block.cq?
      rw [cqs]
      refine (Block.putCq_cq? _ _ _).trans ((if_neg hk).trans ?_)
      show Block.cq? r.2.2 k = _
      rw [same]
      rfl
    · obtain ⟨_, _, same⟩ := read
      rw [rings]
      show r.2.2.rings = _
      rw [same]

end Sys2Proof.Machine

/-! ### Rings disabled and resumed (R127, R129, R130) -/

namespace Sys2Proof.Machine

namespace Block

/-- The ring drained at once: nothing of it is left in flight, and no record of it waits (R129). -/
def nothingLeft (b : Block) (n : Nat) : Bool := (b.inFlight n).isEmpty && b.waiting.all (fun w => w.sq != n)

theorem dropRing_ring? {b : Block} {n : Nat} {r : SubRing} (h : b.ring? n = some r) (k : Nat) :
    (b.dropRing n).ring? k = if k = n then none else b.ring? k := by
  have dropped : (b.dropRing n).rings = b.rings.filter (fun q => q.number != n) := by unfold dropRing; rw [h]
  unfold ring?
  rw [dropped]
  exact find?_without SubRing.number b.rings n k

theorem dropRing_rings (b : Block) (n : Nat) : b.Rings (b.dropRing n) := by
  unfold dropRing
  split
  · exact ⟨_, _, _, rfl⟩
  · exact ⟨_, _, _, rfl⟩

theorem Rings.trans {b c d : Block} (h : b.Rings c) (h' : c.Rings d) : b.Rings d := by
  obtain ⟨_, _, _, rfl⟩ := h
  obtain ⟨_, _, _, rfl⟩ := h'
  exact ⟨_, _, _, rfl⟩

theorem putRing_rings (b : Block) (r : SubRing) : b.Rings (b.putRing r) := ⟨_, _, _, rfl⟩

section
variable {b : Block} {r : SubRing} (hr : r.state = .draining)
include hr

/-- A ring put to drain, and settled (R129). -/
theorem settleRing_putRing : (b.putRing r).settleRing r.number =
    if b.nothingLeft r.number then (b.putRing r).dropRing r.number else b.putRing r := by
  have here : (b.putRing r).ring? r.number = some r := by rw [putRing_ring?, if_pos rfl]
  unfold settleRing
  simp only [here, hr, beq_self_eq_true, Bool.true_and]
  rfl

theorem drained_ring? (k : Nat) : ((b.putRing r).settleRing r.number).ring? k =
    if k = r.number then (if b.nothingLeft r.number then none else some r) else b.ring? k := by
  have here : (b.putRing r).ring? r.number = some r := by rw [putRing_ring?, if_pos rfl]
  rw [settleRing_putRing hr]
  split_ifs with left same same
  · rw [dropRing_ring? here, if_pos same]
  · rw [dropRing_ring? here, if_neg same, putRing_ring?, if_neg same]
  · rw [putRing_ring?, if_pos same]
  · rw [putRing_ring?, if_neg same]

theorem drained_rings : b.Rings ((b.putRing r).settleRing r.number) := by
  rw [settleRing_putRing hr]
  split_ifs
  · exact (putRing_rings b r).trans (dropRing_rings _ _)
  · exact putRing_rings b r

theorem drained_cqs : ((b.putRing r).settleRing r.number).cqs = b.cqs := by
  rw [settleRing_putRing hr]
  split_ifs
  · unfold dropRing
    split <;> rfl
  · rfl

end

/-- A ring that SQ_DISABLE or SQ_ABORT takes starts to drain. -/
theorem drainSq_running {b : Block} {n : Nat} {r : SubRing} (hn : n < b.sqCount) (hr : b.ring? n = some r)
    (hstate : r.state = .active ∨ r.state = .paused) :
    b.drainSq n = (0, b.putRing { r with state := .draining, tries := 0 }) := by
  unfold drainSq
  rw [if_neg (by omega), hr]
  obtain h | h := hstate <;> simp [h]

theorem disableSq_running {b : Block} {n : Nat} {r : SubRing} (hn : n < b.sqCount) (hr : b.ring? n = some r)
    (hstate : r.state = .active ∨ r.state = .paused) :
    b.disableSq n = (0, (b.putRing { r with state := .draining, tries := 0 }).settleRing n) := by
  rw [disableSq, drainSq_running hn hr hstate]

/-- With every dispatched command begun, SQ_ABORT is SQ_DISABLE (R130). -/
theorem abortSq_running {b : Block} {n : Nat} {r : SubRing} (hn : n < b.sqCount) (hr : b.ring? n = some r)
    (hstate : r.state = .active ∨ r.state = .paused) (hbegun : ∀ f ∈ b.inFlight n, f.stage ≠ .waiting) :
    b.abortSq n = (0, (b.putRing { r with state := .draining, tries := 0 }).settleRing n) := by
  have noneWaiting : (b.inFlight n).filter (fun f => f.stage == .waiting) = [] := by
    rw [List.filter_eq_nil_iff]
    intro f hf
    simpa using hbegun f hf
  have kept : (b.putRing { r with state := .draining, tries := 0 }).abortFlows n =
      b.putRing { r with state := .draining, tries := 0 } := by
    unfold abortFlows
    rw [show (b.putRing { r with state := .draining, tries := 0 }).inFlight n = b.inFlight n from rfl, noneWaiting]
    rfl
  rw [abortSq, drainSq_running hn hr hstate]
  simp only [kept, beq_self_eq_true, if_true]

theorem resumeSq_paused {b : Block} {n : Nat} {r : SubRing} (hn : n < b.sqCount) (hr : b.ring? n = some r)
    (hstate : r.state = .paused) : b.resumeSq n = (0, b.putRing { r with state := .active, tries := 0 }) := by
  unfold resumeSq
  rw [if_neg (by omega), hr]
  simp [hstate]

theorem disableCq_free {b : Block} {n : Nat} {c : CompRing} (hn : n < b.cqCount) (hc : b.cq? n = some c)
    (hfree : ∀ r ∈ b.rings, r.cqNo ≠ n) :
    b.disableCq n = (0, { b with cqs := b.cqs.filter (fun c => c.number != n) }) := by
  have unnamed : b.rings.any (fun r => r.cqNo == n) = false := by simpa using hfree
  unfold disableCq
  rw [if_neg (by omega), if_neg (by simp [hc, unnamed])]

/-- A word that reads no descriptor never waits (R488). -/
theorem wordWaits_of_noRead {b : Block} {w : Bool × Nat} (h : wordReads w = none) : b.wordWaits w = false := by
  simp [wordWaits, h]

theorem wordReads_ringWord {n act : Nat} (hn : n < 2 ^ 18) (hact : act < 16) (h1 : act ≠ 1) (h5 : act ≠ 5) :
    wordReads (false, ringWord n act) = none := by
  unfold wordReads
  simp only [Bool.false_eq_true, if_false, (ringWord_fields hn hact).2]

end Block

/-- Settles O27: none of the four words reads a descriptor, and each leaves the other rings alone. -/
theorem ringsDisabledAndResumed : Obligations.RingsDisabledAndResumed := by
  intro s n hs hopen hnone hn only
  have done {i : Instr} {act : Nat} {c : Block} (hact : act < 16) (h1 : act ≠ 1) (h5 : act ≠ 5)
      (hexec : exec i s = entryStep s 0x2201 1 (Block.ringWord n act)) (hdone : Block.ringAction s.mem s.blk act n = (0, c))
      (hc : s.blk.Rings c) (hothers : ∀ k, k ≠ n → c.ring? k = s.blk.ring? k) :
      Gives i s (fun t => t.blk.rings = c.rings ∧ t.blk.cqs = c.cqs ∧ only t) :=
    gives_of_ringWord hs hopen hnone hn hact hexec (Block.wordWaits_of_noRead (Block.wordReads_ringWord hn hact h1 h5)) hdone
      (.refl _) hc fun t rings cqs flows result recorded only memory =>
        ⟨rings, cqs, result, recorded, only, memory, flows, fun k hk => by unfold Block.ring?; rw [rings]; exact hothers k hk⟩
  refine ⟨fun r exists_ hr number => ⟨fun state => ?_, fun paused => ?_⟩, fun c small exists_ hc unnamed => ?_⟩
  · subst number
    have drained (i : Instr) {act : Nat} (hact : act < 16) (h1 : act ≠ 1) (h5 : act ≠ 5)
        (hexec : exec i s = entryStep s 0x2201 1 (Block.ringWord r.number act)) (hdone : Block.ringAction s.mem s.blk act r.number =
          (0, (s.blk.putRing { r with state := .draining, tries := 0 }).settleRing r.number)) :
        Gives i s (fun t => t.blk.ring? r.number = (if s.blk.nothingLeft r.number then none
          else some { r with state := .draining, tries := 0 }) ∧ t.blk.cqs = s.blk.cqs ∧ only t) := by
      have ring := Block.drained_ring? (b := s.blk) (r := { r with state := .draining, tries := 0 }) rfl
      obtain ⟨t, ht, rest, rings, cqs, only⟩ := done hact h1 h5 hexec hdone
        (Block.drained_rings (r := { r with state := .draining, tries := 0 }) rfl)
        fun k hk => (ring k).trans (if_neg hk)
      refine ⟨t, ht, rest, ?_, cqs.trans (Block.drained_cqs (r := { r with state := .draining, tries := 0 }) rfl), only⟩
      unfold Block.ring?
      rw [rings]
      exact (ring r.number).trans (if_pos rfl)
    exact ⟨drained (.sqDisable r.number) (by decide) (by decide) (by decide) rfl (Block.disableSq_running exists_ hr state),
      fun begun => drained (.sqAbort r.number) (by decide) (by decide) (by decide) rfl
        (Block.abortSq_running exists_ hr state begun)⟩
  · subst number
    have ring := Block.putRing_ring? s.blk { r with state := .active, tries := 0 }
    obtain ⟨t, ht, rest, rings, cqs, only⟩ := done (i := .sqResume r.number) (act := 3) (by decide) (by decide) (by decide) rfl
      (Block.resumeSq_paused exists_ hr paused) (Block.putRing_rings _ _) fun k hk => (ring k).trans (if_neg hk)
    refine ⟨t, ht, rest, ?_, cqs, only⟩
    unfold Block.ring?
    rw [rings]
    exact (ring r.number).trans (if_pos rfl)
  · have action : Block.ringAction s.mem s.blk 6 n = s.blk.disableCq n :=
      congrArg s.blk.disableCq (Nat.mod_eq_of_lt small)
    obtain ⟨t, ht, rest, rings, cqs, only⟩ := done (i := .cqDisable n) (act := 6) (by decide) (by decide) (by decide) rfl
      (action.trans (Block.disableCq_free exists_ hc unnamed)) ⟨_, _, _, rfl⟩ fun _ _ => rfl
    have cq (k : Nat) := Block.find?_without CompRing.number s.blk.cqs n k
    refine ⟨t, ht, rest, ?_, fun k hk => ?_, rings, only⟩
    · unfold Block.cq?
      rw [cqs]
      exact (cq n).trans (if_pos rfl)
    · unfold Block.cq?
      rw [cqs]
      exact (cq k).trans (if_neg hk)

end Sys2Proof.Machine

/-! ### Rings re-attached (R495, R496) -/

namespace Sys2Proof.Machine

/-- A re-attach word for ring n: of the completion rings or not, with its mode (R495). -/
def AttachWord (w n : Nat) (cq : Bool) (mode : Nat) : Prop :=
  w < 2 ^ 32 ∧ bits w 17 0 = n ∧ bits w 15 0 = n % 2 ^ 16 ∧ bit w 18 = cq ∧ bits w 20 19 = mode

theorem attachWord_sq {n mode : Nat} (hn : n < 2 ^ 18) (hm : mode < 4) :
    AttachWord (pack [(0, n), (19, mode)]) n false mode := by
  simp only [AttachWord, pack_cons, pack_nil, bits_eq, bit_eq, decide_eq_false_iff_not]
  omega

theorem attachWord_cq {n mode : Nat} (hn : n < 2 ^ 16) (hm : mode < 4) :
    AttachWord (pack [(0, n), (18, 1), (19, mode)]) n true mode := by
  simp only [AttachWord, pack_cons, pack_nil, bits_eq, bit_eq, decide_eq_true_eq]
  omega

theorem pack_zero_field (l : List (Nat × Nat)) (k : Nat) : pack (l ++ [(k, 0)]) = pack l := by
  induction l with
  | nil => simp [pack_cons, pack_nil]
  | cons e l ih => rw [List.cons_append, pack_cons, pack_cons, ih]

namespace Block

/-- What a re-attach word does to ring n: its result and what it leaves (R495, R496). -/
def attachAction (m : Memory) (b : Block) (cq : Bool) (mode n : Nat) : Nat × Block :=
  if cq then reattachCq m b (n % 2 ^ 16) (mode == 1)
  else if mode == 2 then b.dropOrphan n
  else reattachSq m b n (mode == 1)

theorem reattach_attachWord (m : Memory) {b c : Block} {w n mode code : Nat} {cq : Bool} (hw : AttachWord w n cq mode)
    (hmode : mode < 3) (hcq : cq = true → mode < 2) (h : attachAction m b cq mode n = (code, c)) :
    b.reattach m w = c.setOd 0x2202 9 code := by
  obtain ⟨-, number, low, isCq, isMode⟩ := hw
  have same : b.reattach m w = (attachAction m b cq mode n).2.setOd 0x2202 9 (attachAction m b cq mode n).1 := by
    unfold reattach attachAction
    rw [number, low, isCq, isMode]
    cases cq with
    | true => simp [hcq rfl]
    | false => simp [Nat.ne_of_lt hmode]
  rw [same, h]

end Block

/-- A re-attach word that is carried out with result 0. -/
theorem gives_of_attachWord {x : Instr} {s : State} {c d : Block} {w n mode : Nat} {cq : Bool} (hs : Settled s)
    (hopen : WindowOpen s) (hnone : s.blk.words = []) (hw : AttachWord w n cq mode) (hmode : mode < 3)
    (hcq : cq = true → mode < 2) (hexec : exec x s = entryStep s 0x2202 8 w) (hwait : s.blk.wordWaits (true, w) = false)
    (hdone : Block.attachAction s.mem s.blk cq mode n = (0, c)) (hread : s.blk.ReadFrom d) (hc : d.Rings c)
    {P : State → Prop}
    (hP : ∀ t : State, t.blk.rings = c.rings → t.blk.cqs = c.cqs → t.blk.od' 0x2202 9 = 0 → Recorded s t 0 0x2202 8 →
      OdOnly s t ((0x2202, 9) :: windowKeys) → t.mem = s.mem → t.blk.flows = s.blk.flows → P t) : Gives x s P :=
  gives_of_frontWord (w := (true, w)) hs hopen hnone (.inr ⟨rfl, rfl, rfl, rfl⟩) hw.1 hexec hwait
    (by simp only [if_true, Block.reattach_attachWord s.mem hw hmode hcq hdone]) hread hc
    fun t rings cqs flows result recorded only memory => hP t rings cqs result recorded only memory flows

namespace Block

/-- A stale completion ring with a valid descriptor takes it (R496). -/
theorem reattachCq_valid (m : Memory) {b : Block} {n : Nat} {c : CompRing} (reset : Bool) (hn : n < b.cqCount)
    (hc : b.cq? n = some c) (hstale : c.stale = true) (hsound : (readCq m b n).2.1 = false)
    (hok : cqDescOk (readCq m b n).1 = true) (hbound : b.cqBinding (readCq m b n).1 ≠ some 0) :
    reattachCq m b n reset = (0, (readCq m b n).2.2.putCq
      (if reset then newCq n (readCq m b n).1 (b.swHeadIn (readCq m b n).1) (b.cqBinding (readCq m b n).1)
        else { newCq n (readCq m b n).1 (b.swHeadIn (readCq m b n).1) (b.cqBinding (readCq m b n).1) with
          wr := c.wr, phase := c.phase })) := by
  unfold reattachCq
  simp [Nat.not_le.2 hn, hc, hstale, hsound, hok, hbound]

/-- An ORPHANED submission ring with a valid descriptor, its completion ring not stale, becomes ACTIVE (R496). -/
theorem reattachSq_valid (m : Memory) {b : Block} {n : Nat} {r : SubRing} {c : CompRing} (reset : Bool) (hn : n < b.sqCount)
    (hr : b.ring? n = some r) (horphan : r.state = .orphaned) (hsound : (readSq m b n).2.1 = false)
    (hok : b.sqDescOk (readSq m b n).1 = true) (hbound : b.sqBinding (readSq m b n).1 ≠ some 0)
    (hold : ∀ d, b.cq? r.cqNo = some d → d.stale = false) (hnew : b.cq? (bits (readSq m b n).1 63 48) = some c)
    (hfresh : c.stale = false)
    (hsame : reset = true ∨ (bits (readSq m b n).1 115 64 = r.base ∧ bits (readSq m b n).1 12 8 = bits r.desc 12 8)) :
    reattachSq m b n reset = (0, (readSq m b n).2.2.putRing
      (if reset then { r with state := .active, desc := (readSq m b n).1, epoch := b.sqBinding (readSq m b n).1, tries := 0,
                              head := 0, tail := 0, phase := true, bells := [] }
        else { r with state := .active, desc := (readSq m b n).1, epoch := b.sqBinding (readSq m b n).1, tries := 0 })) := by
  have notStale : ((b.cq? r.cqNo).map (·.stale)).getD false = false := by
    cases hd : b.cq? r.cqNo with
    | none => rfl
    | some d => simpa using hold d hd
  unfold reattachSq
  obtain rfl | ⟨base, size⟩ := hsame
  · simp [Nat.not_le.2 hn, hr, horphan, notStale, hsound, hok, hbound, hnew, hfresh]
  · simp [Nat.not_le.2 hn, hr, horphan, notStale, hsound, hok, hbound, hnew, hfresh, base, size]

theorem dropOrphan_orphaned {b : Block} {n : Nat} {r : SubRing} (hn : n < b.sqCount) (hr : b.ring? n = some r)
    (horphan : r.state = .orphaned) :
    b.dropOrphan n = (0, (b.putRing { r with state := .draining, tries := 0 }).settleRing n) := by
  unfold dropOrphan
  rw [if_neg (by omega), hr]
  simp [horphan]

end Block

/-- Settles O29: the descriptor that the ring now has is read without error; DROP reads none. -/
theorem ringsReattached : Obligations.RingsReattached := by
  intro s n hs hopen hnone hn only
  refine ⟨?_, ?_, fun r exists_ hr number orphaned => ?_⟩
  · intro r c small exists_ hc stale free freeReset sound goes ok bound fresh
    have read : s.blk.ReadFrom r.2.2 := Block.readDesc_sound s.mem sound goes
    have taken (i : Instr) {w mode : Nat} (hw : AttachWord w n true mode) (hmode : mode < 2)
        (hexec : exec i s = entryStep s 0x2202 8 w) (hwait : s.blk.wordWaits (true, w) = false) :
        Gives i s (fun t => t.blk.cq? n = some (if mode == 1 then fresh else { fresh with wr := c.wr, phase := c.phase }) ∧
          t.blk.rings = s.blk.rings ∧ only t) := by
      have word := Block.reattachCq_valid s.mem (mode == 1) exists_ hc stale sound ok bound
      have action : Block.attachAction s.mem s.blk true mode n = Block.reattachCq s.mem s.blk n (mode == 1) :=
        congrArg (Block.reattachCq s.mem s.blk · (mode == 1)) (Nat.mod_eq_of_lt small)
      refine gives_of_attachWord hs hopen hnone hw (by omega) (fun _ => hmode) hexec hwait (action.trans word) read ⟨_, _, _, rfl⟩
        fun t rings cqs result recorded odOnly memory flows => ⟨?_, ?_, result, recorded, odOnly, memory, flows⟩
      · unfold Block.cq?
        rw [cqs]
        refine (Block.putCq_cq? _ _ _).trans ((if_pos ?_).trans rfl)
        split <;> rfl
      · obtain ⟨_, _, same⟩ := read
        rw [rings]
        show r.2.2.rings = _
        rw [same]
    refine ⟨taken (.reattachCqResume n) (mode := 0) ?_ (by decide) rfl free,
      taken (.reattachCqReset n) (attachWord_cq small (by decide)) (by decide) rfl freeReset⟩
    rw [← pack_zero_field [(0, n), (18, 1)] 19]
    exact attachWord_cq small (by decide)
  · intro x r c exists_ hr number orphaned free freeReset sound goes ok bound oldFresh newCq newFresh up
    have read : s.blk.ReadFrom x.2.2 := Block.readDesc_sound s.mem sound goes
    have taken (i : Instr) {w mode : Nat} (hw : AttachWord w n false mode) (hmode : mode < 2)
        (hexec : exec i s = entryStep s 0x2202 8 w) (hwait : s.blk.wordWaits (true, w) = false)
        (hsame : (mode == 1) = true ∨ (bits x.1 115 64 = r.base ∧ bits x.1 12 8 = bits r.desc 12 8)) :
        Gives i s (fun t => t.blk.ring? n = some (if mode == 1 then
          { up with head := 0, tail := 0, phase := true, bells := [] } else up) ∧ t.blk.cqs = s.blk.cqs ∧ only t) := by
      have word := Block.reattachSq_valid s.mem (mode == 1) exists_ hr orphaned sound ok bound oldFresh newCq newFresh hsame
      have action : Block.attachAction s.mem s.blk false mode n = Block.reattachSq s.mem s.blk n (mode == 1) := by
        unfold Block.attachAction
        rw [if_neg Bool.false_ne_true, if_neg (by simp; omega)]
      refine gives_of_attachWord hs hopen hnone hw (by omega) nofun hexec hwait (action.trans word) read ⟨_, _, _, rfl⟩
        fun t rings cqs result recorded odOnly memory flows => ⟨?_, ?_, result, recorded, odOnly, memory, flows⟩
      · unfold Block.ring?
        rw [rings]
        refine (Block.putRing_ring? _ _ _).trans ((if_pos ?_).trans rfl)
        split <;> exact number.symm
      · obtain ⟨_, _, same⟩ := read
        rw [cqs]
        show x.2.2.cqs = _
        rw [same]
    refine ⟨fun base size => taken (.reattachSqResume n) (mode := 0) ?_ (by decide) rfl free (.inr ⟨base, size⟩),
      taken (.reattachSqReset n) (attachWord_sq hn (by decide)) (by decide) rfl freeReset (.inl rfl)⟩
    rw [← pack_zero_field [(0, n)] 19]
    exact attachWord_sq hn (by decide)
  · subst number
    have noRead : Block.wordReads (true, pack [(0, r.number), (19, 2)]) = none := by
      obtain ⟨-, -, -, isCq, isMode⟩ := attachWord_sq (mode := 2) hn (by decide)
      simp [Block.wordReads, isCq, isMode]
    have ring := Block.drained_ring? (b := s.blk) (r := { r with state := .draining, tries := 0 }) rfl
    refine gives_of_attachWord (mode := 2) hs hopen hnone (attachWord_sq hn (by decide)) (by decide) nofun rfl
      (Block.wordWaits_of_noRead noRead) (Block.dropOrphan_orphaned exists_ hr orphaned) (.refl _)
      (Block.drained_rings (r := { r with state := .draining, tries := 0 }) rfl)
      fun t rings cqs result recorded odOnly memory flows => ⟨?_, ?_, result, recorded, odOnly, memory, flows⟩
    · unfold Block.ring?
      rw [rings]
      exact (ring r.number).trans (if_pos rfl)
    · exact cqs.trans (Block.drained_cqs (r := { r with state := .draining, tries := 0 }) rfl)

end Sys2Proof.Machine

/-! ### Doorbells (R129, R132 to R135, R153) -/

namespace Sys2Proof.Machine

namespace Block

/-- A doorbell write that the front end takes (R134, R135). -/
theorem doorbell_taken {b : Block} {q size v tail : Nat} {r : SubRing} (hready : b.ready = true) (hsize : size = 8 ∨ size = 4)
    (hq : q < b.sqCount) (hr : b.ring? q = some r) (hstate : r.state ≠ .orphaned) (hv : bits v 15 0 = tail) (htail : tail < r.size) :
    b.doorbell (8 * q) size v = b.ringDoorbell r tail := by
  have place : 8 * q / 8 = q ∧ 8 * q % 8 = 0 := by omega
  unfold doorbell
  rw [place.1, place.2, hr, hv]
  obtain rfl | rfl := hsize <;> simp [hready, Nat.not_le.2 hq, hstate, Nat.not_le.2 htail]

/-- A doorbell write that is dropped (R134, R153). -/
theorem doorbell_dropped {b : Block} {off size v tail : Nat} (hv : bits v 15 0 = tail)
    (h : b.ready = false ∨ (size ≠ 8 ∧ size ≠ 4) ∨ off % 8 ≠ 0 ∨ b.sqCount ≤ off / 8 ∨ b.ring? (off / 8) = none ∨
      ∃ r, b.ring? (off / 8) = some r ∧ (r.state = .orphaned ∨ r.size ≤ tail)) :
    b.doorbell off size v = b.dropDoorbell := by
  unfold doorbell
  rw [hv]
  obtain h | ⟨h8, h4⟩ | h | h | h | ⟨r, hr, h | h⟩ := h
  · simp [h]
  · simp [h8, h4]
  · simp [h]
  · simp [h]
  · simp [h]
  · simp [hr, h]
  · simp [hr, h]

end Block

/-- Settles O30: a doorbell that is taken puts its ring in place, and one that is dropped counts. -/
theorem doorbellsMoveTails : Obligations.DoorbellsMoveTails := by
  intro s q off size v hs c tail
  obtain ⟨noWrite, unblocked, quiet, noneHeldAt, noneHeldRange, marks⟩ := hs
  have low : bits v 15 0 = tail := by simp [bits_eq, tail]
  refine ⟨fun r ready place hsize exists_ hr number state inRing => ?_, fun inside dropped => ?_⟩
  · have at_ring : off - 0x0100_0000 = 8 * q := by omega
    have exec_eq : exec c s = finish s (s.blk.ringDoorbell r tail) := congrArg (finish s)
      ((congrArg (s.blk.doorbell · size v) at_ring).trans
        (Block.doorbell_taken ready hsize exists_ hr state low inRing))
    have ring (k : Nat) : (s.blk.ringDoorbell r tail).ring? k = _ := Block.putRing_ring? s.blk _ k
    refine gives_of_finish exec_eq quiet ⟨_, (ring q).trans (if_pos number.symm), rfl, rfl, rfl, rfl, ?_, ?_, fun k hk => ?_, ?_,
      ?_, ?_⟩
    · by_cases paused : r.state = .paused <;> simp [paused]
    · simp
    · exact (ring k).trans (if_neg (by rwa [number]))
    · show land s.mem s.blk.posted = _
      rw [noWrite]
      rfl
    · exact odOnly_quietEnd s _ _ fun _ _ _ _ => rfl
    · show { s.blk with
        posted := [], blocked := false,
        agents := { s.blk.agents with began := s.blk.agents.moved, heldAt := none, heldRange := none } } = s.blk
      rw [← noWrite, ← unblocked, ← noneHeldAt, ← noneHeldRange, ← marks]
  · have exec_eq : exec c s = finish s (s.blk.count 0x2201 3 1) := by
      show finish s (s.blk.doorbell (off - 0x0100_0000) size v) = _
      have misplaced : off % 8 ≠ 0 → (off - 0x0100_0000) % 8 ≠ 0 := by omega
      rw [Block.doorbell_dropped low (dropped.imp_right (Or.imp_right (Or.imp_left misplaced)))]
      rfl
    have still : (s.blk.count 0x2201 3 1).Quiet := quiet.congr rfl rfl rfl fun n =>
      Block.count_portState _ _ _ (by decide) (by decide) (by decide)
    refine gives_of_finish exec_eq still ⟨?_, ?_, ?_⟩
    · rw [quietEnd_od _ _ _ _ (by decide), Block.count_self]
    · exact odOnly_quietEnd s _ _ fun i j hj h =>
        Block.count_od'_of_ne _ _ hj (by decide) (by simpa using h) (by decide) (by decide)
    · exact onlyOd_quietEnd s _ ⟨noWrite, unblocked, quiet, noneHeldAt, noneHeldRange, marks⟩ rfl

end Sys2Proof.Machine

/-! ### Engine resets (R482, R483, R545) -/

namespace Sys2Proof.Machine

namespace Block

/-- An entry that R545 does not keep is unlisted among the kept ones. -/
theorem mapFind_keptOd (b : Block) {key : Nat} (h1 : key ∉ odKept) (h2 : key ∉ odOutside) : mapFind b.keptOd key = none := by
  unfold mapFind keptOd
  rw [Option.map_eq_none_iff, List.find?_eq_none]
  intro e he same
  have kept := (List.mem_filter.1 he).2
  rw [beq_iff_eq] at same
  simp only [same, Bool.or_eq_true, List.contains_iff_mem] at kept
  exact kept.elim h1 h2

/-- After a restart every entry that is not kept holds its default (R482, R545). -/
theorem restart_od' (b : Block) (kind : Nat) {i j : Nat} (h1 : odKey i j ∉ odKept) (h2 : odKey i j ∉ odOutside) :
    (b.restart kind).od' i j = Block.reset.od' i j := by
  have notKind : odKey i j ≠ odKey 0x2000 8 := fun h => h1 (by rw [h]; decide)
  have fresh {c : Block} (hc : c.od = b.keptOd) : (c.setOd 0x2000 8 kind).od' i j = Block.reset.od' i j := by
    rw [setOd_other _ _ _ _ _ _ notKind (by decide) (by decide)]
    have config := b.mapFind_keptOd (key := odKey 0x1000 6) (by decide) (by decide)
    have number := b.mapFind_keptOd (key := odKey 0x2700 1) (by decide) (by decide)
    have unlisted := b.mapFind_keptOd h1 h2
    unfold od' odDefault mapGet
    rw [hc, config, number, unlisted]
    rfl
  exact (od'_congr _ _ rfl i j).trans (fresh (c := { Block.reset with od := b.keptOd }) rfl)

theorem restart_kind (b : Block) (kind : Nat) : (b.restart kind).od' 0x2000 8 = kind :=
  (od'_congr _ _ rfl _ _).trans (setOd_self { Block.reset with od := b.keptOd } 0x2000 8 kind)

theorem restart_ports (b : Block) (kind : Nat) : (b.restart kind).seryo.ports =
    b.seryo.ports.map (fun p => { blankPort p.number with sent := p.sent, pairNo := p.pairNo }) := rfl

/-- A restarted engine's ports have nothing to send (R483). -/
theorem restart_quiet (b : Block) (kind : Nat) : (b.restart kind).Quiet := by
  refine ⟨rfl, rfl, fun n _ _ => ?_⟩
  unfold port
  cases h : (b.restart kind).seryo.ports.find? (fun p => p.number == n) with
  | none => rfl
  | some p =>
    have blank := List.mem_of_find?_eq_some h
    rw [restart_ports, List.mem_map] at blank
    obtain ⟨q, -, rfl⟩ := blank
    rfl

/-- A reset of a READY engine is a restart of its own kind (R482). -/
theorem engineReset_ready {b : Block} (h : b.engineState = 2) (forced : Bool) :
    ∃ c : Block, b.engineReset forced = c.restart (if forced then 2 else 1) := by
  unfold engineReset
  simp only [h]
  exact ⟨_, rfl⟩

theorem writeEntry_reset (m : Memory) (b : Block) (v : Nat) :
    writeEntry m b (odKey 0x2000 5) v = (accOk, b.engineReset (v == 2)) := by
  unfold writeEntry
  rw [if_neg (by decide), if_pos (by decide)]

end Block

/-- A step that ends in a restarted engine, but for the management port and its count of responses. -/
theorem gives_of_restart {x : Instr} {s : State} {b c : Block} {kind : Nat} {od : NatMap} {dict : Dict}
    (hexec : exec x s = finishRead s c) (hc : c = { b.restart kind with od := od, dict := dict })
    (hod : ∀ i j, odKey i j ≠ odKey 0x1100 4 → c.od' i j = (b.restart kind).od' i j) :
    Gives x s (fun t =>
      t.blk.engineState = 1 ∧ t.blk.startUp.step = 2 ∧ t.blk.rings = [] ∧ t.blk.cqs = [] ∧ t.blk.flows = [] ∧
      t.blk.cache.lines = [] ∧ t.blk.agents.queue = [] ∧
      (∀ p ∈ t.blk.seryo.ports, p = { blankPort p.number with sent := p.sent, pairNo := p.pairNo }) ∧
      t.blk.od' 0x2000 8 = kind ∧
      ∀ i j, j < 256 → odKey i j ∉ odKept → odKey i j ∉ odOutside → (i, j) ≠ (0x1100, 4) →
        t.blk.od' i j = State.reset.blk.od' i j) := by
  have quiet : c.Quiet := (b.restart_quiet kind).congr (by rw [hc]) (by rw [hc]) (by rw [hc]) fun n =>
    hod _ _ (by unfold odKey; omega)
  have noFlows : c.flows = [] := by rw [hc]; rfl
  have plain {i j : Nat} (hj : j < 256) (h1 : odKey i j ∉ odKept) (h2 : odKey i j ∉ odOutside) (h3 : (i, j) ≠ (0x1100, 4)) :
      (quietEnd s c).blk.od' i j = State.reset.blk.od' i j := by
    by_cases old : odKey i j = odKey 0x2202 0x0D
    · obtain ⟨rfl, rfl⟩ := (odKey_inj hj (by decide)).1 old
      have shown : (quietEnd s c).blk.od' 0x2202 0x0D = c.oldFlows :=
        (Block.od'_congr _ _ rfl _ _).trans (Block.setOd_self c 0x2202 0x0D c.oldFlows)
      rw [shown, Block.oldFlows, noFlows]
      rfl
    · rw [quietEnd_od _ _ _ _ old, hod i j (by rwa [Ne, odKey_inj hj (by decide), ← Prod.mk.injEq]),
        Block.restart_od' _ _ h1 h2]
      rfl
  refine gives_of_finishRead hexec (by rw [hc]; rfl) quiet ⟨?_, ?_, ?_, ?_, noFlows, ?_, ?_, fun p hp => ?_, ?_, fun i j => plain⟩
  · exact (plain (by decide) (by decide) (by decide) (by decide)).trans (by decide)
  · show c.startUp.step = 2
    rw [hc]
    rfl
  · show c.rings = []
    rw [hc]
    rfl
  · show c.cqs = []
    rw [hc]
    rfl
  · show c.cache.lines = []
    rw [hc]
    rfl
  · show c.agents.queue = []
    rw [hc]
    rfl
  · have ports : c.seryo.ports = (b.restart kind).seryo.ports := by rw [hc]
    change p ∈ c.seryo.ports at hp
    rw [ports, Block.restart_ports, List.mem_map] at hp
    obtain ⟨q, -, rfl⟩ := hp
    rfl
  · rw [quietEnd_od _ _ _ _ (by decide), hod _ _ (by decide), Block.restart_kind]

/-- Settles O24: over either path the engine is restarted, and the answer over MCTP touches the management port alone. -/
theorem resetsRestartTheEngine : Obligations.ResetsRestartTheEngine := by
  intro s p forced hs powered ready hp
  have hexec : exec (if forced then .forcedReset p else .orderedReset p) s =
      finishRead s (Block.orderReset s.mem s.blk p forced) := by cases forced <;> rfl
  obtain rfl | rfl := hp
  · obtain ⟨b, restarted⟩ := Block.engineReset_ready ready forced
    refine gives_of_restart (b := b) (kind := if forced then 2 else 1) (hexec.trans ?_) rfl fun _ _ _ => rfl
    rw [Block.orderReset, if_pos powered, restarted]
    rfl
  · have counted : (s.blk.count 0x2000 3 1).engineState = 2 := by
      have same : (s.blk.count 0x2000 3 1).engineState = s.blk.engineState :=
        Block.count_od'_of_ne _ _ (by decide) (by decide) (by decide) (by decide) (by decide)
      rw [same, ready]
    obtain ⟨b, restarted⟩ := Block.engineReset_ready counted forced
    have write : Block.odWrite s.mem (s.blk.count 0x2000 3 1) true (odKey 0x2000 5) (if forced then 2 else 1) =
        (accOk, b.restart (if forced then 2 else 1)) := by
      rw [Block.odWrite_inRange (r := ⟨0x2000, 5, 5, .u32, .wo, 0, 1, 2⟩) s.mem (.inr counted) (by decide) (.inl rfl)
        (.inr (.inl rfl)) (by cases forced <;> rfl), Block.writeEntry_reset, ← restarted]
      cases forced <;> rfl
    have exec_eq : exec (if forced then .forcedReset .mctp else .orderedReset .mctp) s =
        finishRead s ((b.restart (if forced then 2 else 1)).tursiocReply
          ⟨0, 0, s.blk.writeMessage 0x2000 5 (if forced then 2 else 1)⟩ (writeHeader 0x2000 5) accOk []) := by
      refine hexec.trans (congrArg (finishRead s) ?_)
      show Block.pathWrite s.mem s.blk .mctp 0x2000 5 (if forced then 2 else 1) = _
      rw [Block.pathWrite, if_pos powered, Block.serveRequest_writeMessage (by decide) (by decide) _ _ _ _
        (by cases forced <;> decide), write]
    exact gives_of_restart exec_eq rfl fun i j h => Block.tursiocReply_od' _ _ _ _ _ h

end Sys2Proof.Machine

/-! ### What reads and writes of the engine's own leave alone (R319, R322, R337, R488)

A read counts in the memory counters and may find faults; a write of the engine's own may also join an agent's queue,
land, or be dropped. Neither touches rings, flows, contexts, streams, the row cache or the wings. -/

namespace Sys2Proof.Machine

/-- The counters of uncorrectable units and absent ranges (R319, R337). -/
def readKeys : List (Nat × Nat) := [(0x2504, 2), (0x2504, 4), (0x2504, 0x0C)]

/-- Those, and the count of writes to host memory that were dropped (R490). -/
def writeKeys : List (Nat × Nat) := (0x2202, 0x0A) :: readKeys

namespace Block

/-- c is b after reads that did not wait. -/
def ReadBy (b c : Block) : Prop :=
  (∃ od raised k moved, c = { b with od := od, raised := raised, freeCount := k, agents := { b.agents with moved := moved } }) ∧
    ∀ i j, j < 256 → (i, j) ∉ readKeys → c.od' i j = b.od' i j

/-- c is b after reads and writes of the engine's own. -/
def Wrote (b c : Block) : Prop :=
  (∃ od posted raised k agents, c = { b with od := od, posted := posted, raised := raised, freeCount := k, agents := agents }) ∧
    ∀ i j, j < 256 → (i, j) ∉ writeKeys → c.od' i j = b.od' i j

theorem ReadBy.refl (b : Block) : b.ReadBy b := ⟨⟨_, _, _, _, rfl⟩, fun _ _ _ _ => rfl⟩

theorem ReadBy.trans {b c d : Block} (h : b.ReadBy c) (h' : c.ReadBy d) : b.ReadBy d := by
  obtain ⟨⟨_, _, _, _, rfl⟩, keep⟩ := h
  obtain ⟨⟨_, _, _, _, rfl⟩, keep'⟩ := h'
  exact ⟨⟨_, _, _, _, rfl⟩, fun i j hj hij => (keep' i j hj hij).trans (keep i j hj hij)⟩

theorem ReadBy.wrote {b c : Block} (h : b.ReadBy c) : b.Wrote c := by
  obtain ⟨⟨_, _, _, _, rfl⟩, keep⟩ := h
  exact ⟨⟨_, _, _, _, _, rfl⟩, fun i j hj hij => keep i j hj fun hr => hij (List.mem_cons_of_mem _ hr)⟩

theorem Wrote.refl (b : Block) : b.Wrote b := (ReadBy.refl b).wrote

theorem Wrote.trans {b c d : Block} (h : b.Wrote c) (h' : c.Wrote d) : b.Wrote d := by
  obtain ⟨⟨_, _, _, _, _, rfl⟩, keep⟩ := h
  obtain ⟨⟨_, _, _, _, _, rfl⟩, keep'⟩ := h'
  exact ⟨⟨_, _, _, _, _, rfl⟩, fun i j hj hij => (keep' i j hj hij).trans (keep i j hj hij)⟩

namespace Wrote
variable {b c : Block} (h : b.Wrote c)
include h

theorem time : c.time = b.time := by obtain ⟨⟨_, _, _, _, _, rfl⟩, -⟩ := h; rfl
theorem blocked : c.blocked = b.blocked := by obtain ⟨⟨_, _, _, _, _, rfl⟩, -⟩ := h; rfl
theorem rings : c.rings = b.rings := by obtain ⟨⟨_, _, _, _, _, rfl⟩, -⟩ := h; rfl
theorem cqs : c.cqs = b.cqs := by obtain ⟨⟨_, _, _, _, _, rfl⟩, -⟩ := h; rfl
theorem waiting : c.waiting = b.waiting := by obtain ⟨⟨_, _, _, _, _, rfl⟩, -⟩ := h; rfl
theorem flows : c.flows = b.flows := by obtain ⟨⟨_, _, _, _, _, rfl⟩, -⟩ := h; rfl
theorem heldBack : c.heldBack = b.heldBack := by obtain ⟨⟨_, _, _, _, _, rfl⟩, -⟩ := h; rfl
theorem ring? (n : Nat) : c.ring? n = b.ring? n := by unfold Block.ring?; rw [h.rings]
theorem cq? (n : Nat) : c.cq? n = b.cq? n := by unfold Block.cq?; rw [h.cqs]
theorem flow? (n : Nat) : c.flow? n = b.flow? n := by unfold Block.flow?; rw [h.flows]
theorem od {i j : Nat} (hj : j < 256) (hij : (i, j) ∉ writeKeys) : c.od' i j = b.od' i j := h.2 i j hj hij

end Wrote

theorem count_readBy (b : Block) {i j : Nat} (k : Nat) (h : (i, j) ∈ readKeys) : b.ReadBy (b.count i j k) := by
  have entry : j < 256 ∧ odKey i j ≠ odKey 0x1000 6 ∧ odKey i j ≠ odKey 0x2700 1 := by
    fin_cases h <;> decide
  exact ⟨⟨_, _, _, _, rfl⟩, fun i' j' hj' h' =>
    count_od'_of_ne _ _ hj' entry.1 (fun same => h' (same ▸ h)) entry.2.1 entry.2.2⟩

theorem uncorrectable_readBy (b : Block) (u : Nat) : b.ReadBy (b.uncorrectable u) := by
  have counted : b.ReadBy (b.count 0x2504 (if inFast u then 2 else 4) 1) := by
    split <;> exact count_readBy b 1 (by decide)
  obtain ⟨⟨_, _, _, _, same⟩, keep⟩ := counted
  exact ⟨⟨_, _, _, _, by rw [uncorrectable, same]; rfl⟩, fun i j hj h => (od'_congr _ _ rfl i j).trans (keep i j hj h)⟩

theorem ReadFrom.readBy {b c : Block} (h : b.ReadFrom c) : b.ReadBy c := by
  obtain ⟨_, _, rfl⟩ := h
  exact ⟨⟨_, _, _, _, rfl⟩, fun _ _ _ _ => rfl⟩

theorem foldl_uncorrectable_readBy (us : List Nat) (b : Block) : b.ReadBy (us.foldl uncorrectable b) := by
  induction us generalizing b with
  | nil => exact .refl b
  | cons u us ih => exact (uncorrectable_readBy b u).trans (ih _)

/-- A read of a tier that does not wait. -/
theorem tierRead_readBy (m : Memory) {b : Block} {a len : Nat} (hgoes : (tierRead m b a len).2.2.blocked = false) :
    b.ReadBy (tierRead m b a len).2.2 := by
  unfold tierRead at hgoes ⊢
  split_ifs at hgoes ⊢
  · exact .refl b
  · cases hgoes
  · exact (ReadFrom.readBy ⟨_, _, rfl⟩).trans (count_readBy _ 1 (by decide))
  · cases hgoes
  · exact (reported_readFrom b a len).readBy.trans ((foldl_uncorrectable_readBy _ _).trans (charge_readFrom _ _ _).readBy)

theorem readOwn_readBy (m : Memory) {b : Block} {a len : Nat} (hgoes : (readOwn m b a len).2.2.blocked = false) :
    b.ReadBy (readOwn m b a len).2.2 := by
  unfold readOwn at hgoes ⊢
  by_cases host : isHost a
  · rw [if_pos host]; exact .refl b
  · rw [if_neg host] at hgoes ⊢; exact tierRead_readBy m hgoes

end Block
end Sys2Proof.Machine

/-! ### Reads by the front end, whatever the time and the rotation -/

namespace Sys2Proof.Machine

namespace Block

/-- b at another time, and at another place of the dispatch rotation. -/
def clocked (b : Block) (t ro : Nat) (tu : NatMap) : Block := { b with time := t, rotor := ro, turns := tu }

theorem foldl_uncorrectable_clocked (us : List Nat) (b : Block) (t ro : Nat) (tu : NatMap) :
    us.foldl uncorrectable (b.clocked t ro tu) = (us.foldl uncorrectable b).clocked t ro tu := by
  induction us generalizing b with
  | nil => rfl
  | cons u us ih => exact ih (b.uncorrectable u)

theorem reported_clocked (b : Block) (a len t ro : Nat) (tu : NatMap) :
    (b.clocked t ro tu).reported a len = ((b.reported a len).1, (b.reported a len).2.clocked t ro tu) := by
  unfold reported
  dsimp only
  show (if _ then _ else _) = _
  split_ifs with h h' h'
  · rfl
  · exact absurd h h'
  · exact absurd h' h
  · rfl

theorem charge_clocked (b : Block) (a cost t ro : Nat) (tu : NatMap) :
    (b.clocked t ro tu).charge a cost = (b.charge a cost).clocked t ro tu := by
  unfold charge
  split_ifs
  · rfl
  · rfl

theorem tierRead_clocked (m : Memory) (b : Block) (a len t ro : Nat) (tu : NatMap) :
    tierRead m (b.clocked t ro tu) a len =
      ((tierRead m b a len).1, (tierRead m b a len).2.1, (tierRead m b a len).2.2.clocked t ro tu) := by
  unfold tierRead
  rw [reported_clocked]
  by_cases empty : (len == 0) = true
  · simp only [empty, if_true]
  by_cases ahead : (b.rowOpAhead a len || b.stackHeld a) = true
  · have ahead' : ((b.clocked t ro tu).rowOpAhead a len || (b.clocked t ro tu).stackHeld a) = true := ahead
    simp only [empty, ahead, ahead', if_true]
    rfl
  have ahead' : ((b.clocked t ro tu).rowOpAhead a len || (b.clocked t ro tu).stackHeld a) ≠ true := ahead
  by_cases gone : (b.absentRange a len || b.stackOut a) = true
  · have gone' : ((b.clocked t ro tu).absentRange a len || (b.clocked t ro tu).stackOut a) = true := gone
    simp only [empty, ahead, ahead', gone, gone', if_true]
    rfl
  have gone' : ((b.clocked t ro tu).absentRange a len || (b.clocked t ro tu).stackOut a) ≠ true := gone
  by_cases room : (!b.shareRoom a (readCost a len)) = true
  · have room' : (!(b.clocked t ro tu).shareRoom a (readCost a len)) = true := room
    simp only [empty, ahead, ahead', gone, gone', room, room', if_true]
    rfl
  have room' : (!(b.clocked t ro tu).shareRoom a (readCost a len)) ≠ true := room
  simp only [empty, ahead, ahead', gone, gone', room, room']
  have bad : ((b.reported a len).2.clocked t ro tu).badUnits a len = (b.reported a len).2.badUnits a len := rfl
  rw [bad, foldl_uncorrectable_clocked, charge_clocked]
  rfl

theorem readOwn_clocked (m : Memory) (b : Block) (a len t ro : Nat) (tu : NatMap) :
    readOwn m (b.clocked t ro tu) a len =
      ((readOwn m b a len).1, (readOwn m b a len).2.1, (readOwn m b a len).2.2.clocked t ro tu) := by
  unfold readOwn
  by_cases host : isHost a
  · simp only [host, if_true]
    rfl
  · simp only [host]
    exact tierRead_clocked m b a len t ro tu

/-- One more entry read, as inline entries are (R138). -/
def readNext (m : Memory) (place : Nat → Nat) (acc : Bytes × Block) (k : Nat) : Bytes × Block :=
  let x := readOwn m acc.2 (place k) 64
  (acc.1 ++ x.1, x.2.2)

theorem readNext_clocked (m : Memory) (place : Nat → Nat) (bs : Bytes) (b : Block) (k t ro : Nat) (tu : NatMap) :
    readNext m place (bs, b.clocked t ro tu) k =
      ((readNext m place (bs, b) k).1, (readNext m place (bs, b) k).2.clocked t ro tu) := by
  unfold readNext
  rw [readOwn_clocked]

theorem foldl_readNext_readBy (m : Memory) (place : Nat → Nat) (ks : List Nat) (acc : Bytes × Block)
    (h : (ks.foldl (readNext m place) acc).2.blocked = false) : acc.2.ReadBy (ks.foldl (readNext m place) acc).2 := by
  induction ks generalizing acc with
  | nil => exact .refl _
  | cons k ks ih =>
    have rest := ih (readNext m place acc k) h
    exact (readOwn_readBy m (rest.wrote.blocked.symm.trans h)).trans rest

theorem foldl_readNext_clocked (m : Memory) (place : Nat → Nat) (ks : List Nat) (bs : Bytes) (b : Block) (t ro : Nat)
    (tu : NatMap) : ks.foldl (readNext m place) (bs, b.clocked t ro tu) =
      ((ks.foldl (readNext m place) (bs, b)).1, (ks.foldl (readNext m place) (bs, b)).2.clocked t ro tu) := by
  induction ks generalizing bs b with
  | nil => rfl
  | cons k ks ih =>
    rw [List.foldl_cons, List.foldl_cons, readNext_clocked]
    exact ih _ _

theorem readInline_readBy (m : Memory) {b : Block} {r : SubRing} {n : Nat} (h : (readInline m b r n).2.blocked = false) :
    b.ReadBy (readInline m b r n).2 :=
  foldl_readNext_readBy m _ _ ([], b) h

theorem readInline_clocked (m : Memory) (b : Block) (r : SubRing) (n t ro : Nat) (tu : NatMap) :
    readInline m (b.clocked t ro tu) r n = ((readInline m b r n).1, (readInline m b r n).2.clocked t ro tu) :=
  foldl_readNext_clocked m _ _ [] b t ro tu

end Block
end Sys2Proof.Machine

/-! ### DISPATCH (R136 to R145, R152) -/

namespace Sys2Proof.Machine

namespace Block

theorem mem_ringsFor_of_pickRing {m : Memory} {b : Block} {su : Nat} {r : SubRing} (h : pickRing m b su = some r) :
    r ∈ ringsFor m b su := by
  unfold pickRing Option.orElse at h
  dsimp only at h
  split at h
  case _ found => exact (List.mem_filter.1 (List.mem_of_find?_eq_some (found.trans h))).1
  case _ => exact (List.mem_filter.1 (List.mem_of_head? h)).1

/-- The ring that the rotation puts first can be read now (R144, R145). -/
theorem ringReady_of_pick {m : Memory} {b : Block} {su : Nat} {r : SubRing} (h : pick m b = some (su, r)) :
    b.ringReady m r = true := by
  obtain ⟨k, -, offered⟩ := List.exists_of_findSome?_eq_some h
  obtain ⟨r', picked, same⟩ := Option.map_eq_some_iff.1 offered
  obtain ⟨rfl, rfl⟩ := Prod.mk.inj same
  have taken := mem_ringsFor_of_pickRing picked
  unfold ringsFor at taken
  split_ifs at taken with full
  · exact absurd taken (List.not_mem_nil)
  · have := (List.mem_filter.1 taken).2
    rw [Bool.and_eq_true] at this
    exact this.1

/-- A header that is read, and its inline entries where it is good, wait for nothing at a ring that is ready. -/
theorem unblocked_of_ringReady {m : Memory} {b : Block} {r : SubRing} (h : b.ringReady m r = true) :
    let x := readOwn m b (r.entryAt r.head) 64
    x.2.2.blocked = false ∧ (headerGood r (leNat x.1) x.2.1 = true →
      (readInline m x.2.2 r (bits (leNat x.1) 19 17)).2.blocked = false) := by
  intro x
  unfold ringReady at h
  simp only [Bool.and_eq_true, Bool.not_eq_true'] at h
  obtain ⟨-, goes, inner⟩ := h
  refine ⟨goes, fun good => ?_⟩
  rw [if_pos good, Bool.and_eq_true, Bool.not_eq_true'] at inner
  exact inner.2

/-- The flow that a header enters as (R137, R141). -/
def entering (m : Memory) (b : Block) (su : Nat) (r : SubRing) (e : Nat) : Flow :=
  { Flow.blank b.nextFlow r.number r.cqNo su e (b.od' 0x2202 1) b.time (min (bits e 23 21) r.bandCap) (b.deadlineFor r e) with
    inline := (readInline m b r (bits e 19 17)).1, windows := b.crcWindows, statuses := headerStatuses e,
    stage := if (headerStatuses e).isEmpty then .waiting else .closing }

/-- The block with a header's flow in flight, its inline entries read. -/
def entered (m : Memory) (b : Block) (su : Nat) (r : SubRing) (e : Nat) : Block :=
  let x := readInline m b r (bits e 19 17)
  { x.2 with flows := x.2.flows ++ [entering m b su r e], nextFlow := b.nextFlow + 1 }

theorem accept_refused (m : Memory) (b : Block) (su : Nat) (r : SubRing) {e : Nat} (h : headerStatuses e ≠ []) :
    accept m b su r e = (entered m b su r e).putRing (advanceHead r (1 + bits e 19 17)) := by
  have refused : (!(headerStatuses e).isEmpty) = true := by simpa using h
  unfold accept
  simp only [refused, if_true]
  rfl

/-- No check of its own stops a NOP, which reads no satchel queue. -/
theorem accept_nop (m : Memory) (b : Block) (su : Nat) (r : SubRing) {e : Nat} (h : headerStatuses e = [])
    (hop : bits e 7 0 = 0x3F) (hfree : (readInline m b r (bits e 19 17)).2.flow? b.nextFlow = none) :
    accept m b su r e = ((entered m b su r e).count 0x2201 6 1).putRing (advanceHead r (1 + bits e 19 17)) := by
  have good : (!(headerStatuses e).isEmpty) = false := by simp [h]
  have opcode : (entering m b su r e).opcode = 0x3F := hop
  have held : ((entered m b su r e).count 0x2201 6 1).flow? b.nextFlow = some (entering m b su r e) := by
    show ((readInline m b r (bits e 19 17)).2.flows ++ [entering m b su r e]).find? (fun f => f.id == b.nextFlow) = _
    rw [List.find?_append]
    have absent : (readInline m b r (bits e 19 17)).2.flows.find? (fun f => f.id == b.nextFlow) = none := hfree
    rw [absent]
    simp [entering, Flow.blank]
  have goesOn : ((entered m b su r e).count 0x2201 6 1).afterChecks b.nextFlow = (entered m b su r e).count 0x2201 6 1 := by
    unfold afterChecks
    rw [held]
    have quiet : ((entering m b su r e).cut || (entering m b su r e).statuses.any fun s => refuses s || endsEarly s) = false := by
      simp [entering, Flow.blank, h]
    simp only [quiet]
    rfl
  have checked : checkCommand m ((entered m b su r e).count 0x2201 6 1) (entering m b su r e) =
      (entered m b su r e).count 0x2201 6 1 := by
    unfold checkCommand
    rw [opcode] <;> rfl
  have notFence : ((entering m b su r e).opcode == opFence) = false := by rw [opcode]; rfl
  unfold accept
  simp only [good, Bool.false_eq_true, if_false]
  show ((checkCommand m (if (entering m b su r e).opcode == opFence then _ else (entered m b su r e).count 0x2201 6 1)
    (entering m b su r e)).afterChecks b.nextFlow).putRing _ = _
  rw [notFence, if_neg Bool.false_ne_true, checked, goesOn]

/-- DISPATCH reads the header of the ring that the rotation puts first, and moves the rotation on (R145). -/
theorem dispatch_picked {m : Memory} {b : Block} {su : Nat} {r : SubRing} (hready : b.ready = true)
    (h : pick m b = some (su, r)) : ∃ t ro tu, dispatch m b =
      let x := readOwn m b (r.entryAt r.head) 64
      let b1 := x.2.2.clocked t ro tu
      if headerGood r (leNat x.1) x.2.1 then accept m b1 su r (leNat x.1) else b1.putRing { r with tries := 1, readAt := b.time } := by
  refine ⟨(readOwn m b (r.entryAt r.head) 64).2.2.time, (su + 1) % 32,
    mapSet (readOwn m b (r.entryAt r.head) 64).2.2.turns 0
      (8 * su + min (bits (leNat (readOwn m b (r.entryAt r.head) 64).1) 23 21) r.bandCap) (r.number + 1), ?_⟩
  unfold dispatch mayDispatch
  simp only [hready, h, Bool.not_true, Bool.false_eq_true, if_false]
  rfl

/-- HEAD and phase move past a command and its inline entries (R137, R143). -/
theorem advanceHead_moved (r : SubRing) (n : Nat) : (advanceHead r (1 + n)).number = r.number ∧
    (advanceHead r (1 + n)).head = (r.head + 1 + n) % r.size ∧
    (advanceHead r (1 + n)).phase = (if r.size ≤ r.head + 1 + n then !r.phase else r.phase) ∧
    (advanceHead r (1 + n)).tail = r.tail := by
  have same : r.head + (1 + n) = r.head + 1 + n := by omega
  simp [advanceHead, same]

end Block

/-- A header entered by DISPATCH, its entries read without a fault: the ring's HEAD moves past it, and its flow is the last
in flight. -/
theorem gives_of_entered {s : State} {e : Nat} {r : SubRing} {f : Flow} {d c : Block} {t ro : Nat} {tu : NatMap}
    {ks : List (Nat × Nat)} {P : State → Prop} (hs : Settled s)
    (hexec : exec .dispatch s = finishRead s (c.putRing (Block.advanceHead r (1 + bits e 19 17))))
    (hc : ∃ od, c = { d.clocked t ro tu with od := od, flows := d.flows ++ [f], nextFlow := s.blk.nextFlow + 1 })
    (hread : s.blk.ReadBy d) (hgoes : d.blocked = false) (hsound : d.raised = [])
    (hod : ∀ i j, j < 256 → (i, j) ∉ ks → c.od' i j = s.blk.od' i j)
    (hP : ∀ t : State, t.blk.flows = s.blk.flows ++ [f] → t.blk.nextFlow = s.blk.nextFlow + 1 →
      t.blk.ring? r.number = some (Block.advanceHead r (1 + bits e 19 17)) → t.mem = s.mem → OdOnly s t ks →
      (∀ i j, odKey i j ≠ odKey 0x2202 0x0D → t.blk.od' i j = c.od' i j) → P t) : Gives .dispatch s P := by
  obtain ⟨noWrite, -, ⟨-, noneHeld, -⟩, -⟩ := hs
  obtain ⟨⟨od', raised, k, moved, rfl⟩, -⟩ := hread
  obtain ⟨od, rfl⟩ := hc
  refine gives_of_endOf_read hexec hgoes hsound noneHeld fun t ht => hP t ht.flows ht.nextFlow ?_ ?_ (ht.odOnly hod) ht.od
  · rw [ht.ring?, Block.putRing_ring?, if_pos (Block.advanceHead_moved r _).1.symm]
  · rw [ht.mem]
    show land s.mem s.blk.posted = _
    rw [noWrite]
    rfl

/-- Settles O31: the rotation offers only rings whose entries can be read now, so the header is read once, and what it
says decides. -/
theorem dispatchReadsOneHeader : Obligations.DispatchReadsOneHeader := by
  intro s su r hs ready picked hr x e n head' phase' counted sound
  obtain ⟨goes, goesInline⟩ := Block.unblocked_of_ringReady (Block.ringReady_of_pick picked)
  obtain ⟨t, ro, tu, dispatched⟩ := Block.dispatch_picked ready picked
  have read : s.blk.ReadFrom x.2.2 := Block.readOwn_sound s.mem sound goes
  have ⟨noWrite, _, ⟨noFault, noneHeld, _⟩, _⟩ := hs
  refine ⟨fun bad => ?_, fun good noneFound => ?_⟩
  · have exec_eq : exec .dispatch s =
        finishRead s ((x.2.2.clocked t ro tu).putRing { r with tries := 1, readAt := s.blk.time }) := by
      show finishRead s (Block.dispatch s.mem s.blk) = _
      rw [dispatched]
      simp only [show Block.headerGood r (leNat x.1) x.2.1 = false by rw [sound]; exact bad, x, Bool.false_eq_true, if_false]
    obtain ⟨k, moved, same⟩ := read
    rw [same] at exec_eq
    refine gives_of_endOf_read exec_eq (by rw [same] at goes; exact goes) noFault noneHeld fun t ht =>
      ⟨?_, ht.flows, ht.nextFlow, ?_, ht.odOnly fun _ _ _ _ => rfl⟩
    · rw [ht.ring?, Block.putRing_ring?, if_pos rfl]
    · rw [ht.mem]
      show land s.mem s.blk.posted = _
      rw [noWrite]
      rfl
  · have good' : Block.headerGood r (leNat x.1) x.2.1 = true := by rw [sound]; exact good
    have accepted : exec .dispatch s = finishRead s (Block.accept s.mem (x.2.2.clocked t ro tu) su r e) := by
      show finishRead s (Block.dispatch s.mem s.blk) = _
      rw [dispatched]
      simp only [good', x, if_true]
      rfl
    have inlined := Block.readInline_clocked s.mem x.2.2 r n t ro tu
    have unblocked : (Block.readInline s.mem x.2.2 r n).2.blocked = false := goesInline good'
    have all : s.blk.ReadBy (Block.readInline s.mem x.2.2 r n).2 := read.readBy.trans (Block.readInline_readBy s.mem unblocked)
    have next : x.2.2.nextFlow = s.blk.nextFlow := by obtain ⟨_, _, same⟩ := read; rw [same]
    have entered : Block.entered s.mem (x.2.2.clocked t ro tu) su r e =
        { (Block.readInline s.mem x.2.2 r n).2.clocked t ro tu with
          flows := (Block.readInline s.mem x.2.2 r n).2.flows ++ [Block.entering s.mem (x.2.2.clocked t ro tu) su r e],
          nextFlow := s.blk.nextFlow + 1 } := by
      unfold Block.entered
      rw [inlined, ← next]
      rfl
    have id : (Block.entering s.mem (x.2.2.clocked t ro tu) su r e).id = s.blk.nextFlow := next
    obtain ⟨-, head, phase, tail⟩ := Block.advanceHead_moved r n
    refine ⟨fun refused => ?_, fun status nop free => ?_⟩
    · rw [Block.accept_refused _ _ _ _ refused] at accepted
      refine gives_of_entered hs accepted ⟨_, entered⟩ all unblocked noneFound
        (fun i j hj h => (Block.od'_congr _ _ (by rw [entered]; rfl) i j).trans (all.2 i j hj h)) fun t flows nextFlow ring memory only _ =>
          ⟨_, _, flows, id, rfl, rfl, rfl, ?_, rfl, nextFlow, ring, head, phase, tail, memory, only⟩
      simp [Block.entering, refused]
    · have unused : (Block.readInline s.mem (x.2.2.clocked t ro tu) r (bits e 19 17)).2.flow?
          (x.2.2.clocked t ro tu).nextFlow = none := by
        rw [show bits e 19 17 = n from rfl, inlined, show (x.2.2.clocked t ro tu).nextFlow = s.blk.nextFlow from next]
        exact (all.wrote.flow? _).trans free
      rw [Block.accept_nop _ _ _ _ status nop unused] at accepted
      have entry (i j : Nat) (hj : j < 256) (h : (i, j) ∉ readKeys) :
          (Block.entered s.mem (x.2.2.clocked t ro tu) su r e).od' i j = s.blk.od' i j :=
        (Block.od'_congr _ _ (by rw [entered]; rfl) i j).trans (all.2 i j hj h)
      have counted : (Block.entered s.mem (x.2.2.clocked t ro tu) su r e).count 0x2201 6 1 =
          { (Block.readInline s.mem x.2.2 r n).2.clocked t ro tu with
            od := ((Block.entered s.mem (x.2.2.clocked t ro tu) su r e).count 0x2201 6 1).od,
            flows := (Block.readInline s.mem x.2.2 r n).2.flows ++ [Block.entering s.mem (x.2.2.clocked t ro tu) su r e],
            nextFlow := s.blk.nextFlow + 1 } := by
        rw [entered]
        rfl
      refine gives_of_entered hs accepted ⟨_, counted⟩ all unblocked noneFound
        (fun i j hj h => ?_) fun t flows nextFlow ring memory only od =>
          ⟨_, _, flows, id, rfl, rfl, rfl, ?_, status, nextFlow, ring, head, phase, tail, ?_, memory, only⟩
      · rw [List.mem_cons, not_or] at h
        rw [Block.count_od'_of_ne _ _ hj (by decide) h.1 (by decide) (by decide), entry i j hj h.2]
      · simp [Block.entering, status]
      · rw [od _ _ (by decide), Block.count_self, entry _ _ (by decide) (by decide)]

end Sys2Proof.Machine

/-! ### Completion records: what posting one leaves alone (R148 to R151, R492)

A record goes to its ring, into the wait for room, or to the orphan log. It may bring an interrupt and a reread of
SW_HEAD; rings, flows, the time and every other unit stay. -/

namespace Sys2Proof.Machine

/-- What posting a record may count or show: the wait for room, the orphan log, and what its writes and reads count. -/
def recordKeys : List (Nat × Nat) := (0x2201, 7) :: (0x2202, 5) :: (0x2202, 7) :: writeKeys

namespace Block

/-- c is b after records were posted. -/
def Posts (b c : Block) : Prop :=
  (∃ od posted raised k agents waiting cqs nx, c = { b with
      od := od, posted := posted, raised := raised, freeCount := k,
      agents := agents, waiting := waiting, cqs := cqs, orphanNext := nx }) ∧
    ∀ i j, j < 256 → (i, j) ∉ recordKeys → c.od' i j = b.od' i j

theorem Wrote.posts {b c : Block} (h : b.Wrote c) : b.Posts c := by
  obtain ⟨⟨_, _, _, _, _, rfl⟩, keep⟩ := h
  refine ⟨⟨_, _, _, _, _, _, _, _, rfl⟩, fun i j hj hij => keep i j hj fun hw => hij ?_⟩
  simp only [recordKeys, List.mem_cons]
  simp only [writeKeys, List.mem_cons] at hw ⊢
  tauto

theorem Posts.refl (b : Block) : b.Posts b := (Wrote.refl b).posts

theorem Posts.trans {b c d : Block} (h : b.Posts c) (h' : c.Posts d) : b.Posts d := by
  obtain ⟨⟨_, _, _, _, _, _, _, _, rfl⟩, keep⟩ := h
  obtain ⟨⟨_, _, _, _, _, _, _, _, rfl⟩, keep'⟩ := h'
  exact ⟨⟨_, _, _, _, _, _, _, _, rfl⟩, fun i j hj hij => (keep' i j hj hij).trans (keep i j hj hij)⟩

namespace Posts
variable {b c : Block} (h : b.Posts c)
include h

theorem time : c.time = b.time := by obtain ⟨⟨_, _, _, _, _, _, _, _, rfl⟩, -⟩ := h; rfl
theorem blocked : c.blocked = b.blocked := by obtain ⟨⟨_, _, _, _, _, _, _, _, rfl⟩, -⟩ := h; rfl
theorem rings : c.rings = b.rings := by obtain ⟨⟨_, _, _, _, _, _, _, _, rfl⟩, -⟩ := h; rfl
theorem flows : c.flows = b.flows := by obtain ⟨⟨_, _, _, _, _, _, _, _, rfl⟩, -⟩ := h; rfl
theorem ring? (n : Nat) : c.ring? n = b.ring? n := by unfold Block.ring?; rw [h.rings]
theorem od {i j : Nat} (hj : j < 256) (hij : (i, j) ∉ recordKeys) : c.od' i j = b.od' i j := h.2 i j hj hij

end Posts

/-! ### Writes of the engine's own -/

theorem tierWrite_wrote (b : Block) (a : Nat) (data : Bytes) : b.Wrote (b.tierWrite a data) := by
  unfold tierWrite
  split_ifs
  · exact .refl b
  · exact (count_readBy b 1 (by decide)).wrote
  · have stored (us : List Nat) (c : Block) : c.Wrote (us.foldl (fun b u => (b.uncorrectable u).storePoisoned u) c) := by
      induction us generalizing c with
      | nil => exact .refl c
      | cons u us ih =>
        have one : c.Wrote ((c.uncorrectable u).storePoisoned u) :=
          (uncorrectable_readBy c u).wrote.trans ⟨⟨_, _, _, _, _, rfl⟩, fun _ _ _ _ => rfl⟩
        exact one.trans (ih _)
    have landed (c : Block) : c.Wrote ((c.post a data).clearPoison a data.length) :=
      ⟨⟨_, _, _, _, _, rfl⟩, fun _ _ _ _ => rfl⟩
    exact (reported_readFrom b a _).readBy.wrote.trans ((stored _ _).trans ((landed _).trans (charge_readFrom _ _ _).readBy.wrote))

/-- A request of no flow for a write joins its agent's queue at once. -/
theorem request_wrote (b : Block) (port a : Nat) (data : Bytes) (crc : Option (Nat × Nat)) (after : List After) :
    b.Wrote (b.request { port := port, flow := none, op := .blockWrite a data crc, remote := none, after := after }) :=
  ⟨⟨_, _, _, _, _, rfl⟩, fun _ _ _ _ => rfl⟩

theorem ownPut_wrote (b : Block) (a : Nat) (data : Bytes) (after : List After) : b.Wrote (b.ownPut a data after).1 := by
  unfold ownPut
  dsimp only
  split_ifs
  · exact ⟨⟨_, _, _, _, _, rfl⟩, fun _ _ _ _ => rfl⟩
  · exact request_wrote ..
  · exact ⟨⟨_, _, _, _, _, rfl⟩, fun i j hj h =>
      count_od'_of_ne _ _ hj (by decide) (fun same => h (by simp [same, writeKeys])) (by decide) (by decide)⟩
  · exact request_wrote ..
  · exact tierWrite_wrote b a data

theorem interrupt_wrote (b : Block) (ring len a : Nat) (d : Bytes) : b.Wrote (b.interrupt ring len a d) := by
  unfold interrupt
  split
  · exact ⟨⟨_, _, _, _, _, rfl⟩, fun _ _ _ _ => rfl⟩
  · exact ownPut_wrote ..

theorem ownWrite_nil (b : Block) (a : Nat) (data : Bytes) : b.ownWrite a data [] = (b.ownPut a data []).1 := by
  unfold ownWrite
  simp

theorem ownWrite_wrote (b : Block) (a : Nat) (data : Bytes) : b.Wrote (b.ownWrite a data []) := by
  rw [ownWrite_nil]
  exact ownPut_wrote ..

/-! ### Records posted -/

theorem setOd_posts (b : Block) {i j : Nat} (v : Nat) (h : (i, j) ∈ recordKeys) : b.Posts (b.setOd i j v) := by
  have entry : j < 256 ∧ odKey i j ≠ odKey 0x1000 6 ∧ odKey i j ≠ odKey 0x2700 1 := by
    fin_cases h <;> decide
  exact ⟨⟨_, _, _, _, _, _, _, _, rfl⟩, fun i' j' hj' h' =>
    setOd_od'_of_ne _ _ hj' entry.1 (fun same => h' (same ▸ h)) entry.2.1 entry.2.2⟩

theorem putCq_posts (b : Block) (c : CompRing) : b.Posts (b.putCq c) := ⟨⟨_, _, _, _, _, _, _, _, rfl⟩, fun _ _ _ _ => rfl⟩

theorem logRecord_posts (b : Block) (w : WaitingRecord) (head : Nat) : b.Posts (b.logRecord w head) := by
  unfold logRecord
  dsimp only
  split_ifs
  · exact setOd_posts _ _ (by decide)
  · unfold ownWrite
    have moved (c : Block) (k : Nat) : c.Posts { c with orphanNext := k } := ⟨⟨_, _, _, _, _, _, _, _, rfl⟩, fun _ _ _ _ => rfl⟩
    dsimp only
    split_ifs
    · exact (moved b _).trans ((ownPut_wrote ..).posts.trans (setOd_posts _ _ (by decide)))
    · exact (moved b _).trans (ownPut_wrote ..).posts

theorem signalCq_posts (b : Block) (c : CompRing) : b.Posts (b.signalCq c) :=
  (putCq_posts b _).trans (interrupt_wrote ..).posts

/-- A completion ring past the record that is written at a time (R149, R151). -/
def pastRecord (c : CompRing) (time : Nat) : CompRing :=
  { c with
    wr := (c.wr + 1) % c.size, phase := if (c.wr + 1) % c.size == 0 then !c.phase else c.phase,
    since := if c.irqEn then c.since + 1 else 0, firstAt := if c.irqEn then some (c.firstAt.getD time) else none }

theorem writeRecord_eq (b : Block) (c : CompRing) (w : WaitingRecord) : b.writeRecord c w =
    let b1 := b.ownWrite (c.base + 16 * c.wr) (natLE 16 (recordBits w c.phase (b.headOf w.sq))) []
    let c1 := pastRecord c b1.time
    if c1.irqEn && (c1.coalCount ≤ c1.since || w.status != stOk) then b1.signalCq c1 else b1.putCq c1 := by
  have now := (b.ownWrite_wrote (c.base + 16 * c.wr) (natLE 16 (recordBits w c.phase (b.headOf w.sq)))).time
  dsimp only
  rw [now]
  rfl

theorem writeRecord_posts (b : Block) (c : CompRing) (w : WaitingRecord) : b.Posts (b.writeRecord c w) := by
  have written := b.ownWrite_wrote (c.base + 16 * c.wr) (natLE 16 (recordBits w c.phase (b.headOf w.sq)))
  rw [writeRecord_eq]
  dsimp only
  generalize b.ownWrite (c.base + 16 * c.wr) (natLE 16 (recordBits w c.phase (b.headOf w.sq))) [] = b1 at written ⊢
  generalize pastRecord c b1.time = c1
  split_ifs
  · exact written.posts.trans (signalCq_posts ..)
  · exact written.posts.trans (putCq_posts ..)

/-- SW_HEAD read for a ring: a read that would wait gives none. -/
theorem readSwHead_readBy (m : Memory) (b : Block) (n : Nat) : b.ReadBy (readSwHead m b n).2 := by
  unfold readSwHead
  dsimp only
  split_ifs with builtin cut waits
  · exact .refl b
  · exact .refl b
  · exact .refl b
  all_goals exact readOwn_readBy m (by simpa using waits)

theorem rereadSwHead_posts (m : Memory) (b : Block) (n : Nat) : b.Posts (b.rereadSwHead m n) := by
  unfold rereadSwHead
  dsimp only
  split
  · exact (readSwHead_readBy m b n).wrote.posts
  · exact (readSwHead_readBy m b n).wrote.posts.trans (putCq_posts ..)

theorem drainCq_posts (fuel : Nat) (b : Block) (n : Nat) : b.Posts (drainCq fuel b n) := by
  induction fuel generalizing b with
  | zero => exact .refl b
  | succ fuel ih =>
    unfold drainCq
    split
    · split_ifs
      · exact .refl b
      · have taken (ws : List WaitingRecord) : b.Posts { b with waiting := ws } :=
          ⟨⟨_, _, _, _, _, _, _, _, rfl⟩, fun _ _ _ _ => rfl⟩
        exact (taken _).trans ((writeRecord_posts ..).trans (ih _))
    · exact .refl b

theorem rereadAndDrain_posts (m : Memory) (b : Block) (n : Nat) : b.Posts (b.rereadAndDrain m n) :=
  (rereadSwHead_posts m b n).trans (drainCq_posts ..)

/-- A record posted (R150, R492). -/
theorem postRecord_posts (m : Memory) (b : Block) (w : WaitingRecord) : b.Posts (postRecord m b w) := by
  unfold postRecord
  split_ifs
  · exact logRecord_posts ..
  · split
    · exact .refl b
    · split_ifs
      · have waits (ws : List WaitingRecord) : b.Posts { b with waiting := ws } :=
          ⟨⟨_, _, _, _, _, _, _, _, rfl⟩, fun _ _ _ _ => rfl⟩
        exact (waits _).trans ((setOd_posts _ _ (by decide)).trans (rereadAndDrain_posts ..))
      · exact writeRecord_posts ..

end Block
/-! ### A header that goes on failing (R152) -/

namespace Block

/-- HEADER_RECHECK of a ring that may be read reads its header again, later. -/
theorem headerRecheck_fails (m : Memory) {b : Block} {n : Nat} {r : SubRing} (hready : b.ready = true)
    (hr : b.ring? n = some r) (hstate : r.state = .active) (htries : 0 < r.tries) (hleft : 0 < r.readyEntries)
    (hreadable : b.ringReadable r = true)
    (hbad : headerGood r (leNat (readOwn m b (r.entryAt r.head) 64).1) (readOwn m b (r.entryAt r.head) 64).2.1 = false) :
    headerRecheck m b n =
      let x := readOwn m b (r.entryAt r.head) 64
      let later := x.2.2.clocked (max b.time (r.readAt + 330 * r.tries)) b.rotor b.turns
      if r.tries < 3 then later.putRing { r with tries := r.tries + 1 } else pauseRing m later r (leNat x.1) := by
  have moved : ({ b with time := max b.time (r.readAt + recheckNs * r.tries) } : Block) =
      b.clocked (max b.time (r.readAt + 330 * r.tries)) b.rotor b.turns := rfl
  unfold headerRecheck mayDispatch
  simp only [hr, hready, hstate, hreadable, moved, readOwn_clocked, hbad, bne_self_eq_false,
    Bool.not_true, Bool.or_self, Bool.false_eq_true, if_false]
  simp [Nat.ne_of_gt htries, Nat.ne_of_gt hleft]

/-- The fourth failure pauses the ring and counts by its kind (R152). -/
theorem pauseRing_paused (m : Memory) (b : Block) (r : SubRing) (e : Nat) :
    (pauseRing m b r e).ring? r.number = some { r with state := .paused, tries := 0 } ∧
      (pauseRing m b r e).time = b.time ∧ (pauseRing m b r e).blocked = b.blocked ∧
      (pauseRing m b r e).od' 0x2201 (if bit e 16 != r.phase then 4 else 5) =
        add64 (b.od' 0x2201 (if bit e 16 != r.phase then 4 else 5)) 1 := by
  have small : (if bit e 16 != r.phase then 4 else 5) < 256 := by split <;> decide
  have counted : (0x2201, if bit e 16 != r.phase then 4 else 5) ∉ recordKeys := by split <;> decide
  unfold pauseRing
  dsimp only
  generalize hp : (if bit e 16 != r.phase then 4 else 5) = kind at small counted
  have posted (w : WaitingRecord) := postRecord_posts m ((b.putRing { r with state := .paused, tries := 0 }).count 0x2201 kind 1) w
  refine ⟨?_, (posted _).time, (posted _).blocked, ?_⟩
  · rw [(posted _).ring?]
    exact (putRing_ring? _ _ _).trans (if_pos rfl)
  · rw [(posted _).od small counted, count_self]
    rfl

end Block

/-- Settles O32: the header is read at its time, and what it counts depends on how often it has failed. -/
theorem failedHeaderPausesItsQueue : Obligations.FailedHeaderPausesItsQueue := by
  intro s n r hs ready hr number state tries left readable x e later sound goes bad
  have bad' : Block.headerGood r (leNat x.1) x.2.1 = false := by rw [sound]; exact bad
  have recheck := Block.headerRecheck_fails s.mem ready hr state tries left readable bad'
  have read : s.blk.ReadFrom x.2.2 := Block.readOwn_sound s.mem sound goes
  obtain ⟨k, moved, same⟩ := read
  refine ⟨fun early => ?_, fun late => ?_⟩
  · have exec_eq : exec (.headerRecheck n) s =
        finishRead s ((x.2.2.clocked later s.blk.rotor s.blk.turns).putRing { r with tries := r.tries + 1 }) := by
      show finishRead s (Block.headerRecheck s.mem s.blk n) = _
      rw [recheck]
      simp only [early, if_true]
      rfl
    obtain ⟨noWrite, unblocked, quiet, noneHeldAt, noneHeldRange, marks⟩ := hs
    rw [same] at exec_eq
    refine gives_of_finishRead exec_eq unblocked quiet ⟨?_, rfl, ?_, odOnly_quietEnd s _ _ fun _ _ _ _ => rfl, ?_⟩
    · exact (Block.putRing_ring? _ _ _).trans (if_pos number.symm)
    · show land s.mem s.blk.posted = _
      rw [noWrite]
      rfl
    · show { s.blk with posted := [], blocked := false } = s.blk
      rw [← noWrite, ← unblocked]
  · have exec_eq : exec (.headerRecheck n) s =
        finishRead s (Block.pauseRing s.mem (x.2.2.clocked later s.blk.rotor s.blk.turns) r e) := by
      show finishRead s (Block.headerRecheck s.mem s.blk n) = _
      rw [recheck]
      simp only [Nat.not_lt.2 late, if_false]
      rfl
    obtain ⟨ring, time, blocked, count⟩ := Block.pauseRing_paused s.mem (x.2.2.clocked later s.blk.rotor s.blk.turns) r e
    refine works_of_finishRead exec_eq (blocked.trans goes) ⟨number ▸ ring, time, count.trans ?_⟩
    rw [same]
    rfl

end Sys2Proof.Machine

/-! ### Messages to peers and tiles that leave (R256, R257, R426, R437)

A message that is sent moves on at ports and peers, uses up injections, and counts its flits. A tile that leaves also
changes its flow, but never the flow's number. -/

namespace Sys2Proof.Machine

theorem map_updFirst_of_eq {α β : Type} (k : α → β) (p : α → Bool) (f : α → α) (h : ∀ x, k (f x) = k x) (xs : List α) :
    (updFirst p f xs).map k = xs.map k := by
  induction xs with
  | nil => rfl
  | cons x xs ih =>
    unfold updFirst
    split
    · simp [h]
    · simp [ih]

namespace Block

theorem flow?_none_iff (b : Block) (id : Nat) : b.flow? id = none ↔ id ∉ b.flows.map (·.id) := by
  simp [flow?, List.find?_eq_none]

/-- c is b after messages were sent to peers. -/
def Sends (b c : Block) : Prop :=
  (∃ od sy inj, c = { b with od := od, seryo := sy, faults := { b.faults with injections := inj } }) ∧
    ∀ i j, j < 256 → (i, j) ≠ (0x2704, 1) → c.od' i j = b.od' i j

theorem SentFrom.sends {b c : Block} (h : b.SentFrom c) : b.Sends c := by
  obtain ⟨_, _, rfl⟩ := h
  exact ⟨⟨_, _, _, rfl⟩, fun _ _ _ _ => rfl⟩

theorem Sends.refl (b : Block) : b.Sends b := (SentFrom.refl b).sends

theorem Sends.trans {b c d : Block} (h : b.Sends c) (h' : c.Sends d) : b.Sends d := by
  obtain ⟨⟨_, _, _, rfl⟩, keep⟩ := h
  obtain ⟨⟨_, _, _, rfl⟩, keep'⟩ := h'
  exact ⟨⟨_, _, _, rfl⟩, fun i j hj hij => (keep' i j hj hij).trans (keep i j hj hij)⟩

theorem sendData_sends (b : Block) (n : Nat) (t : TxFlit) : b.Sends (b.sendData n t) := by
  have launched (p : Port) (hdr : Nat) (d : Bytes) : b.Sends ((b.putPort p).launch n hdr d) :=
    SentFrom.sends (.trans ⟨_, b.faults.injections, rfl⟩ (launch_sentFrom ..))
  have counted (c : Block) : c.Sends (c.count 0x2704 1 1) :=
    ⟨⟨_, _, _, rfl⟩, fun i j hj h => count_od'_of_ne _ _ hj (by decide) h (by decide) (by decide)⟩
  exact (launched _ _ _).trans (counted _)

theorem pumpN_sends (fuel : Nat) (b : Block) (n : Nat) : b.Sends (pumpN fuel b n) := by
  induction fuel generalizing b with
  | zero => exact .refl b
  | succ fuel ih =>
    unfold pumpN
    split
    · split
      · exact .refl b
      · exact (sendData_sends ..).trans (ih _)
    · exact .refl b

theorem sendOn_sends (b : Block) (n cls : Nat) (msg : Bytes) : b.Sends (b.sendOn n cls msg) := by
  have queued (p : Port) : b.SentFrom (b.putPort p) := ⟨_, b.faults.injections, rfl⟩
  exact (queued _).sends.trans (pumpN_sends _ _ n)

theorem modPeer_sends (b : Block) (p : Nat) (g : Peer → Peer) : b.Sends (b.modPeer p g) :=
  SentFrom.sends ⟨_, b.faults.injections, rfl⟩

theorem sendTo_sends (b : Block) (p : Nat) (s : SentMsg) : b.Sends (b.sendTo p s) :=
  (modPeer_sends b p _).trans (sendOn_sends ..)

theorem sendMsg_sends (b : Block) (dst mtype hash : Nat) (body : Bytes) : b.Sends (b.sendMsg dst mtype hash body).2 := by
  unfold sendMsg
  dsimp only
  split
  · exact .refl b
  · split
    · exact .refl b
    · dsimp only
      generalize (if (mtype == mtGrantReq) = true then _ else hash) = row
      split_ifs
      · exact modPeer_sends ..
      · exact (modPeer_sends b dst _).trans (sendTo_sends ..)

theorem returnGrant_sends (b : Block) (peer q sat flow : Nat) : b.Sends (b.returnGrant peer q sat flow) := by
  unfold returnGrant
  split
  · exact .refl b
  · exact sendMsg_sends ..

theorem sendTile_sends (b : Block) (peer q sat : Nat) (t : Tile) : b.Sends (b.sendTile peer q sat t).2 := by
  unfold sendTile
  exact List.foldlRecOn (motive := fun (x : Nat × Block) => b.Sends x.2) _ _ (.refl b) fun _ sent _ _ => sent.trans (sendMsg_sends ..)

theorem returnGrants_sends (b : Block) (f : Flow) : b.Sends (b.returnGrants f) := by
  unfold returnGrants
  exact List.foldlRecOn (motive := b.Sends) _ _ (.refl b) fun _ sent _ _ => sent.trans (returnGrant_sends ..)

/-- What a flow's place in its wing's work is told by: its number and the tiles that the vector engine has formed. -/
def formedKey (f : Flow) : Nat × Nat := (f.id, f.tilesFormed)

/-- c is b after tiles that leave were moved on. -/
def TilesMoved (b c : Block) : Prop :=
  (∃ od sy inj fs st, c = { b with
      od := od, seryo := sy, faults := { b.faults with injections := inj }, flows := fs, streams := st }) ∧
    c.flows.map formedKey = b.flows.map formedKey ∧ ∀ i j, j < 256 → (i, j) ≠ (0x2704, 1) → c.od' i j = b.od' i j

theorem Sends.tilesMoved {b c : Block} (h : b.Sends c) : b.TilesMoved c := by
  obtain ⟨⟨_, _, _, rfl⟩, keep⟩ := h
  exact ⟨⟨_, _, _, _, _, rfl⟩, rfl, keep⟩

theorem TilesMoved.refl (b : Block) : b.TilesMoved b := (Sends.refl b).tilesMoved

theorem TilesMoved.trans {b c d : Block} (h : b.TilesMoved c) (h' : c.TilesMoved d) : b.TilesMoved d := by
  obtain ⟨⟨_, _, _, _, _, rfl⟩, ids, keep⟩ := h
  obtain ⟨⟨_, _, _, _, _, rfl⟩, ids', keep'⟩ := h'
  exact ⟨⟨_, _, _, _, _, rfl⟩, ids'.trans ids, fun i j hj hij => (keep' i j hj hij).trans (keep i j hj hij)⟩

theorem TilesMoved.ids {b c : Block} (h : b.TilesMoved c) : c.flows.map (·.id) = b.flows.map (·.id) := by
  have numbers (fs : List Flow) : fs.map (·.id) = (fs.map formedKey).map (·.1) := by rw [List.map_map]; rfl
  rw [numbers, numbers, h.2.1]

/-- A flow changed in place that keeps its number and its tiles. -/
theorem modFlow_tilesMoved (b : Block) (id : Nat) {g : Flow → Flow} (h : ∀ f, formedKey (g f) = formedKey f) : b.TilesMoved (b.modFlow id g) :=
  ⟨⟨_, _, _, _, _, rfl⟩, map_updFirst_of_eq _ _ _ h _, fun _ _ _ _ => rfl⟩

theorem note_tilesMoved (b : Block) (id status : Nat) : b.TilesMoved (b.note id status) :=
  modFlow_tilesMoved b id fun f => by split <;> rfl

theorem dropClaim_tilesMoved (b : Block) (cs : List GrantClaim) :
    b.TilesMoved { b with streams := { b.streams with claims := cs } } :=
  ⟨⟨_, _, _, _, _, rfl⟩, rfl, fun _ _ _ _ => rfl⟩

theorem loseTile_tilesMoved (b : Block) (c : GrantClaim) (t : Tile) : b.TilesMoved (b.loseTile c t) :=
  (dropClaim_tilesMoved b _).trans (modFlow_tilesMoved _ _ fun f => by unfold lostTile; split <;> rfl)

theorem askGrant_tilesMoved (b : Block) (id peer q rows bytes : Nat) : b.TilesMoved (b.askGrant id peer q rows bytes) := by
  unfold askGrant
  split
  · exact .refl b
  · split
    · exact .refl b
    · dsimp only
      split
      · exact .refl b
      · exact (sendMsg_sends ..).tilesMoved.trans (modFlow_tilesMoved _ _ fun _ => rfl)

theorem moveTile_tilesMoved (b : Block) (c : GrantClaim) : b.TilesMoved (b.moveTile c) := by
  unfold moveTile
  split
  case _ t _ _ _ _ _ _ =>
    split
    · exact .refl b
    · dsimp only
      have kept (g : Flow → Flow) (h : ∀ f, formedKey (g f) = formedKey f) : b.TilesMoved (b.modFlow t.flow g) := modFlow_tilesMoved b _ h
      split
      · exact .refl b
      split
      · exact (loseTile_tilesMoved ..).trans (note_tilesMoved ..)
      split
      · exact loseTile_tilesMoved ..
      split
      · split
        · exact askGrant_tilesMoved ..
        · exact .refl b
      split
      · refine (kept _ ?_).trans (loseTile_tilesMoved ..)
        exact fun _ => rfl
      · refine (kept _ ?_).trans ((sendTile_sends ..).tilesMoved.trans
          ((dropClaim_tilesMoved _ _).trans (modFlow_tilesMoved _ _ ?_)))
        · exact fun _ => rfl
        · exact fun _ => rfl
  · exact .refl b

theorem moveTiles_tilesMoved (b : Block) (id : Nat) : b.TilesMoved (b.moveTiles id) :=
  List.foldlRecOn (motive := b.TilesMoved) _ _ (.refl b) fun _ moved _ _ => moved.trans (moveTile_tilesMoved ..)

theorem moveAllTiles_tilesMoved (b : Block) : b.TilesMoved b.moveAllTiles :=
  List.foldlRecOn (motive := b.TilesMoved) _ _ (.refl b) fun _ moved _ _ => moved.trans (moveTiles_tilesMoved ..)

end Block
end Sys2Proof.Machine

/-! ### Where memory's answers come from (R318, R319, R324, R349, R488)

Which agents are present, what the share windows hold and whether the link is up is read from five indices of the
dictionary and from the agents. Whatever leaves these alone leaves every access of memory as it was. -/

namespace Sys2Proof.Machine

/-- An agent of a tier, or the host link, is one of the first 280 units. -/
theorem agentOf_lt {a : Nat} (h : inTier a = true) : agentOf a < 280 := by
  have channel := channelOf_lt ((a - Config.fastStart) % Config.stackBytes / 4096)
  unfold agentOf
  split_ifs with fast bulk
  · rw [inFast_iff] at fast
    have stack : stackOf a < 8 := by
      unfold stackOf
      rw [Nat.div_lt_iff_lt_mul (by decide)]
      omega
    omega
  · unfold bulkOf
    have : (a - Config.bulkStart) / Config.bulkBytes < 24 := by
      unfold inBulk at bulk
      simp only [Bool.and_eq_true, decide_eq_true_eq] at bulk
      rw [Nat.div_lt_iff_lt_mul (by decide)]
      omega
    omega
  · simp [inTier, fast, bulk] at h

namespace Block

/-- Memory answers in c as it does in b, but for the units' errors. -/
structure SameMap (b c : Block) : Prop where
  queue : c.agents.queue = b.agents.queue
  began : c.agents.began = b.agents.began
  retrains : c.agents.retrains = b.agents.retrains
  od : ∀ i j, j < 256 → i = 0x1000 ∨ i = 0x2202 ∨ i = 0x2500 ∨ i = 0x2502 ∨ i = 0x2802 → c.od' i j = b.od' i j

namespace SameMap
variable {b c : Block} (h : b.SameMap c)
include h

theorem hostUp : c.hostUp = b.hostUp := by
  unfold Block.hostUp
  rw [h.od 0x2202 2 (by decide) (by simp), h.od 0x2202 1 (by decide) (by simp)]

theorem absent (a : Nat) : c.absent a = b.absent a := by
  unfold Block.absent
  by_cases tier : inTier a
  · have := agentOf_lt tier
    unfold agentUp
    rw [h.od 0x1000 _ (by omega) (by simp), h.od 0x2802 _ (by omega) (by simp)]
  · simp [tier]

theorem absentRange (a len : Nat) : c.absentRange a len = b.absentRange a len := by
  unfold Block.absentRange
  simp only [h.absent]

theorem stackHeld (a : Nat) : c.stackHeld a = b.stackHeld a := by
  unfold Block.stackHeld
  rw [h.retrains]

theorem stackOut (a : Nat) : c.stackOut a = b.stackOut a := by
  unfold Block.stackOut
  rw [h.retrains]

theorem shareBudget (key : Nat) : c.shareBudget key = b.shareBudget key := by
  unfold Block.shareBudget
  split_ifs
  · rw [h.od 0x2500 5 (by decide) (by simp), h.od 0x2502 _ (by omega) (by simp), h.od 0x2500 2 (by decide) (by simp)]
  · rw [h.od 0x2500 6 (by decide) (by simp)]

theorem shareRoom (a cost : Nat) : c.shareRoom a cost = b.shareRoom a cost := by
  unfold Block.shareRoom
  rw [h.absent, h.stackOut, h.shareBudget, h.began]

theorem ownWaits (a len : Nat) : c.ownWaits a len = b.ownWaits a len := by
  unfold Block.ownWaits Block.atPort
  rw [h.stackHeld, h.shareRoom, h.queue]

theorem lands (hpoison : c.agents.poisoned = b.agents.poisoned) (hfail : c.agents.failing = b.agents.failing) {a len : Nat}
    (hb : b.Lands a len) : c.Lands a len := by
  obtain ⟨some, lands⟩ := hb
  refine ⟨some, ?_⟩
  rw [h.hostUp, h.ownWaits, h.absentRange, h.stackOut, hpoison, hfail]
  exact lands

end SameMap

/-! ### A record that its ring has room for (R146 to R151) -/

/-- What a completing flow gives up leaves alone all but its tallies' counters, the row cache, streams, wings and ports. -/
def GivesUp (b c : Block) : Prop :=
  (∃ od sy inj ca st no so, c = { b with
      od := od, seryo := sy, faults := { b.faults with injections := inj },
      cache := ca, streams := st, north := no, south := so }) ∧
    ∀ i j, j < 256 → i ≠ 0x2400 → (i, j) ≠ (0x2603, 1) → (i, j) ≠ (0x2704, 1) → c.od' i j = b.od' i j

theorem giveUp_givesUp (b : Block) (f : Flow) : b.GivesUp (b.giveUp f) := by
  unfold giveUp
  dsimp only
  generalize hb1 : ((((b.count 0x2400 1 f.sat).count 0x2400 2 f.esc).count 0x2400 3 f.nanGroups).count 0x2400 4
    f.fullCount).count 0x2603 1 (b2n (f.late b.time)) = b1
  have counted : (∃ od, b1 = { b with od := od }) ∧ ∀ i j, j < 256 → i ≠ 0x2400 → (i, j) ≠ (0x2603, 1) → b1.od' i j = b.od' i j := by
    refine ⟨⟨b1.od, by rw [← hb1]; rfl⟩, fun i j hj tally late => ?_⟩
    have other (k : Nat) : (i, j) ≠ (0x2400, k) := fun same => tally (congrArg Prod.fst same)
    rw [← hb1, count_od'_of_ne _ _ hj (by decide) late (by decide) (by decide)]
    iterate 4 rw [count_od'_of_ne _ _ hj (by decide) (other _) (by decide) (by decide)]
  obtain ⟨⟨od, rfl⟩, keep⟩ := counted
  obtain ⟨ca, st, no, so, chain⟩ : ∃ ca st no so, (((({ b with od := od } : Block).discardAfter f.id).freeSatchels
      f.id).endTurn f.id).dropWork f.id = { b with od := od, cache := ca, streams := st, north := no, south := so } :=
    ⟨_, _, _, _, rfl⟩
  rw [chain]
  obtain ⟨⟨_, _, _, same⟩, sent⟩ := returnGrants_sends
    { b with od := od, cache := ca, streams := st, north := no, south := so } f
  exact ⟨⟨_, _, _, _, _, _, _, same⟩, fun i j hj tally late flit => (sent i j hj flit).trans (keep i j hj tally late)⟩

theorem GivesUp.sameMap {b c : Block} (h : b.GivesUp c) : b.SameMap c := by
  obtain ⟨⟨_, _, _, _, _, _, _, rfl⟩, keep⟩ := h
  refine ⟨rfl, rfl, rfl, fun i j hj hi => keep i j hj ?_ ?_ ?_⟩
  · rintro rfl; simp at hi
  · intro same; obtain ⟨rfl, -⟩ := Prod.mk.inj same; simp at hi
  · intro same; obtain ⟨rfl, -⟩ := Prod.mk.inj same; simp at hi

theorem settleRing_same (b : Block) (n : Nat) :
    (b.settleRing n).posted = b.posted ∧ (b.settleRing n).cqs = b.cqs ∧ (b.settleRing n).flows = b.flows := by
  unfold settleRing dropRing
  split
  · exact ⟨rfl, rfl, rfl⟩
  · split
    · split <;> exact ⟨rfl, rfl, rfl⟩
    · exact ⟨rfl, rfl, rfl⟩

/-- A record posted to a ring that has room, with none waiting before it and no interrupt to bring, where it lands at
once. -/
theorem postRecord_lands (m : Memory) {b : Block} {w : WaitingRecord} {c : CompRing} (hlog : w.logged = false)
    (hc : b.cq? w.cq = some c) (hnumber : c.number = w.cq) (hfull : c.isFull = false) (hnone : ∀ x ∈ b.waiting, x.cq ≠ w.cq)
    (hirq : c.irqEn = false) (hlands : b.Lands (c.base + 16 * c.wr) 16) :
    (⟨c.base + 16 * c.wr, natLE 16 (recordBits w c.phase (b.headOf w.sq))⟩ : Store) ∈ (postRecord m b w).posted ∧
      ∃ time, (postRecord m b w).cq? w.cq = some (pastRecord c time) := by
  have first : b.waiting.any (fun x => x.cq == w.cq) = false := by simpa using hnone
  have written : postRecord m b w = b.writeRecord c w := by
    unfold postRecord
    simp [hlog, hc, hfull, first]
  have lands : b.Lands (c.base + 16 * c.wr) (natLE 16 (recordBits w c.phase (b.headOf w.sq))).length := by
    rw [natLE_length]
    exact hlands
  obtain ⟨d, put, posted, -, -⟩ := ownPut_lands lands []
  rw [written, writeRecord_eq, ownWrite_nil, put]
  have quiet (time : Nat) : (pastRecord c time).irqEn = false := hirq
  simp only [quiet, Bool.false_and, Bool.false_eq_true, if_false]
  refine ⟨?_, d.time, ?_⟩
  · show _ ∈ d.posted
    rw [posted]
    simp
  · exact (putCq_cq? _ _ _).trans (if_pos hnumber.symm)

end Block

/-- Settles O33: what the flow gives up leaves memory and the rings alone, so that its record lands as it would have. -/
theorem completedFlowLeavesItsRecord : Obligations.CompletedFlowLeavesItsRecord := by
  intro s id f hs ready hf done
  have number : f.id = id := by simpa using List.find?_some hf
  have gone := Block.giveUp_givesUp s.blk f
  generalize hb1 : s.blk.giveUp f = b1 at gone
  generalize hb2 : (if f.status s.blk.time != stOk || f.complete then Block.postRecord s.mem b1 (s.blk.recordOf f) else b1) = b2
  have work : Block.complete s.mem s.blk id = ((b2.dropFlow id).settleRing f.ring).moveAllTiles := by
    unfold Block.complete
    simp only [hf, ready, done, hb1, hb2, Bool.not_true, Bool.or_self, Bool.false_eq_true, if_false]
  obtain ⟨noWrite, rings, flows⟩ := Block.settleRing_same (b2.dropFlow id) f.ring
  have ids := (Block.moveAllTiles_tilesMoved ((b2.dropFlow id).settleRing f.ring)).ids
  obtain ⟨⟨_, _, _, _, _, same⟩, -⟩ := Block.moveAllTiles_tilesMoved ((b2.dropFlow id).settleRing f.ring)
  refine ⟨_, show finish s (Block.complete s.mem s.blk id) = _ from rfl, ?_, ?_⟩
  · rw [work, Block.flow?_none_iff, ids, flows]
    simp [Block.dropFlow]
  · intro c record logged hc hnumber room none irq lands
    have posts : b2 = Block.postRecord s.mem b1 (s.blk.recordOf f) := by
      rw [← hb2, if_pos (by simpa [stOk] using record)]
    have map := gone.sameMap
    obtain ⟨⟨_, _, _, _, _, _, _, hb⟩, -⟩ := gone
    have head : b1.headOf f.ring = s.blk.headOf f.ring := by rw [hb]; rfl
    obtain ⟨written, time, ring⟩ := Block.postRecord_lands s.mem (b := b1) (w := s.blk.recordOf f) logged
      (by rw [hb]; exact hc) hnumber room (by rw [hb]; exact none) irq (map.lands (by rw [hb]) (by rw [hb]) lands)
    rw [work, same]
    refine ⟨?_, Block.pastRecord c time, ?_, rfl, ?_⟩
    · show _ ∈ ((b2.dropFlow id).settleRing f.ring).posted
      rw [noWrite, ← head, posts]
      exact written
    · show Block.cq? { b2 with cqs := ((b2.dropFlow id).settleRing f.ring).cqs } f.cq = _
      rw [rings, posts]
      exact ring
    · simp [Block.pastRecord]

end Sys2Proof.Machine

/-! ### Reads of memory, byte by byte -/

namespace Sys2Proof.Machine

/-- What a write has put into memory is read back. -/
theorem memRead_write_same (m : Memory) (a : Nat) (d : Bytes) : memRead (memWrite m a d) a d.length = d := by
  refine List.ext_getElem? fun k => ?_
  by_cases hk : k < d.length
  · rw [memRead_getElem _ _ _ _ hk, memByte_write_in m a d k hk, List.getElem?_eq_getElem hk]
  · rw [List.getElem?_eq_none (by simpa using hk), List.getElem?_eq_none (by simpa using hk)]

/-- A command whose work leaves the block quiet gives what holds of that quiet end. -/
theorem gives_of_quietEnd {c : Instr} {s : State} {b : Block} {P : State → Prop} (h : exec c s = finish s b) (hq : b.Quiet)
    (hP : ∀ t, t = quietEnd s b → EndOf s b t → P t) : Gives c s P := by
  have same : landed s b.settle = quietEnd s b := Host.Outcome.next.inj (finish_quiet s b hq)
  exact gives_of_finish h hq (hP _ rfl (same ▸ landed_endOf hq.1 hq.2.1))

end Sys2Proof.Machine

/-! ### A write that meets nothing in its units (R322, R337) -/

namespace Sys2Proof.Machine

namespace Block

/-- Where no unit fails the memory reports none (R547). -/
theorem reported_none {b : Block} {a len : Nat} (h : ∀ u ∈ unitsOf a len, b.agents.failing.contains u = false) :
    b.reported a len = ([], b) := by
  have none : (unitsOf a len).filter (fun u => b.agents.failing.contains u) = [] :=
    List.filter_eq_nil_iff.2 fun u hu => by rw [h u hu]; decide
  unfold reported
  rw [none]
  rfl

/-- A write of units that do not fail, and that are sound or covered whole. -/
theorem tierWrite_clean {b : Block} {a : Nat} {data : Bytes} (hlen : 0 < data.length)
    (habs : b.absentRange a data.length = false) (hout : b.stackOut a = false)
    (hunits : ∀ u ∈ unitsOf a data.length, b.agents.failing.contains u = false ∧
      (b.agents.poisoned.contains u = true → coversUnit a data.length u = true)) :
    b.tierWrite a data = ((b.post a data).clearPoison a data.length).charge a (writeCost a data.length) := by
  have notEmpty : data.isEmpty = false := by cases data <;> simp_all
  have reportedNone : b.reported a data.length = ([], b) := reported_none fun u hu => (hunits u hu).1
  have covered : (b.badUnits a data.length).filter (fun u => !coversUnit a data.length u) = [] := by
    rw [List.filter_eq_nil_iff]
    intro u hu
    obtain ⟨unit, poisoned⟩ := List.mem_filter.1 hu
    simp [(hunits u unit).2 poisoned]
  unfold tierWrite
  simp only [notEmpty, habs, hout, reportedNone, List.append_nil, covered, Bool.or_self, Bool.false_eq_true, if_false,
    List.foldl_nil]

theorem unitSize_pos (a : Nat) : 256 ≤ unitSize a := by
  unfold unitSize
  split <;> decide

/-- A write of fewer than 256 bytes covers no unit whole. -/
theorem coversUnit_small {a len : Nat} (h : len < 256) (u : Nat) : coversUnit a len u = false := by
  have := unitSize_pos u
  unfold coversUnit
  simp only [Bool.and_eq_false_iff, decide_eq_false_iff_not]
  omega

/-- What a small write of the engine's own that lands at once leaves: the write, and the channel time it took. -/
theorem ownPut_small {b : Block} {a : Nat} {data : Bytes} (h : b.Lands a data.length) (small : data.length < 256) :
    ∃ g, b.ownPut a data [] = ({ b with posted := b.posted ++ [⟨a, data⟩], agents := g }, true) := by
  obtain ⟨hlen, ⟨host, up⟩ | ⟨tier, room, habs, hout, hunits⟩⟩ := h
  · exact ⟨b.agents, by simp [ownPut, host, up, post]⟩
  · have sound : ∀ u ∈ unitsOf a data.length, b.agents.failing.contains u = false ∧
        (b.agents.poisoned.contains u = true → coversUnit a data.length u = true) := fun u hu => by
      obtain covered | ⟨noPoison, noFail⟩ := hunits u hu
      · rw [coversUnit_small small] at covered
        cases covered
      · exact ⟨noFail, fun poison => absurd poison (by rw [noPoison]; decide)⟩
    have written : b.ownPut a data [] = (b.tierWrite a data, true) := by simp [ownPut, tier, room]
    rw [written, tierWrite_clean hlen habs hout sound]
    unfold charge
    split
    · exact ⟨_, rfl⟩
    · exact ⟨_, rfl⟩

/-- With none of a ring's records on their way nothing of its queue can bring the interrupt. -/
theorem attach_noneInto {p : AgentReq → Bool} {x : After} {q : List AgentReq} (h : ∀ r ∈ q, p r = false) :
    attach p x q = none := by
  induction q with
  | nil => rfl
  | cons r q ih =>
    unfold attach
    simp [ih fun r' hr' => h r' (List.mem_cons_of_mem _ hr'), h r List.mem_cons_self]

/-- The interrupt of a ring none of whose records is on its way, where it lands at once (R151). -/
theorem signalCq_lands {b : Block} {c : CompRing} (hlands : b.Lands c.msiAddr 4) (hnone : b.NoneInto c.base (16 * c.size)) :
    ∃ g, b.signalCq c = { b.putCq { c with since := 0, firstAt := none } with
      posted := b.posted ++ [⟨c.msiAddr, natLE 4 c.msiData⟩], agents := g } := by
  have lands : (b.putCq { c with since := 0, firstAt := none }).Lands c.msiAddr (natLE 4 c.msiData).length := by
    rw [natLE_length]
    exact hlands
  obtain ⟨g, put⟩ := ownPut_small lands (by rw [natLE_length]; decide)
  refine ⟨g, ?_⟩
  unfold signalCq interrupt
  rw [attach_noneInto (by exact hnone), put]
  rfl

/-- COAL_TIMEOUT of a ring with a record not yet signalled, none of its records on its way (R151). -/
theorem coalTimeout_lands {b : Block} {n t0 : Nat} {c : CompRing} (hc : b.cq? n = some c) (hfirst : c.firstAt = some t0)
    (hirq : c.irqEn = true) (htimed : c.coalUs ≠ 0) (hsound : c.stale = false) (hlands : b.Lands c.msiAddr 4)
    (hnone : b.NoneInto c.base (16 * c.size)) :
    ∃ g, b.coalTimeout n = { b.putCq { c with since := 0, firstAt := none } with
      time := max b.time (t0 + 1000 * c.coalUs), posted := b.posted ++ [⟨c.msiAddr, natLE 4 c.msiData⟩], agents := g } := by
  obtain ⟨g, signalled⟩ := signalCq_lands (b := { b with time := max b.time (t0 + 1000 * c.coalUs) }) hlands hnone
  refine ⟨g, .trans ?_ signalled⟩
  unfold coalTimeout
  simp [hc, hfirst, hirq, htimed, hsound]

/-! ### SW_HEAD read again by a ring that stays full (R150) -/

theorem settleRings_of_noneDraining {b : Block} (h : ∀ r ∈ b.rings, r.state ≠ .draining) : b.settleRings = b := by
  refine List.foldlRecOn (motive := fun c => c = b) _ _ rfl fun c hc n _ => ?_
  rw [hc]
  unfold settleRing
  split
  · rfl
  · next r found =>
    have : r.state ≠ .draining := h r (List.mem_of_find?_eq_some found)
    simp [this]

theorem drainCq_full {b : Block} {n : Nat} {c : CompRing} (hc : b.cq? n = some c) (hfull : c.isFull = true) (fuel : Nat) :
    drainCq fuel b n = b := by
  cases fuel with
  | zero => rfl
  | succ fuel =>
    unfold drainCq
    rw [hc]
    split
    · next c' w same _ =>
      obtain rfl := Option.some.inj same
      simp [hfull]
    · rfl

theorem rereadAndDrain_full (m : Memory) {b : Block} {n : Nat} {c : CompRing} (hc : b.cq? n = some c) (hn : c.number = n)
    (hbuiltIn : b.od' 0x2200 3 = 0) (hlt : b.od' 0x2200 9 < c.size) (hfull : (c.wr + 1) % c.size = b.od' 0x2200 9) :
    b.rereadAndDrain m n = b.putCq { c with swHead := b.od' 0x2200 9, readAt := b.time } := by
  have reread : b.rereadSwHead m n = b.putCq { c with swHead := b.od' 0x2200 9, readAt := b.time } := by
    unfold rereadSwHead readSwHead
    simp [hc, hbuiltIn, hlt]
  unfold rereadAndDrain
  dsimp only
  rw [reread]
  refine drainCq_full (c := { c with swHead := b.od' 0x2200 9, readAt := b.time })
    ((putCq_cq? _ _ _).trans (if_pos hn.symm)) ?_ _
  show ((c.wr + 1) % c.size == b.od' 0x2200 9 % c.size) = true
  rw [hfull, Nat.mod_eq_of_lt hlt]
  exact beq_self_eq_true _

end Block

/-- Settles O34: a ring that stays full only takes SW_HEAD; a ring with none of its records on their way signals at once. -/
theorem completionRingTimers : Obligations.CompletionRingTimers := by
  intro s n c hs hc number
  obtain ⟨noWrite, unblocked, quiet, -⟩ := hs
  obtain ⟨raised, heldBack, -⟩ := id quiet
  refine ⟨fun waits running builtIn below full => ?_, fun t0 first irq timed sound lands none => ?_⟩
  · obtain ⟨w, waiting, ours⟩ := waits
    have any : s.blk.waiting.any (fun w => w.cq == n) = true := List.any_eq_true.2 ⟨w, waiting, by simpa using ours⟩
    have work : Block.swHeadReread s.mem s.blk n =
        ({ s.blk with time := max s.blk.time (c.readAt + 1000) } : Block).putCq
          { c with swHead := s.blk.od' 0x2200 9, readAt := max s.blk.time (c.readAt + 1000) } := by
      unfold Block.swHeadReread
      simp only [hc, any, if_true]
      rw [Block.rereadAndDrain_full s.mem (b := { s.blk with time := max s.blk.time (c.readAt + 1000) }) hc number builtIn below full]
      exact Block.settleRings_of_noneDraining running
    refine gives_of_endOf (show exec (.swHeadReread n) s = finish s (Block.swHeadReread s.mem s.blk n) from rfl)
      (by rw [work]; exact raised) (by rw [work]; exact heldBack) fun t ends => ?_
    rw [work] at ends
    have time : t.blk.time = max s.blk.time (c.readAt + 1000) := ends.time
    refine ⟨time, ?_, ends.waiting, ?_, ends.odOnly fun _ _ _ _ => rfl⟩
    · rw [ends.cq?, time]
      exact (Block.putCq_cq? _ _ _).trans (if_pos number.symm)
    · rw [ends.mem]
      show land s.mem s.blk.posted = s.mem
      rw [noWrite]
      rfl
  · obtain ⟨g, work⟩ := Block.coalTimeout_lands hc first irq timed sound lands none
    have exec_eq : exec (.coalTimeout n) s = finish s (s.blk.coalTimeout n) := rfl
    rw [work] at exec_eq
    refine gives_of_quietEnd exec_eq (.congr quiet rfl rfl rfl fun _ => rfl) fun t quietly ends => ?_
    have mem : t.mem = memWrite s.mem c.msiAddr (natLE 4 c.msiData) := by
      rw [ends.mem]
      simp only [noWrite, List.nil_append]
      rfl
    refine ⟨ends.time, ?_, ?_, fun a out => ?_, ends.odOnly fun _ _ _ _ => rfl, ?_⟩
    · rw [ends.cq?]
      exact (Block.putCq_cq? _ _ _).trans (if_pos number.symm)
    · have read := memRead_write_same s.mem c.msiAddr (natLE 4 c.msiData)
      rw [natLE_length] at read
      rw [mem, read]
    · rw [mem, memByte_write_out _ _ _ _ (by rw [natLE_length]; exact out)]
    · rw [quietly]
      show { s.blk with posted := [], blocked := false } = s.blk
      rw [← noWrite, ← unblocked]

end Sys2Proof.Machine

/-! ### Reads of a port (R319, R322, R326, R330, R337) -/

namespace Sys2Proof.Machine

namespace Block

/-- What ROW_READ and BLOCK_READ read. -/
def portRead (m : Memory) (b : Block) (a len : Nat) : Bytes × Bool × Block :=
  if isHost a then readOwn m b a len else tierRead m b a len

theorem portRead_host (m : Memory) {b : Block} {a len : Nat} (hhost : isHost a = true) (hup : b.hostUp = true) :
    portRead m b a len = (memRead m a len, false, b) := by
  simp [portRead, readOwn, hhost, hup]

theorem portRead_tier (m : Memory) {b : Block} {a len : Nat} (htier : isHost a = false) :
    portRead m b a len = tierRead m b a len := by
  simp [portRead, htier]

section
variable {b : Block} {a len : Nat} (hlen : 0 < len) (hahead : b.rowOpAhead a len = false)
  (hheld : b.stackHeld a = false)
include hlen hahead hheld

/-- A read of present units, with room in the share window and no unit that fails, answers as the agents see memory. -/
theorem tierRead_clean (m : Memory) (hout : b.stackOut a = false) (habs : b.absentRange a len = false)
    (hroom : b.shareRoom a (readCost a len) = true) (hfail : ∀ u ∈ unitsOf a len, b.agents.failing.contains u = false) :
    tierRead m b a len = (agentView m b a len, !(b.badUnits a len).isEmpty,
      ((b.badUnits a len).foldl uncorrectable b).charge a (readCost a len)) := by
  unfold tierRead
  simp [Nat.ne_of_gt hlen, hahead, hheld, habs, hout, hroom, reported_none hfail]

/-- A read that touches an absent unit answers with poison and counts once (R319). -/
theorem tierRead_absent (m : Memory) (habs : b.absentRange a len = true) :
    ∃ d, d.length = len ∧ tierRead m b a len = (d, true, ({ b with freeCount := b.freeCount + 1 } : Block).count 0x2504 0x0C 1) := by
  refine ⟨_, ?_, by
    unfold tierRead
    simp only [Nat.ne_of_gt hlen, hahead, hheld, habs, Bool.or_self, Bool.true_or, if_true,
      Bool.false_eq_true, if_false, beq_iff_eq]
    rfl⟩
  simp

end

/-- Channel time is charged to the stack or channel of the address alone. -/
theorem charge_moved {b : Block} {a : Nat} (h : inTier a = true) (cost : Nat) :
    mapGet (b.charge a cost).agents.moved 0 (shareKey a) = mapGet b.agents.moved 0 (shareKey a) + cost := by
  unfold charge
  rw [if_pos h]
  exact mapGet_set_self ..

end Block

/-- The command reads as a port does, and keeps the answer. -/
theorem exec_portRead {c : Instr} {s : State} {a len : Nat} (h : c = .rowRead a len ∨ c = .blockRead a len)
    (hmap : a + len ≤ 2 ^ 52) : exec c s = finishRead s
      ((Block.portRead s.mem s.blk a len).2.2.answerRead (Block.portRead s.mem s.blk a len).1 (Block.portRead s.mem s.blk a len).2.1) := by
  have inside : beyondMap a len = false := by simpa [beyondMap] using hmap
  obtain rfl | rfl := h
  · show execRowRead a len s = _
    unfold execRowRead
    rw [inside]
    rfl
  · show execBlockRead a len s = _
    unfold execBlockRead
    rw [inside]
    rfl

/-- Settles O35: the read is a host read, a clean read of a tier, or one of an absent range. -/
theorem agentsAnswerReads : Obligations.AgentsAnswerReads := by
  intro s a len hs hmap hlen c hc
  have exec_eq := exec_portRead (s := s) hc hmap
  obtain ⟨noWrite, unblocked, quiet, -⟩ := hs
  have landsNone : land s.mem s.blk.posted = s.mem := by rw [noWrite]; rfl
  have frame : { s.blk with posted := [], blocked := false } = s.blk := by rw [← noWrite, ← unblocked]
  refine ⟨fun host up => ?_, fun tier ahead held out => ⟨fun present mapped room sound => ?_, fun absent => ?_⟩⟩
  · rw [Block.portRead_host s.mem host up] at exec_eq
    exact gives_of_finishRead exec_eq unblocked (.congr quiet rfl rfl rfl fun _ => rfl)
      ⟨rfl, rfl, landsNone, odOnly_quietEnd s _ [] fun _ _ _ _ => rfl, frame⟩
  · rw [Block.portRead_tier s.mem tier,
      Block.tierRead_clean hlen ahead held s.mem out present room sound] at exec_eq
    refine ⟨fun noneBad => ?_, fun bad => ?_⟩
    · rw [noneBad] at exec_eq
      have charged : ∃ g, s.blk.charge a (readCost a len) = { s.blk with agents := g } := by
        unfold Block.charge
        rw [if_pos mapped]
        exact ⟨_, rfl⟩
      have moved := Block.charge_moved (b := s.blk) mapped (readCost a len)
      obtain ⟨g, same⟩ := charged
      simp only [List.isEmpty_nil, Bool.not_true, List.foldl_nil, same] at exec_eq moved
      exact gives_of_finishRead exec_eq unblocked (.congr quiet rfl rfl rfl fun _ => rfl)
        ⟨rfl, rfl, moved, landsNone, odOnly_quietEnd s _ [] fun _ _ _ _ => rfl, frame⟩
    · have read := (Block.foldl_uncorrectable_readBy (s.blk.badUnits a len) s.blk).trans
        (Block.charge_readFrom _ a (readCost a len)).readBy
      refine works_of_finishRead exec_eq (read.wrote.blocked.trans unblocked) ⟨?_, ?_⟩
      · show (!(s.blk.badUnits a len).isEmpty) = true
        simpa using bad
      · obtain ⟨⟨_, _, _, _, same⟩, -⟩ := read
        rw [same]
        exact noWrite
  · obtain ⟨d, full, read⟩ := Block.tierRead_absent hlen ahead held s.mem absent
    have value := Block.count_self { s.blk with freeCount := s.blk.freeCount + 1 } 0x2504 0x0C 1
    have others (i j : Nat) (hj : j < 256) (other : (i, j) ∉ [(0x2504, 0x0C)]) :=
      Block.count_od'_of_ne { s.blk with freeCount := s.blk.freeCount + 1 } 1 hj (by decide)
        (by simpa using other : (i, j) ≠ (0x2504, 0x0C)) (by decide) (by decide)
    have states := (Block.count_portState { s.blk with freeCount := s.blk.freeCount + 1 } 1 · (i := 0x2504) (j := 0x0C)
      (by decide) (by decide) (by decide))
    obtain ⟨od, same⟩ : ∃ od, ({ s.blk with freeCount := s.blk.freeCount + 1 } : Block).count 0x2504 0x0C 1 =
      { s.blk with freeCount := s.blk.freeCount + 1, od := od } := ⟨_, rfl⟩
    rw [Block.portRead_tier s.mem tier, read, same] at exec_eq
    simp only [same] at value others states
    refine gives_of_finishRead exec_eq unblocked (.congr quiet rfl rfl rfl states)
      ⟨full, rfl, ?_, landsNone, odOnly_quietEnd s _ _ others, frame⟩
    rw [quietEnd_od _ _ _ _ (by decide)]
    exact value

end Sys2Proof.Machine

/-! ### What a port's step is (R324, R326, R349, R378) -/

namespace Sys2Proof.Machine

/-- b but for the waits at share keys. -/
def Block.turned (b : Block) (ws : List (Nat × Nat)) : Block := { b with agents := { b.agents with shareWaits := ws } }

/-- Where nothing waits at a share key, an access has its turn. -/
theorem shareDone_of_noneWait {b : Block} (h : b.agents.shareWaits = []) (c : Block) (r : AgentReq) :
    ∃ ws, shareDone b c r = .ok (c.turned ws) ∧ (r.flow = none → c.turned ws = c) := by
  have alone (key id : Nat) : (b.shareClaims key id).length < 2 := by
    unfold Block.shareClaims
    rw [h]
    exact Nat.lt_of_le_of_lt (List.length_filterMap_le _ _) (by simp)
  have turns (id : Nat) : b.shareTurns c id = .ok (c.turned (c.agents.shareWaits.filter (fun w => w.2 != id))) := by
    unfold Block.shareTurns
    refine congrArg (Except.map _) (?_ : _ = Except.ok c)
    refine List.foldlRecOn (motive := fun x => x = Except.ok c) _ _ rfl fun x hx key _ => ?_
    have one : b.shareTurn c id key = some c := by
      unfold Block.shareTurn
      simp [alone key id]
    simp only [hx, one]
  unfold shareDone
  cases found : r.flow.bind b.flow? with
  | none => exact ⟨c.agents.shareWaits, rfl, fun _ => rfl⟩
  | some f =>
    refine ⟨_, turns f.id, fun none => ?_⟩
    rw [none] at found
    cases found

/-- The oldest request of a port, which may be performed, is. -/
theorem portStep_performed {s : State} {port : Nat} {r : AgentReq} {c : Block}
    {perform : Memory → Block → AgentReq → Option Block} (hnone : s.blk.agents.shareWaits = [])
    (hfront : s.blk.front port = some r) (hheld : (port == Config.hostPort && s.blk.hostHolds) = false)
    (hparts : s.blk.partsWait r = false) (hlock : s.blk.lockWaits r = false)
    (hperform : perform s.mem (s.blk.popFront r) r = some c) (hwords : c.words = [])
    (hroom : s.blk.shareRoom (opCost r.op).1 (opCost r.op).2 = true) :
    ∃ ws, portStep s port perform = finish s (c.turned ws) ∧ (r.flow = none → c.turned ws = c) := by
  obtain ⟨ws, done, plain⟩ := shareDone_of_noneWait hnone c r
  refine ⟨ws, ?_, plain⟩
  have served : (c.turned ws).serveWords s.mem = c.turned ws := by
    unfold Block.serveWords
    have : (c.turned ws).words.isEmpty = true := by rw [show (c.turned ws).words = [] from hwords]; rfl
    simp [this]
  unfold portStep
  simp only [hfront, hheld, hparts, hlock, hperform, hroom, done, served, Bool.or_self, Bool.not_true, Bool.false_eq_true,
    if_false]

end Sys2Proof.Machine
/-! ### A write at its agent (R319, R337) -/

namespace Sys2Proof.Machine
namespace Block

/-- c is b with a run of bytes written at the agents: the write is the step's last, no unit that it covers is poisoned or
fails, and what it counts are the memory's errors. -/
structure Stores (b c : Block) (a : Nat) (d : Bytes) : Prop where
  blk : ∃ od raised k poisoned failing moved, c = { b with
    od := od, raised := raised, freeCount := k, posted := b.posted ++ [⟨a, d⟩],
    agents := { b.agents with poisoned := poisoned, failing := failing, moved := moved } }
  sound : ∀ u, coversUnit a d.length u = true → u ∉ c.agents.poisoned ∧ u ∉ c.agents.failing
  od : ∀ i j, j < 256 → (i, j) ∉ readKeys → c.od' i j = b.od' i j

theorem tierWrite_stores {b : Block} {a : Nat} {d : Bytes} (hd : d ≠ []) (habs : b.absentRange a d.length = false)
    (hout : b.stackOut a = false) : b.Stores (b.tierWrite a d) a d := by
  have empty : d.isEmpty = false := by simpa using hd
  have partly (us : List Nat) (c : Block) : (∃ od raised poisoned failing,
      us.foldl (fun b u => (b.uncorrectable u).storePoisoned u) c = { c with
        od := od, raised := raised, agents := { c.agents with poisoned := poisoned, failing := failing } }) ∧
      ∀ i j, j < 256 → (i, j) ∉ readKeys →
        (us.foldl (fun b u => (b.uncorrectable u).storePoisoned u) c).od' i j = c.od' i j := by
    induction us generalizing c with
    | nil => exact ⟨⟨_, _, _, _, rfl⟩, fun _ _ _ _ => rfl⟩
    | cons u us ih =>
      obtain ⟨⟨_, _, _, _, same⟩, keep⟩ := ih ((c.uncorrectable u).storePoisoned u)
      exact ⟨⟨_, _, _, _, same⟩, fun i j hj h => (keep i j hj h).trans ((uncorrectable_readBy c u).2 i j hj h)⟩
  obtain ⟨k, _, found⟩ := reported_readFrom b a d.length
  unfold tierWrite
  simp only [empty, habs, hout, Bool.or_self, Bool.false_eq_true, if_false]
  rw [found]
  obtain ⟨⟨_, _, poisoned, failing, same⟩, keep⟩ := partly ((({ b with
      freeCount := k, agents := { b.agents with moved := _ } } : Block).badUnits a d.length ++
    (b.reported a d.length).1).filter (fun u => !coversUnit a d.length u)) _
  rw [same] at keep ⊢
  obtain ⟨_, _, charged⟩ := charge_readFrom (clearPoison (post { b with
    od := _, raised := _, freeCount := k,
    agents := { b.agents with moved := _, poisoned := poisoned, failing := failing } } a d) a d.length) a (writeCost a d.length)
  rw [charged]
  refine ⟨⟨_, _, _, _, _, _, rfl⟩, fun u covered => ?_, keep⟩
  constructor
  · show u ∉ poisoned.filter (fun u => !coversUnit a d.length u)
    simp [covered]
  · show u ∉ failing.filter (fun u => !coversUnit a d.length u)
    simp [covered]

end Block
end Sys2Proof.Machine

/-! ### Provisional copies fetched anew behind a write (R172, R298) -/

namespace Sys2Proof.Machine
namespace Block

/-- What refetching may count: the copies, lines forced back, and bit errors of the row cache. -/
def refetchKeys : List (Nat × Nat) := [(0x2602, 4), (0x2303, 7), (0x2504, 5), (0x2504, 6)]

/-- c is b after provisional copies were fetched anew: dirty lines may have joined their agents' queues. -/
def Refetched (b c : Block) : Prop :=
  (∃ od raised flows cache north south more moved, c = { b with
    od := od, raised := raised, flows := flows, cache := cache, north := north, south := south,
    agents := { b.agents with queue := b.agents.queue ++ more, moved := moved } }) ∧
    ∀ i j, j < 256 → (i, j) ∉ refetchKeys → c.od' i j = b.od' i j

theorem Refetched.refl (b : Block) : b.Refetched b :=
  ⟨⟨_, _, _, _, _, _, [], _, by rw [List.append_nil]⟩, fun _ _ _ _ => rfl⟩

theorem Refetched.trans {b c d : Block} (h : b.Refetched c) (h' : c.Refetched d) : b.Refetched d := by
  obtain ⟨⟨_, _, _, _, _, _, _, _, rfl⟩, keep⟩ := h
  obtain ⟨⟨_, _, _, _, _, _, _, _, rfl⟩, keep'⟩ := h'
  exact ⟨⟨_, _, _, _, _, _, _, _, by rw [List.append_assoc]⟩, fun i j hj hij => (keep' i j hj hij).trans (keep i j hj hij)⟩

theorem count_refetched (b : Block) {i j : Nat} (n : Nat) (h : (i, j) ∈ refetchKeys) : b.Refetched (b.count i j n) := by
  have entry : j < 256 ∧ odKey i j ≠ odKey 0x1000 6 ∧ odKey i j ≠ odKey 0x2700 1 := by fin_cases h <;> decide
  exact ⟨⟨_, _, _, _, _, _, [], _, by rw [List.append_nil]; rfl⟩, fun i' j' hj' h' =>
    count_od'_of_ne _ _ hj' entry.1 (fun same => h' (same ▸ h)) entry.2.1 entry.2.2⟩

theorem setLines_refetched (b : Block) (ls : List Line) : b.Refetched (b.setLines ls) :=
  ⟨⟨_, _, _, _, _, _, [], _, by rw [List.append_nil]; rfl⟩, fun _ _ _ _ => rfl⟩

theorem found_refetched (b : Block) (cls unit addr : Nat) (injected : Bool) : b.Refetched (b.found cls unit addr injected) :=
  ⟨⟨_, _, _, _, _, _, [], _, by rw [List.append_nil]; rfl⟩, fun _ _ _ _ => rfl⟩

theorem charge_refetched (b : Block) (a cost : Nat) : b.Refetched (b.charge a cost) := by
  obtain ⟨_, _, same⟩ := charge_readFrom b a cost
  unfold charge at same ⊢
  split
  · exact ⟨⟨_, _, _, _, _, _, [], _, by rw [List.append_nil]⟩, fun _ _ _ _ => rfl⟩
  · exact .refl b

theorem dirtyRead_refetched (b : Block) (l : Line) : b.Refetched (b.dirtyRead l) := by
  unfold dirtyRead
  split_ifs
  · exact (count_refetched b 1 (by decide)).trans (found_refetched ..)
  · exact count_refetched b 1 (by decide)
  · exact .refl b

theorem sendBack_refetched (b : Block) (l : Line) : b.Refetched (b.sendBack l) := by
  have asked (c : Block) : c.Refetched (c.request
      { port := agentOf l.addr, flow := none, op := .writeBack l.addr l.data (l.err == 2), remote := none }) :=
    ⟨⟨_, _, _, _, _, _, _, _, rfl⟩, fun _ _ _ _ => rfl⟩
  exact (dirtyRead_refetched b l).trans ((asked _).trans (setLines_refetched ..))

theorem forceBack_refetched (b : Block) (a len : Nat) : b.Refetched (b.forceBack a len) :=
  List.foldlRecOn (motive := b.Refetched) _ _ (.refl b) fun _ back _ _ =>
    back.trans ((sendBack_refetched ..).trans (count_refetched _ 1 (by decide)))

theorem refetch_refetched (m : Memory) (b : Block) (a len n : Nat) : b.Refetched (b.refetch m a len n).2.2 :=
  (count_refetched b n (by decide)).trans ((forceBack_refetched ..).trans ((charge_refetched ..).trans (setLines_refetched ..)))

theorem writeSeen_refetched (m : Memory) (b : Block) (writer : Option Nat) (a len : Nat) :
    b.Refetched (b.writeSeen m writer a len) := by
  unfold writeSeen
  split
  · exact .refl b
  · split
    · exact .refl b
    · dsimp only
      have mapped (c : Block) (ids : List Nat) (g : RowCopy → RowCopy) : c.Refetched (c.mapCopies ids g) :=
        ⟨⟨_, _, _, _, _, _, [], _, by rw [List.append_nil]; rfl⟩, fun _ _ _ _ => rfl⟩
      exact List.foldlRecOn (motive := b.Refetched) _ _ (.refl b) fun c back x _ =>
        back.trans ((refetch_refetched ..).trans (mapped ..))

end Block
end Sys2Proof.Machine

/-! ### What follows a write of the engine's own (R151, R398, R493, R523) -/

namespace Sys2Proof.Machine
namespace Block

/-- c is b after what follows a write has run: it may write on, its requests stand, and no sound unit is lost. -/
structure Followed (b c : Block) : Prop where
  words : c.words = b.words
  heldBack : c.heldBack = b.heldBack
  posted : ∃ more, c.posted = b.posted ++ more
  queue : ∀ q ∈ b.agents.queue, ∃ r ∈ c.agents.queue, r.op = q.op ∧ r.flow = q.flow
  sound : ∀ u, u ∉ b.agents.poisoned → u ∉ b.agents.failing → u ∉ c.agents.poisoned ∧ u ∉ c.agents.failing

theorem Followed.refl (b : Block) : b.Followed b :=
  ⟨rfl, rfl, ⟨[], (List.append_nil _).symm⟩, fun q hq => ⟨q, hq, rfl, rfl⟩, fun _ h h' => ⟨h, h'⟩⟩

theorem Followed.trans {b c d : Block} (h : b.Followed c) (h' : c.Followed d) : b.Followed d where
  words := h'.words.trans h.words
  heldBack := h'.heldBack.trans h.heldBack
  posted := by
    obtain ⟨xs, hx⟩ := h.posted
    obtain ⟨ys, hy⟩ := h'.posted
    exact ⟨xs ++ ys, by rw [hy, hx, List.append_assoc]⟩
  queue q hq := by
    obtain ⟨r, hr, op, flow⟩ := h.queue q hq
    obtain ⟨r', hr', op', flow'⟩ := h'.queue r hr
    exact ⟨r', hr', op'.trans op, flow'.trans flow⟩
  sound u hp hf := (h'.sound u (h.sound u hp hf).1 (h.sound u hp hf).2)

theorem mem_attach {p : AgentReq → Bool} {x : After} {q q' : List AgentReq} (h : attach p x q = some q') {r : AgentReq}
    (hr : r ∈ q) : ∃ r' ∈ q', r'.op = r.op ∧ r'.flow = r.flow := by
  induction q generalizing q' with
  | nil => cases hr
  | cons y ys ih =>
    unfold attach at h
    split at h
    · next ys' later =>
      obtain rfl := Option.some.inj h
      obtain rfl | tail := List.mem_cons.1 hr
      · exact ⟨_, List.mem_cons_self, rfl, rfl⟩
      · obtain ⟨r', hr', same⟩ := ih later tail
        exact ⟨r', List.mem_cons_of_mem _ hr', same⟩
    · split_ifs at h
      obtain rfl := Option.some.inj h
      obtain rfl | tail := List.mem_cons.1 hr
      · exact ⟨_, List.mem_cons_self, rfl, rfl⟩
      · exact ⟨r, List.mem_cons_of_mem _ tail, rfl, rfl⟩

theorem enqueue_write_followed (b : Block) (port a : Nat) (d : Bytes) (crc : Option (Nat × Nat)) (after : List After) :
    b.Followed (b.request { port := port, flow := none, op := .blockWrite a d crc, remote := none, after := after }) :=
  ⟨rfl, rfl, ⟨[], (List.append_nil _).symm⟩, fun q hq => ⟨q, List.mem_append_left _ hq, rfl, rfl⟩, fun _ h h' => ⟨h, h'⟩⟩

theorem count_followed (b : Block) (i j n : Nat) : b.Followed (b.count i j n) :=
  ⟨rfl, rfl, ⟨[], (List.append_nil _).symm⟩, fun q hq => ⟨q, hq, rfl, rfl⟩, fun _ h h' => ⟨h, h'⟩⟩

/-- A unit stored as poisoned was poisoned, or failing, before. -/
theorem storePoisoned_followed {b c : Block} (h : b.Followed c) {u : Nat}
    (hu : u ∈ b.agents.poisoned ∨ u ∈ b.agents.failing) : b.Followed ((c.uncorrectable u).storePoisoned u) where
  words := h.words
  heldBack := h.heldBack
  posted := h.posted
  queue := h.queue
  sound v hp hf := by
    have other : v ≠ u := by rintro rfl; exact hu.elim hp hf
    obtain ⟨noPoison, noFail⟩ := h.sound v hp hf
    constructor
    · show v ∉ if c.agents.poisoned.contains u then c.agents.poisoned else c.agents.poisoned ++ [u]
      split <;> simp [noPoison, other]
    · show v ∉ c.agents.failing.filter (· != u)
      simp [noFail]

/-- A unit that a write finds in error was poisoned or failing before. -/
theorem tierWrite_followed (b : Block) (a : Nat) (d : Bytes) : b.Followed (b.tierWrite a d) := by
  have charged (c : Block) (x cost : Nat) : c.Followed (c.charge x cost) := by
    obtain ⟨_, _, same⟩ := charge_readFrom c x cost
    rw [same]
    exact ⟨rfl, rfl, ⟨[], (List.append_nil _).symm⟩, fun q hq => ⟨q, hq, rfl, rfl⟩, fun _ h h' => ⟨h, h'⟩⟩
  have landed (c : Block) : c.Followed ((c.post a d).clearPoison a d.length) :=
    ⟨rfl, rfl, ⟨[⟨a, d⟩], rfl⟩, fun q hq => ⟨q, hq, rfl, rfl⟩, fun u h h' =>
      ⟨fun mem => h (List.mem_of_mem_filter mem), fun mem => h' (List.mem_of_mem_filter mem)⟩⟩
  have stored (us : List Nat) (c : Block) (hc : b.Followed c) (hus : ∀ u ∈ us, u ∈ b.agents.poisoned ∨ u ∈ b.agents.failing) :
      b.Followed (us.foldl (fun b u => (b.uncorrectable u).storePoisoned u) c) := by
    induction us generalizing c with
    | nil => exact hc
    | cons u us ih =>
      exact ih _ (storePoisoned_followed hc (hus u List.mem_cons_self)) fun v hv => hus v (List.mem_cons_of_mem _ hv)
  obtain ⟨k, _, found⟩ := reported_readFrom b a d.length
  have failing : ∀ u ∈ (b.reported a d.length).1, u ∈ b.agents.failing := by
    unfold reported
    dsimp only
    split
    · simp
    · intro u hu
      simpa using (List.mem_filter.1 (List.mem_of_mem_filter hu)).2
  unfold tierWrite
  dsimp only
  split_ifs
  · exact .refl b
  · exact count_followed ..
  · refine .trans (stored _ _ ?_ fun u hu => ?_) ((landed _).trans (charged _ _ _))
    · rw [found]
      exact ⟨rfl, rfl, ⟨[], (List.append_nil _).symm⟩, fun q hq => ⟨q, hq, rfl, rfl⟩, fun _ h h' => ⟨h, h'⟩⟩
    · obtain bad | reported := List.mem_append.1 (List.mem_of_mem_filter hu)
      · rw [found] at bad
        exact .inl (by simpa using (List.mem_filter.1 bad).2)
      · exact .inr (failing u reported)

theorem ownPut_followed (b : Block) (a : Nat) (d : Bytes) (after : List After) : b.Followed (b.ownPut a d after).1 := by
  unfold ownPut
  dsimp only
  split_ifs
  · exact ⟨rfl, rfl, ⟨[⟨a, d⟩], rfl⟩, fun q hq => ⟨q, hq, rfl, rfl⟩, fun _ h h' => ⟨h, h'⟩⟩
  · exact enqueue_write_followed ..
  · exact count_followed ..
  · exact enqueue_write_followed ..
  · exact tierWrite_followed ..

theorem runAfter_followed (b : Block) (x : After) : b.Followed (b.runAfter x) := by
  have shown (i j v : Nat) : b.Followed (b.setOd i j v) :=
    ⟨rfl, rfl, ⟨[], (List.append_nil _).symm⟩, fun q hq => ⟨q, hq, rfl, rfl⟩, fun _ h h' => ⟨h, h'⟩⟩
  cases x with
  | interrupt ring len a d =>
    show b.Followed (b.interrupt ring len a d)
    unfold interrupt
    split
    · next q' found =>
      exact ⟨rfl, rfl, ⟨[], (List.append_nil _).symm⟩, fun _ hq => mem_attach found hq, fun _ h h' => ⟨h, h'⟩⟩
    · exact ownPut_followed ..
  | eventIndex => exact shown ..
  | orphanIndex => exact shown ..

theorem foldl_runAfter_followed (xs : List After) (b : Block) : b.Followed (xs.foldl runAfter b) := by
  induction xs generalizing b with
  | nil => exact .refl b
  | cons x xs ih => exact (runAfter_followed b x).trans (ih _)

end Block
end Sys2Proof.Machine

/-! ### BLOCK_WRITE at a tier, and the CRC word behind it (R325, R337, R340) -/

namespace Sys2Proof.Machine

theorem exists_mem_updFirst {α : Type} {p : α → Bool} {l : List α} (f : α → α) (h : l.any p = true) :
    ∃ x, p x = true ∧ f x ∈ updFirst p f l := by
  induction l with
  | nil => cases h
  | cons y ys ih =>
    unfold updFirst
    by_cases here : p y = true
    · exact ⟨y, here, by simp [here]⟩
    · obtain ⟨x, hx, mem⟩ := ih (by simpa [here] using h)
      exact ⟨x, hx, by simp [here, mem]⟩

namespace Block

theorem injected_faults {b : Block} (unit checker : Nat) :
    ∃ inj, (b.injected unit checker).2 = { b with faults := { b.faults with injections := inj } } := by
  unfold injected
  split
  · exact ⟨_, rfl⟩
  · exact ⟨b.faults.injections, rfl⟩

theorem injected_none {b : Block} (h : b.faults.injections = []) (unit checker : Nat) : b.injected unit checker = (false, b) := by
  simp [injected, h]

/-- A CRC_WRITE of a flow that puts v at w waits at an agent, or is held back. -/
def CrcAsked (b : Block) (flow : Option Nat) (w v : Nat) : Prop :=
  ∃ q ∈ b.agents.queue ++ b.heldBack, ∃ x y, q.op = .crcWrite x (y ++ natLE 4 v) ∧ x + y.length = w ∧ q.flow = flow

theorem requestCrc_asks (b : Block) (flow : Option Nat) (w v : Nat) : (b.requestCrc flow w v).CrcAsked flow w v ∧
    ∃ queue held, b.requestCrc flow w v = { b with heldBack := held, agents := { b.agents with queue := queue } } := by
  unfold requestCrc
  split
  · next joins =>
    refine ⟨?_, _, b.heldBack, rfl⟩
    obtain ⟨r, before, mem⟩ := exists_mem_updFirst (crcLonger v) joins
    refine ⟨_, List.mem_append_left _ mem, ?_⟩
    unfold crcBefore at before
    unfold crcLonger
    split at before
    · next c d op =>
      simp only [Bool.and_eq_true, beq_iff_eq] at before
      exact ⟨c, d, rfl, before.1.2, before.1.1⟩
    · cases before
  · unfold request
    split
    · exact ⟨⟨_, List.mem_append_right _ (List.mem_append_right _ List.mem_cons_self), w, [], rfl, rfl, rfl⟩, b.agents.queue, _, rfl⟩
    · exact ⟨⟨_, List.mem_append_left _ (List.mem_append_right _ List.mem_cons_self), w, [], rfl, rfl, rfl⟩, _, b.heldBack, rfl⟩

theorem CrcAsked.refetched {b c : Block} {flow : Option Nat} {w v : Nat} (h : b.CrcAsked flow w v) (hc : b.Refetched c) :
    c.CrcAsked flow w v := by
  obtain ⟨q, mem, asked⟩ := h
  obtain ⟨⟨_, _, _, _, _, _, more, _, rfl⟩, -⟩ := hc
  refine ⟨q, ?_, asked⟩
  rcases List.mem_append.1 mem with queued | held
  · exact List.mem_append_left _ (List.mem_append_left _ queued)
  · exact List.mem_append_right _ held

theorem CrcAsked.followed {b c : Block} {flow : Option Nat} {w v : Nat} (h : b.CrcAsked flow w v) (hc : b.Followed c) :
    c.CrcAsked flow w v := by
  obtain ⟨q, mem, x, y, op, place, owner⟩ := h
  rcases List.mem_append.1 mem with queued | held
  · obtain ⟨r, hr, op', flow'⟩ := hc.queue q queued
    exact ⟨r, List.mem_append_left _ hr, x, y, op'.trans op, place, flow'.trans owner⟩
  · exact ⟨q, List.mem_append_right _ (hc.heldBack ▸ held), x, y, op, place, owner⟩

/-- What BLOCK_WRITE brings behind its bytes: the CRC word, the copies that see them, what follows the write. -/
def behindWrite (m : Memory) (b : Block) (r : AgentReq) (a len : Nat) (crc : Option (Nat × Nat)) : Block :=
  let b1 := match crc with
    | none => b
    | some (w, v) =>
      let i := b.injected (((r.flow.bind b.flow?).map (fun (f : Flow) => f.su)).getD 0) 4
      i.2.requestCrc r.flow w (if i.1 then v ^^^ 1 else v)
  r.after.foldl runAfter (b1.writeSeen m r.flow a len)

theorem doBlockWrite_eq (m : Memory) (b : Block) {r : AgentReq} {a : Nat} {d : Bytes} {crc : Option (Nat × Nat)}
    (hop : r.op = .blockWrite a d crc) : doBlockWrite m b r =
      some (behindWrite m (if r.port == Config.hostPort then b.hostWrite r.flow a d else b.tierWrite a d) r a d.length crc) := by
  unfold doBlockWrite
  rw [hop]
  rfl

/-- A write of no flow that brings no CRC word and that nothing follows is its bytes alone. -/
theorem behindWrite_plain (m : Memory) (b : Block) {r : AgentReq} (hflow : r.flow = none) (hafter : r.after = []) (a len : Nat) :
    behindWrite m b r a len none = b := by
  unfold behindWrite
  rw [hflow, hafter]
  rfl

theorem behindWrite_written (m : Memory) (b : Block) (r : AgentReq) (a len : Nat) (crc : Option (Nat × Nat)) :
    let c := behindWrite m b r a len crc
    c.words = b.words ∧ (∃ more, c.posted = b.posted ++ more ∧ (r.after = [] → more = [])) ∧
      (∀ u, u ∉ b.agents.poisoned → u ∉ b.agents.failing → u ∉ c.agents.poisoned) ∧
      (∀ w v, crc = some (w, v) → b.faults.injections = [] → c.CrcAsked r.flow w v) := by
  obtain ⟨b1, written, words, posted, poisoned, failing, crcAsked⟩ : ∃ b1 : Block,
      behindWrite m b r a len crc = r.after.foldl runAfter (b1.writeSeen m r.flow a len) ∧
      b1.words = b.words ∧ b1.posted = b.posted ∧ b1.agents.poisoned = b.agents.poisoned ∧
      b1.agents.failing = b.agents.failing ∧
      ∀ w v, crc = some (w, v) → b.faults.injections = [] → b1.CrcAsked r.flow w v := by
    cases crc with
    | none => exact ⟨b, rfl, rfl, rfl, rfl, rfl, fun _ _ none => nomatch none⟩
    | some crc =>
      obtain ⟨w, v⟩ := crc
      unfold behindWrite
      dsimp only
      generalize ((r.flow.bind b.flow?).map (fun f : Flow => f.su)).getD 0 = su
      obtain ⟨inj, injected⟩ := injected_faults (b := b) su 4
      obtain ⟨asks, queue, held, requested⟩ :=
        requestCrc_asks (b.injected su 4).2 r.flow w (if (b.injected su 4).1 then v ^^^ 1 else v)
      refine ⟨_, rfl, ?_, ?_, ?_, ?_, fun w' v' same none => ?_⟩
      iterate 4 rw [requested, injected]
      obtain ⟨rfl, rfl⟩ := Prod.mk.inj (Option.some.inj same)
      rw [injected_none none] at asks ⊢
      exact asks
  have refetched := writeSeen_refetched m b1 r.flow a len
  have followed := foldl_runAfter_followed r.after (b1.writeSeen m r.flow a len)
  dsimp only
  rw [written]
  refine ⟨?_, ?_, fun u noPoison noFail => ?_, fun w v hcrc none => ((crcAsked w v hcrc none).refetched refetched).followed followed⟩
  all_goals obtain ⟨⟨_, _, _, _, _, _, _, _, same⟩, -⟩ := refetched
  · exact followed.words.trans (by rw [same]; exact words)
  · have first : (b1.writeSeen m r.flow a len).posted = b.posted := by rw [same]; exact posted
    obtain ⟨more, writes⟩ := followed.posted
    rw [first] at writes
    refine ⟨more, writes, fun none => ?_⟩
    have last : (r.after.foldl runAfter (b1.writeSeen m r.flow a len)).posted = b.posted := by rw [none]; exact first
    rw [last] at writes
    simpa using writes.symm
  · refine (followed.sound u ?_ ?_).1
    · rw [same]
      exact poisoned ▸ noPoison
    · rw [same]
      exact failing ▸ noFail

end Block
end Sys2Proof.Machine

/-! ### Flows that end, and their generations (R355 to R357, R377, R487) -/

namespace Sys2Proof.Machine
namespace Block

/-- c is b after flows have ended: the dictionary, flows, streams, wings and held effects may differ. -/
def FlowsEnd (b c : Block) : Prop :=
  ∃ od flows nx st north south held, c = { b with
    od := od, flows := flows, nextFlow := nx, streams := st, north := north, south := south, heldBack := held }

theorem FlowsEnd.refl (b : Block) : b.FlowsEnd b := ⟨_, _, _, _, _, _, _, rfl⟩

theorem FlowsEnd.trans {b c d : Block} (h : b.FlowsEnd c) (h' : c.FlowsEnd d) : b.FlowsEnd d := by
  obtain ⟨_, _, _, _, _, _, _, rfl⟩ := h
  obtain ⟨_, _, _, _, _, _, _, rfl⟩ := h'
  exact ⟨_, _, _, _, _, _, _, rfl⟩

theorem modFlow_flowsEnd (b : Block) (id : Nat) (g : Flow → Flow) : b.FlowsEnd (b.modFlow id g) := ⟨_, _, _, _, _, _, _, rfl⟩

theorem putSlot_flowsEnd (b : Block) (s : StreamSlot) : b.FlowsEnd (b.putSlot s) := ⟨_, _, _, _, _, _, _, rfl⟩

theorem withdraw_flowsEnd (b : Block) (id : Nat) : b.FlowsEnd (b.withdraw id) := ⟨_, _, _, _, _, _, _, rfl⟩

theorem endTurn_flowsEnd (b : Block) (id : Nat) : b.FlowsEnd (b.endTurn id) := ⟨_, _, _, _, _, _, _, rfl⟩

theorem dropFlow_flowsEnd (b : Block) (id : Nat) : b.FlowsEnd (b.dropFlow id) := ⟨_, _, _, _, _, _, _, rfl⟩

theorem askTurn_flowsEnd (b : Block) (id n : Nat) : b.FlowsEnd (b.askTurn id n) := ⟨_, _, _, _, _, _, _, rfl⟩

theorem endFlow_flowsEnd (b : Block) (id status : Nat) : b.FlowsEnd (b.endFlow id status) := by
  have freed (c : Block) : c.FlowsEnd (c.freeSatchels id) := ⟨_, _, _, _, _, _, _, rfl⟩
  have emptied (c : Block) : c.FlowsEnd (c.dropWork id) := ⟨_, _, _, _, _, _, _, rfl⟩
  have let_go (c : Block) (held : List AgentReq) : c.FlowsEnd { c with heldBack := held } := ⟨_, _, _, _, _, _, _, rfl⟩
  exact (((((withdraw_flowsEnd ..).trans (freed _)).trans (endTurn_flowsEnd ..)).trans (emptied _)).trans
    (modFlow_flowsEnd ..)).trans (let_go ..)

theorem dropPending_flowsEnd (b : Block) (n status : Nat) : b.FlowsEnd (b.dropPending n status) := by
  unfold dropPending
  dsimp only
  split
  · exact .refl b
  · have raised (c : Block) (id st : Nat) : c.FlowsEnd (c.raise id st) := modFlow_flowsEnd ..
    have closed (c : Block) (id : Nat) : c.FlowsEnd (c.close id) := modFlow_flowsEnd ..
    exact ((raised ..).trans (closed ..)).trans (putSlot_flowsEnd ..)

theorem startGen_flowsEnd (b : Block) (n desc arm : Nat) : b.FlowsEnd (b.startGen n desc arm) := by
  have begun (fs : List Flow) (k : Nat) : b.FlowsEnd { b with flows := fs, nextFlow := k } := ⟨_, _, _, _, _, _, _, rfl⟩
  unfold startGen
  dsimp only
  split
  · exact (begun ..).trans (putSlot_flowsEnd ..)
  · exact ((begun ..).trans (putSlot_flowsEnd ..)).trans (askTurn_flowsEnd ..)

theorem nextGen_flowsEnd (b : Block) (n : Nat) : b.FlowsEnd (b.nextGen n) := by
  unfold nextGen
  dsimp only
  split
  · exact .refl b
  · split
    · exact dropPending_flowsEnd ..
    · exact startGen_flowsEnd ..

theorem closeGen_flowsEnd (b : Block) (n : Nat) : b.FlowsEnd (b.closeGen n) := by
  have settled (c : Block) (arm : Nat) (g : Flow) (poison : Nat) : c.FlowsEnd (c.settleArm arm g poison) := modFlow_flowsEnd ..
  unfold closeGen
  dsimp only
  split
  · exact .refl b
  · exact ((((((withdraw_flowsEnd ..).trans (endTurn_flowsEnd ..)).trans (dropFlow_flowsEnd ..)).trans (settled ..)).trans
      (putSlot_flowsEnd ..))).trans (nextGen_flowsEnd ..)

theorem endStopped_flowsEnd (b : Block) (n : Nat) : b.FlowsEnd (b.endStopped n) := by
  unfold endStopped
  split
  · exact .refl b
  · split
    · exact closeGen_flowsEnd ..
    · exact .refl b

theorem endGen_flowsEnd (b : Block) (n status : Nat) : b.FlowsEnd (b.endGen n status) := by
  unfold endGen
  dsimp only
  split
  · exact .refl b
  · split
    · exact .refl b
    · exact ((endFlow_flowsEnd ..).trans (putSlot_flowsEnd ..)).trans (endStopped_flowsEnd ..)

theorem endCut_flowsEnd (b : Block) (f : Flow) : b.FlowsEnd (b.endCut f) := by
  unfold endCut
  split
  · exact endGen_flowsEnd ..
  · split
    · exact modFlow_flowsEnd ..
    · exact endFlow_flowsEnd ..

/-! ### Writes to host memory (R487, R488) -/

/-- A write to host memory is sent now: by the engine with the link up, or for a flow that is not cut off. -/
def hostSends (b : Block) (flow : Option Nat) : Bool :=
  match flow.bind b.flow? with
  | none => b.hostUp
  | some f => !b.cutsOff f

theorem hostWrite_sent {b : Block} {flow : Option Nat} (h : b.hostSends flow = true) (a : Nat) (d : Bytes) :
    b.hostWrite flow a d = b.post a d := by
  unfold hostSends at h
  unfold hostWrite
  generalize flow.bind b.flow? = f at h ⊢
  cases f with
  | none => exact if_pos h
  | some f => exact if_neg (by simpa using h)

theorem hostWrite_dropped {b : Block} {flow : Option Nat} (h : b.hostSends flow = false) (a : Nat) (d : Bytes) :
    b.FlowsEnd (b.hostWrite flow a d) := by
  have counted (c : Block) (i j n : Nat) : c.FlowsEnd (c.count i j n) := ⟨_, _, _, _, _, _, _, rfl⟩
  unfold hostSends at h
  unfold hostWrite
  generalize flow.bind b.flow? = f at h ⊢
  cases f with
  | none =>
    have down : ¬ b.hostUp = true := by simpa using h
    rw [if_neg down]
    exact counted ..
  | some f =>
    have cut : b.cutsOff f = true := by simpa using h
    simp only [cut, if_true]
    exact ((counted ..).trans (modFlow_flowsEnd ..)).trans (endCut_flowsEnd ..)

end Block
end Sys2Proof.Machine

/-! ### BLOCK_WRITE, CRC_WRITE and WRITE_BACK (R325, R332, R337, R340, R487, R488) -/

namespace Sys2Proof.Machine
namespace Block

theorem performBack_sound {b : Block} {a : Nat} {d : Bytes} : b.performBack a d false = b.tierWrite a d := by
  simp [performBack]

theorem performBack_absent {b : Block} {a : Nat} {d : Bytes} (h : b.absentRange a d.length = true) (p : Bool) :
    b.performBack a d p = b.tierWrite a d := by
  simp [performBack, h]

/-- A line with the poison marking leaves its unit poisoned (R335). -/
theorem performBack_poison {b : Block} {a : Nat} {d : Bytes} (habs : b.absentRange a d.length = false)
    (hout : b.stackOut a = false) : unitBase a ∈ (b.performBack a d true).agents.poisoned := by
  unfold performBack
  simp only [habs, hout, Bool.not_false, Bool.and_self, if_true]
  show unitBase a ∈ if (b.tierWrite a d).agents.poisoned.contains (unitBase a) then _ else _
  split
  · next held => simpa using held
  · exact List.mem_append_right _ List.mem_cons_self

theorem performBack_posted {b : Block} {a : Nat} {d : Bytes} (hd : d ≠ []) (habs : b.absentRange a d.length = false)
    (hout : b.stackOut a = false) (p : Bool) :
    (b.performBack a d p).words = b.words ∧ (b.performBack a d p).posted = b.posted ++ [⟨a, d⟩] := by
  obtain ⟨⟨_, _, _, _, _, _, same⟩, -⟩ := tierWrite_stores hd habs hout
  unfold performBack
  dsimp only
  split <;> rw [same] <;> exact ⟨rfl, rfl⟩

theorem charge_agents (b : Block) (a cost : Nat) :
    ∃ moved, b.charge a cost = { b with agents := { b.agents with moved := moved } } := by
  unfold charge
  split
  · exact ⟨_, rfl⟩
  · exact ⟨b.agents.moved, rfl⟩

/-- A write that touches an absent unit is dropped and counts once (R319). -/
theorem tierWrite_absent {b : Block} {a : Nat} {d : Bytes} (hd : d ≠ []) (habs : b.absentRange a d.length = true) :
    b.tierWrite a d = b.count 0x2504 0x0C 1 := by
  have empty : d.isEmpty = false := by simpa using hd
  simp [tierWrite, empty, habs]

/-- What the write of a port's oldest request leaves at a tier's agent. -/
structure WroteTier (b c : Block) (r : AgentReq) (a : Nat) (d : Bytes) (p : Bool) (crc : Option (Nat × Nat)) : Prop where
  words : c.words = b.words
  posted : b.posted = [] → ∃ more, c.posted = ⟨a, d⟩ :: more ∧ (r.after = [] → more = [])
  sound : ∀ u, coversUnit a d.length u = true → p = false → u ∉ c.agents.poisoned
  poison : p = true → unitBase a ∈ c.agents.poisoned
  crcAsked : ∀ w v, crc = some (w, v) → b.faults.injections = [] → c.CrcAsked r.flow w v

section
variable {b : Block} {r : AgentReq} {a : Nat} {d : Bytes} (hd : d ≠ []) (habs : b.absentRange a d.length = false)
  (hout : b.stackOut a = false)
include hd habs hout

theorem wroteTier_of_blockWrite (m : Memory) (crc : Option (Nat × Nat)) :
    b.WroteTier (behindWrite m (b.tierWrite a d) r a d.length crc) r a d false crc := by
  have stores := tierWrite_stores hd habs hout
  obtain ⟨words, ⟨more, posted, none⟩, sound, crcAsked⟩ := behindWrite_written m (b.tierWrite a d) r a d.length crc
  obtain ⟨⟨_, _, _, _, _, _, same⟩, covered, -⟩ := stores
  refine ⟨words.trans (by rw [same]), fun empty => ⟨more, ?_, none⟩, fun u hu _ => sound u (covered u hu).1 (covered u hu).2,
    nofun, fun w v hcrc inj => crcAsked w v hcrc (by rw [same]; exact inj)⟩
  rw [posted, same]
  simp [empty]

theorem wroteTier_of_writeBack (p : Bool) : b.WroteTier (b.performBack a d p) r a d p none := by
  obtain ⟨words, posted⟩ := performBack_posted hd habs hout p
  refine ⟨words, fun empty => ⟨[], by rw [posted, empty]; rfl, fun _ => rfl⟩, fun u hu sound => ?_, fun marked => ?_, nofun⟩
  · rw [sound, performBack_sound]
    exact ((tierWrite_stores hd habs hout).sound u hu).1
  · rw [marked]
    exact performBack_poison habs hout

end
end Block

section
variable {port a : Nat} {d : Bytes} {p : Bool} {crc : Option (Nat × Nat)} {r : AgentReq} {c : Instr}

/-- The command performs the write (a, d) that its port's oldest request asks for. -/
def Writes (c : Instr) (port : Nat) (r : AgentReq) (a : Nat) (d : Bytes) (p : Bool) (crc : Option (Nat × Nat)) : Prop :=
  (c = .blockWrite port ∧ r.op = .blockWrite a d crc ∧ p = false) ∨
    (c = .crcWrite port ∧ r.op = .crcWrite a d ∧ p = false ∧ crc = none ∧ r.after = []) ∨
    (c = .writeBack port ∧ r.op = .writeBack a d p ∧ crc = none ∧ r.after = [])

/-- A write's own request waits for no append and no row lock, and costs the channel time of its bytes. -/
theorem Writes.goes (h : Writes c port r a d p crc) (b : Block) :
    b.partsWait r = false ∧ b.lockWaits r = false ∧ opCost r.op = (a, writeCost a d.length) := by
  obtain ⟨-, op, -⟩ | ⟨-, op, -⟩ | ⟨-, op, -⟩ := h <;>
    simp [Block.partsWait, Block.lockWaits, opCost, Block.writeSpan, op]

/-- What a write command at a tier does: the block that its request leaves. -/
theorem Writes.exec_eq (h : Writes c port r a d p crc) (hport : r.port = port) (htier : port ≠ Config.hostPort) (s : State) :
    ∃ perform d', exec c s = portStep s port perform ∧ perform s.mem (s.blk.popFront r) r = some d' ∧
      (s.blk.absentRange a d.length = false → s.blk.stackOut a = false → d ≠ [] →
        (s.blk.popFront r).WroteTier d' r a d p crc) ∧
      (r.flow = none → crc = none → r.after = [] → (p = false ∨ s.blk.absentRange a d.length = true) →
        d' = (s.blk.popFront r).tierWrite a d) := by
  have notHost : (r.port == Config.hostPort) = false := by rw [hport]; simpa using htier
  obtain ⟨rfl, op, rfl⟩ | ⟨rfl, op, rfl, rfl, after⟩ | ⟨rfl, op, rfl, after⟩ := h
  · refine ⟨doBlockWrite, _, rfl, Block.doBlockWrite_eq s.mem _ op, fun present stays some => ?_, fun flow none after _ => ?_⟩
    · simp only [notHost, Bool.false_eq_true, if_false]
      exact Block.wroteTier_of_blockWrite (b := s.blk.popFront r) some present stays s.mem crc
    · simp only [notHost, none, Bool.false_eq_true, if_false]
      exact Block.behindWrite_plain s.mem _ flow after a d.length
  · refine ⟨doCrcWrite, (s.blk.popFront r).tierWrite a d, rfl, by simp [doCrcWrite, op], fun present stays some => ?_, fun _ _ _ _ => rfl⟩
    rw [← Block.performBack_sound]
    exact Block.wroteTier_of_writeBack (b := s.blk.popFront r) some present stays false
  · refine ⟨doWriteBack, (s.blk.popFront r).performBack a d p, rfl, by simp [doWriteBack, op], fun present stays some => ?_,
      fun _ _ _ sound => ?_⟩
    · exact Block.wroteTier_of_writeBack (b := s.blk.popFront r) some present stays p
    · obtain rfl | absent := sound
      · exact Block.performBack_sound
      · exact Block.performBack_absent (b := s.blk.popFront r) absent p

end

/-- Settles O36: at a tier's agent the request's bytes are written before all else; to host memory they are sent, dropped
or held with the link. -/
theorem agentsPerformWrites : Obligations.AgentsPerformWrites := by
  intro s port a d p crc r c hs hwords hwaits hd hfront hport hroom hc plain
  have writes : Writes c port r a d p crc := hc
  obtain ⟨noWrite, unblocked, quiet, -⟩ := hs
  obtain ⟨parts, locks, cost⟩ := writes.goes s.blk
  have room : s.blk.shareRoom (opCost r.op).1 (opCost r.op).2 = true := by rw [cost]; exact hroom
  have frame : { s.blk with posted := [], blocked := false } = s.blk := by rw [← noWrite, ← unblocked]
  refine ⟨fun tier present stays => ?_, fun tier isPlain absent => ?_, fun host block => ?_⟩
  · have notHeld : (port == Config.hostPort && s.blk.hostHolds) = false := by simp [tier]
    obtain ⟨perform, d', exec_eq, performed, wrote, clean⟩ := writes.exec_eq hport tier s
    have tierFacts := wrote present stays hd
    obtain ⟨ws, step, alone⟩ := portStep_performed hwaits hfront notHeld parts locks performed
      (tierFacts.words.trans hwords) room
    refine ⟨⟨_, exec_eq.trans step, tierFacts.posted noWrite, fun u _ => tierFacts.sound u, tierFacts.poison, tierFacts.crcAsked⟩,
      fun isPlain sound units => ?_⟩
    obtain ⟨flow, none, after⟩ := isPlain
    have written := Block.tierWrite_clean (b := s.blk.popFront r) (List.length_pos_iff.2 hd) present stays units
    obtain ⟨mv, charged⟩ := Block.charge_agents (((s.blk.popFront r).post a d).clearPoison a d.length) a
      (writeCost a d.length)
    rw [clean flow none after (.inl sound), written, charged] at alone step
    rw [alone flow] at step
    have mem : land s.mem (s.blk.posted ++ [⟨a, d⟩]) = memWrite s.mem a d := by rw [noWrite]; rfl
    refine gives_of_quietEnd (exec_eq.trans step) (.congr quiet rfl rfl rfl fun _ => rfl) fun t quietly ends => ?_
    refine ⟨fun k hk => ?_, fun x out => ?_, ends.queue, ?_, ends.odOnly fun _ _ _ _ => rfl, ?_⟩
    · rw [ends.mem]
      exact (congrArg (memByte · (a + k)) mem).trans (memByte_write_in s.mem a d k hk)
    · rw [ends.mem]
      exact (congrArg (memByte · x) mem).trans (memByte_write_out s.mem a d x out)
    · rw [quietly]
      rfl
    · rw [quietly]
      exact frame
  · have notHeld : (port == Config.hostPort && s.blk.hostHolds) = false := by simp [tier]
    obtain ⟨flow, none, after⟩ := isPlain
    obtain ⟨perform, d', exec_eq, performed, -, clean⟩ := writes.exec_eq hport tier s
    have dropped : d' = (s.blk.popFront r).count 0x2504 0x0C 1 :=
      (clean flow none after (.inr absent)).trans (Block.tierWrite_absent (b := s.blk.popFront r) hd absent)
    obtain ⟨ws, step, alone⟩ := portStep_performed hwaits hfront notHeld parts locks performed (by rw [dropped]; exact hwords) room
    rw [alone flow, dropped] at step
    have value := Block.count_self (s.blk.popFront r) 0x2504 0x0C 1
    have others (i j : Nat) (hj : j < 256) (other : (i, j) ∉ [(0x2504, 0x0C)]) :=
      Block.count_od'_of_ne (s.blk.popFront r) 1 hj (by decide) (by simpa using other : (i, j) ≠ (0x2504, 0x0C))
        (by decide) (by decide)
    have states := (Block.count_portState (s.blk.popFront r) 1 · (i := 0x2504) (j := 0x0C) (by decide) (by decide) (by decide))
    obtain ⟨od, same⟩ : ∃ od, (s.blk.popFront r).count 0x2504 0x0C 1 = { s.blk.popFront r with od := od } := ⟨_, rfl⟩
    rw [same] at step
    simp only [same] at value others states
    refine gives_of_quietEnd (exec_eq.trans step) (.congr quiet rfl rfl rfl states) fun t quietly ends => ?_
    refine ⟨?_, ?_, ends.queue, ends.odOnly others, ?_⟩
    · rw [ends.mem]
      show land s.mem s.blk.posted = s.mem
      rw [noWrite]
      rfl
    · rw [ends.od _ _ (by decide)]
      exact value
    · rw [quietly]
      exact frame
  · obtain rfl := block
    have op : r.op = .blockWrite a d crc := by
      obtain ⟨-, op, -⟩ | ⟨other, -⟩ | ⟨other, -⟩ := hc
      · exact op
      · cases other
      · cases other
    have atHost : (r.port == Config.hostPort) = true := by simp [hport, host]
    refine ⟨fun holds => ?_, fun goes => ?_⟩
    · show portStep s port doBlockWrite = _
      unfold portStep
      rw [hfront]
      simp [host, holds]
    have notHeld : (port == Config.hostPort && s.blk.hostHolds) = false := by simp [goes]
    have performed := Block.doBlockWrite_eq s.mem (s.blk.popFront r) op
    simp only [atHost, if_true] at performed
    obtain ⟨words, ⟨more, posted, none⟩, -⟩ :=
      Block.behindWrite_written s.mem ((s.blk.popFront r).hostWrite r.flow a d) r a d.length crc
    have works (hw : ((s.blk.popFront r).hostWrite r.flow a d).words = []) (P : List Store → Prop)
        (hP : P (((s.blk.popFront r).hostWrite r.flow a d).posted ++ more)) :
        Works (.blockWrite port) s (fun b => P b.posted) := by
      obtain ⟨ws, step, -⟩ := portStep_performed hwaits hfront notHeld parts locks performed (words.trans hw) room
      exact ⟨_, step, by rw [← posted] at hP; exact hP⟩
    refine ⟨fun sends => ?_, fun drops after => ?_⟩
    · have sent : (s.blk.popFront r).hostSends r.flow = true := by
        unfold Block.hostSends
        obtain ⟨free, up⟩ | ⟨f, found, whole⟩ := sends
        · have : r.flow.bind (s.blk.popFront r).flow? = Option.none := free
          rw [this]
          exact up
        · have : r.flow.bind (s.blk.popFront r).flow? = some f := found
          rw [this]
          show (!s.blk.cutsOff f) = true
          rw [whole]
          rfl
      rw [Block.hostWrite_sent sent] at works
      refine works hwords (fun ws => ∃ more, ws = ⟨a, d⟩ :: more ∧ (r.after = [] → more = [])) ⟨more, ?_, none⟩
      show s.blk.posted ++ [⟨a, d⟩] ++ more = _
      rw [noWrite]
      rfl
    · have dropped : (s.blk.popFront r).hostSends r.flow = false := by
        unfold Block.hostSends
        obtain ⟨free, down⟩ | ⟨f, found, cut⟩ := drops
        · have : r.flow.bind (s.blk.popFront r).flow? = Option.none := free
          rw [this]
          exact down
        · have : r.flow.bind (s.blk.popFront r).flow? = some f := found
          rw [this]
          show (!s.blk.cutsOff f) = false
          rw [cut]
          rfl
      obtain ⟨_, _, _, _, _, _, _, same⟩ := Block.hostWrite_dropped dropped a d
      rw [same] at works
      refine works hwords (fun ws => ws = []) ?_
      show s.blk.posted ++ more = []
      rw [noWrite, none after]
      rfl

end Sys2Proof.Machine

/-! ### Row operations at an agent (R292 to R298, R302, R306, R310 to R312)

What a row operation does besides its write and its own counter — the lines it has written back, the errors it meets, the
tallies, the copies that see it, its answer — leaves the step's earlier writes, the words and the row locks alone. -/

namespace Sys2Proof.Machine

/-- What a row operation may count besides itself. -/
def rowKeys : List (Nat × Nat) :=
  [(0x2504, 2), (0x2504, 4), (0x2504, 0x0C), (0x2504, 5), (0x2504, 6), (0x2602, 4), (0x2303, 7), (0x2704, 1),
   (0x2400, 1), (0x2400, 2), (0x2400, 3), (0x2400, 4)]

theorem readKeys_subset_rowKeys {k : Nat × Nat} (h : k ∈ readKeys) : k ∈ rowKeys := by fin_cases h <;> decide

theorem refetchKeys_subset_rowKeys {k : Nat × Nat} (h : k ∈ Block.refetchKeys) : k ∈ rowKeys := by fin_cases h <;> decide

namespace Block

/-- c is b but for what a row operation brings with it; its writes so far, the words and the locks stand. -/
structure RowKeeps (b c : Block) : Prop where
  words : c.words = b.words
  locks : c.agents.locks = b.agents.locks
  retrains : c.agents.retrains = b.agents.retrains
  od : ∀ i j, j < 256 → (i, j) ∉ rowKeys → c.od' i j = b.od' i j

theorem RowKeeps.refl (b : Block) : b.RowKeeps b := ⟨rfl, rfl, rfl, fun _ _ _ _ => rfl⟩

theorem RowKeeps.trans {b c d : Block} (h : b.RowKeeps c) (h' : c.RowKeeps d) : b.RowKeeps d :=
  ⟨h'.words.trans h.words, h'.locks.trans h.locks, h'.retrains.trans h.retrains,
    fun i j hj hij => (h'.od i j hj hij).trans (h.od i j hj hij)⟩

section
variable {b c : Block} (h : b.RowKeeps c)
include h

theorem RowKeeps.absentRange (a len : Nat) : c.absentRange a len = b.absentRange a len := by
  have absent (x : Nat) : c.absent x = b.absent x := by
    unfold Block.absent
    by_cases tier : inTier x
    · have := agentOf_lt tier
      unfold agentUp
      rw [h.od 0x1000 _ (by omega) (by simp [rowKeys]), h.od 0x2802 _ (by omega) (by simp [rowKeys])]
    · simp [tier]
  unfold Block.absentRange
  simp only [absent]

theorem RowKeeps.stackOut (a : Nat) : c.stackOut a = b.stackOut a := by
  unfold Block.stackOut
  rw [h.retrains]

end

theorem count_rowKeeps (b : Block) {i j : Nat} (n : Nat) (h : (i, j) ∈ rowKeys) : b.RowKeeps (b.count i j n) := by
  have entry : j < 256 ∧ odKey i j ≠ odKey 0x1000 6 ∧ odKey i j ≠ odKey 0x2700 1 := by fin_cases h <;> decide
  exact ⟨rfl, rfl, rfl, fun i' j' hj' h' =>
    count_od'_of_ne _ _ hj' entry.1 (fun same => h' (same ▸ h)) entry.2.1 entry.2.2⟩

theorem ReadBy.rowKeeps {b c : Block} (h : b.ReadBy c) : b.RowKeeps c := by
  obtain ⟨⟨_, _, _, _, rfl⟩, keep⟩ := h
  exact ⟨rfl, rfl, rfl, fun i j hj hij => keep i j hj fun hr => hij (readKeys_subset_rowKeys hr)⟩

theorem Refetched.rowKeeps {b c : Block} (h : b.Refetched c) : b.RowKeeps c := by
  obtain ⟨⟨_, _, _, _, _, _, _, _, rfl⟩, keep⟩ := h
  exact ⟨rfl, rfl, rfl, fun i j hj hij => keep i j hj fun hr => hij (refetchKeys_subset_rowKeys hr)⟩

theorem Refetched.posted {b c : Block} (h : b.Refetched c) : c.posted = b.posted := by
  obtain ⟨⟨_, _, _, _, _, _, _, _, rfl⟩, -⟩ := h; rfl

theorem Sends.rowKeeps {b c : Block} (h : b.Sends c) : b.RowKeeps c := by
  obtain ⟨⟨_, _, _, rfl⟩, keep⟩ := h
  exact ⟨rfl, rfl, rfl, fun i j hj hij => keep i j hj fun same => hij (by rw [same]; decide)⟩

theorem Sends.posted {b c : Block} (h : b.Sends c) : c.posted = b.posted := by obtain ⟨⟨_, _, _, rfl⟩, -⟩ := h; rfl

theorem modFlow_rowKeeps (b : Block) (id : Nat) (g : Flow → Flow) : b.RowKeeps (b.modFlow id g) :=
  ⟨rfl, rfl, rfl, fun _ _ _ _ => rfl⟩

/-! ### The lines over the row (R298) -/

theorem Stores.rowKeeps {b c : Block} {a : Nat} {d : Bytes} (h : b.Stores c a d) : b.RowKeeps c := by
  obtain ⟨⟨_, _, _, _, _, _, rfl⟩, -, keep⟩ := h
  exact ⟨rfl, rfl, rfl, fun i j hj hij => keep i j hj fun hr => hij (readKeys_subset_rowKeys hr)⟩

theorem tierWrite_rowKeeps (b : Block) (a : Nat) (d : Bytes) : b.RowKeeps (b.tierWrite a d) := by
  by_cases empty : d = []
  · rw [empty]
    exact .refl b
  by_cases gone : (b.absentRange a d.length || b.stackOut a) = true
  · have dropped : b.tierWrite a d = b.count 0x2504 0x0C 1 := by simp [tierWrite, empty, gone]
    rw [dropped]
    exact count_rowKeeps b 1 (by decide)
  · rw [Bool.not_eq_true, Bool.or_eq_false_iff] at gone
    exact (tierWrite_stores empty gone.1 gone.2).rowKeeps

theorem performBack_rowKeeps (b : Block) (a : Nat) (d : Bytes) (p : Bool) : b.RowKeeps (b.performBack a d p) := by
  unfold performBack
  dsimp only
  split
  · exact (tierWrite_rowKeeps ..).trans ⟨rfl, rfl, rfl, fun _ _ _ _ => rfl⟩
  · exact tierWrite_rowKeeps ..

theorem flushRow_rowKeeps (b : Block) (a len : Nat) : b.RowKeeps (b.flushRow a len) := by
  have taken (q : List AgentReq) : b.RowKeeps { b with agents := { b.agents with queue := q } } :=
    ⟨rfl, rfl, rfl, fun _ _ _ _ => rfl⟩
  unfold flushRow
  dsimp only
  refine List.foldlRecOn (motive := b.RowKeeps) _ _ ?_ fun c kept l _ => ?_
  · refine List.foldlRecOn (motive := b.RowKeeps) _ _ (taken _) fun c kept r _ => ?_
    split
    · exact kept.trans (performBack_rowKeeps ..)
    · exact kept
  · exact kept.trans (((dirtyRead_refetched c l).rowKeeps.trans (performBack_rowKeeps ..)).trans
      ((setLines_refetched ..).rowKeeps.trans (count_rowKeeps _ 1 (by decide))))

/-! ### The row as its agent reads it -/

theorem agentReads_readBy (b : Block) (a len : Nat) : b.ReadBy (b.agentReads a len).2 := by
  unfold agentReads
  split
  · exact count_readBy b 1 (by decide)
  · exact (reported_readFrom b a len).readBy.trans ((foldl_uncorrectable_readBy _ _).trans (charge_readFrom _ _ _).readBy)

theorem agentRow_readBy (m : Memory) (b : Block) (t : RowTarget) : b.ReadBy (agentRow m b t).2.2 := agentReads_readBy ..

theorem ReadBy.posted {b c : Block} (h : b.ReadBy c) : c.posted = b.posted := by obtain ⟨⟨_, _, _, _, rfl⟩, -⟩ := h; rfl

theorem rewrite_rowKeeps (b : Block) (a : Nat) (d : Bytes) : b.RowKeeps (b.rewrite a d) ∧
    (b.rewrite a d).posted = b.posted ++ [⟨a, d⟩] := by
  obtain ⟨_, charged⟩ := charge_agents (b.post a d) a (writeCost a d.length)
  unfold rewrite
  rw [charged]
  exact ⟨⟨rfl, rfl, rfl, fun _ _ _ _ => rfl⟩, rfl⟩

theorem tallyRow_rowKeeps (b : Block) (flow : Option Nat) (e : Enc) (sats : Nat) :
    b.RowKeeps (b.tallyRow flow e sats) ∧ (b.tallyRow flow e sats).posted = b.posted := by
  cases flow with
  | some id => exact ⟨(modFlow_rowKeeps ..).trans (modFlow_rowKeeps ..), rfl⟩
  | none =>
    exact ⟨(((count_rowKeeps _ _ (by decide)).trans (count_rowKeeps _ _ (by decide))).trans (count_rowKeeps _ _ (by decide))).trans
      (count_rowKeeps _ _ (by decide)), rfl⟩

theorem reply_sends (b : Block) (n p mtype status txn : Nat) (body : Bytes) : b.Sends (b.reply n p mtype status txn body) := by
  unfold reply
  dsimp only
  split
  · exact (modPeer_sends b p _).trans (sendOn_sends ..)
  · exact modPeer_sends ..

theorem answerRow_sends (b : Block) (o : Option RemoteOp) (status : Nat) : b.Sends (b.answerRow o status) := by
  cases o with
  | none => exact .refl b
  | some o => exact reply_sends ..

end Block
end Sys2Proof.Machine

namespace Sys2Proof.Machine
namespace Block

/-! ### What a row operation leaves -/

/-- A row operation that leaves the writes ws, and counts once in OD 0x2303. -/
structure RowDone (b c : Block) (ws : List Store) (counter : Nat) : Prop where
  words : c.words = b.words
  posted : c.posted = ws
  count : c.od' 0x2303 counter = add64 (b.od' 0x2303 counter) 1

/-- What has its own counter in OD 0x2303 counts nowhere else. -/
theorem notin_rowKeys {k : Nat} (h : k ≠ 7) : (0x2303, k) ∉ rowKeys := by simp [rowKeys, h]

/-- A step's own count, between operations that count elsewhere. -/
theorem rowDone_of_count {b c e : Block} {k : Nat} (hk : k < 256) (h7 : k ≠ 7) (before : b.RowKeeps c)
    (after : (c.count 0x2303 k 1).RowKeeps e) : b.RowDone e e.posted k where
  words := after.words.trans before.words
  posted := rfl
  count := by
    rw [after.od _ _ hk (notin_rowKeys h7), count_self, before.od _ _ hk (notin_rowKeys h7)]

theorem addPoison_rowKeeps (b : Block) (flow : Option Nat) :
    b.RowKeeps (match flow with | some id => b.addPoison id 1 | none => b) := by
  cases flow with
  | some id => exact modFlow_rowKeeps ..
  | none => exact .refl b

theorem unperformed_rowDone {b c : Block} (h : b.RowKeeps c) (flow : Option Nat) : b.RowDone (c.unperformed flow 1) c.posted 6 := by
  have done := rowDone_of_count (by decide) (by decide) h (addPoison_rowKeeps (c.count 0x2303 6 1) flow)
  cases flow <;> exact done

theorem RowDone.sends {b c d : Block} {ws : List Store} {k : Nat} (h : b.RowDone c ws k) (hk : k < 256) (h7 : k ≠ 7)
    (hd : c.Sends d) : b.RowDone d ws k :=
  ⟨hd.rowKeeps.words.trans h.words, hd.posted.trans h.posted, (hd.rowKeeps.od _ _ hk (notin_rowKeys h7)).trans h.count⟩

section
variable (m : Memory) (b : Block) (r : AgentReq) (t : RowTarget)

/-- An add or an optimiser step on a row that is undamaged writes the whole row. -/
theorem performRowOp_sound (step : Bytes → Bytes × Enc × Nat) {k : Nat} (hk : k < 256) (h7 : k ≠ 7)
    (hsound : (agentRow m (b.flushRow t.addr t.stride) t).2.1 = false) :
    b.RowDone (b.performRowOp m r t step k) ((b.flushRow t.addr t.stride).posted ++
      [⟨t.addr, (step (agentRow m (b.flushRow t.addr t.stride) t).1).1⟩]) k := by
  have flushed := flushRow_rowKeeps b t.addr t.stride
  unfold performRowOp
  generalize b.flushRow t.addr t.stride = b0 at hsound flushed ⊢
  have read := agentRow_readBy m b0 t
  generalize agentRow m b0 t = x at hsound read ⊢
  simp only [hsound, Bool.false_eq_true, if_false]
  obtain ⟨written, posted⟩ := rewrite_rowKeeps x.2.2 t.addr (step x.1).1
  obtain ⟨tallied, same⟩ := tallyRow_rowKeeps (x.2.2.rewrite t.addr (step x.1).1) r.flow (step x.1).2.1 (step x.1).2.2
  have seen := writeSeen_refetched m (((x.2.2.rewrite t.addr (step x.1).1).tallyRow r.flow (step x.1).2.1
    (step x.1).2.2).count 0x2303 k 1) r.flow t.addr t.stride
  have answered := answerRow_sends ((((x.2.2.rewrite t.addr (step x.1).1).tallyRow r.flow (step x.1).2.1
    (step x.1).2.2).count 0x2303 k 1).writeSeen m r.flow t.addr t.stride) r.remote 0
  have done := rowDone_of_count hk h7 (flushed.trans (read.rowKeeps.trans (written.trans tallied)))
    (seen.rowKeeps.trans answered.rowKeeps)
  have writes : _ = b0.posted ++ [⟨t.addr, (step x.1).1⟩] :=
    answered.posted.trans (seen.posted.trans (same.trans (posted.trans (congrArg (· ++ _) read.posted))))
  exact writes ▸ done

/-- A damaged row is left alone, and counted. -/
theorem performRowOp_spoilt (step : Bytes → Bytes × Enc × Nat) (k : Nat)
    (hbad : (agentRow m (b.flushRow t.addr t.stride) t).2.1 = true) :
    b.RowDone (b.performRowOp m r t step k) (b.flushRow t.addr t.stride).posted 6 := by
  have flushed := flushRow_rowKeeps b t.addr t.stride
  unfold performRowOp
  generalize b.flushRow t.addr t.stride = b0 at hbad flushed ⊢
  have read := agentRow_readBy m b0 t
  generalize agentRow m b0 t = x at hbad read ⊢
  simp only [hbad, if_true]
  rw [← read.posted]
  exact (unperformed_rowDone (flushed.trans read.rowKeeps) r.flow).sends (by decide) (by decide) (answerRow_sends ..)

/-- A row committed: its lock is taken and released again, and the whole row written. -/
theorem commitRow_writes {b : Block} {port a : Nat} {row : Bytes} (hfree : (port, a) ∉ b.agents.locks) (hrow : row ≠ [])
    (habs : b.absentRange a row.length = false) (hout : b.stackOut a = false) (read : Bool) :
    b.RowKeeps (b.commitRow port a row read) ∧ (b.commitRow port a row read).posted = b.posted ++ [⟨a, row⟩] := by
  obtain ⟨written, posted⟩ : (b.takeLock port a).RowKeeps (if read then (b.takeLock port a).rewrite a row
        else (b.takeLock port a).tierWrite a row) ∧
      (if read then (b.takeLock port a).rewrite a row else (b.takeLock port a).tierWrite a row).posted =
        b.posted ++ [⟨a, row⟩] := by
    cases read with
    | true => exact rewrite_rowKeeps (b.takeLock port a) a row
    | false =>
      have stores := tierWrite_stores (b := b.takeLock port a) hrow habs hout
      obtain ⟨_, _, _, _, _, _, same⟩ := stores.blk
      exact ⟨stores.rowKeeps, by rw [if_neg Bool.false_ne_true, same]; rfl⟩
  unfold commitRow
  dsimp only
  generalize (if read then (b.takeLock port a).rewrite a row else (b.takeLock port a).tierWrite a row) = c at written posted
  refine ⟨⟨written.words, ?_, written.retrains, written.od⟩, posted⟩
  show c.agents.locks.erase (port, a) = b.agents.locks
  have taken : c.agents.locks = b.agents.locks ++ [(port, a)] := written.locks
  rw [taken, List.erase_append_right _ hfree]
  simp

section
variable (t : RowTarget) (entry : Nat) (src : Bytes) (bad : Bool)

/-- The row that a commit is performed on, read only where the commit needs it (R310, R312). -/
def committedOn (m : Memory) (b : Block) (t : RowTarget) (entry : Nat) : Bytes × Bool × Block :=
  if needsCurrent (tdShape t.desc) (bit entry 82) (bits entry 81 80) then agentRow m b t
  else (memRead (land m b.posted) t.addr t.stride, false, b)

theorem committedOn_readBy (m : Memory) (b : Block) : b.ReadBy (committedOn m b t entry).2.2 := by
  unfold committedOn
  split
  · exact agentRow_readBy m b t
  · exact .refl b

/-- The source of a commit is damaged. -/
def spoiltSource (t : RowTarget) (src : Bytes) (bad : Bool) : Bool :=
  bad || (tdShape t.desc).poisoned (slice src 0 (tdShape t.desc).stride)

theorem performCommit_spoiltSource (m : Memory) (b : Block) (r : AgentReq) (h : spoiltSource t src bad = true) :
    b.RowDone (b.performCommit m r t entry src bad) b.posted 6 := by
  unfold spoiltSource at h
  unfold performCommit
  simp only [h, if_true]
  exact unperformed_rowDone (.refl b) r.flow

section
variable (m : Memory) {b : Block} (r : AgentReq) (hsource : spoiltSource t src bad = false)
  (habs : b.absentRange t.addr t.stride = false) (hout : b.stackOut t.addr = false)
include hsource habs hout

/-- A commit of a sound source to a present row, by what its agent finds. -/
theorem performCommit_eq : b.performCommit m r t entry src bad =
    let x := committedOn m (b.flushRow t.addr t.stride) t entry
    if x.2.1 then x.2.2.unperformed r.flow 1
    else if bit entry 82 && bits entry 127 96 ≤ bits ((tdShape t.desc).header x.1) 63 32 then
      match r.flow with
      | none => x.2.2
      | some id => (x.2.2.note id stCommitSkipped).count 0x2303 5 1
    else ((x.2.2.commitRow r.port t.addr (committedRow (tdShape t.desc) x.1 src (bits entry 81 80) (bits entry 127 96))
        (needsCurrent (tdShape t.desc) (bit entry 82) (bits entry 81 80))).count 0x2303 4 1).writeSeen m r.flow t.addr t.stride := by
  unfold spoiltSource at hsource
  unfold performCommit
  simp only [hsource, habs, hout, Bool.or_self, Bool.false_eq_true, if_false]
  rfl

theorem performCommit_damaged (hbad : (committedOn m (b.flushRow t.addr t.stride) t entry).2.1 = true) :
    b.RowDone (b.performCommit m r t entry src bad) (b.flushRow t.addr t.stride).posted 6 := by
  rw [performCommit_eq t entry src bad m r hsource habs hout]
  have flushed := flushRow_rowKeeps b t.addr t.stride
  generalize b.flushRow t.addr t.stride = b0 at hbad flushed ⊢
  have read := committedOn_readBy t entry m b0
  simp only [hbad, if_true]
  rw [← read.posted]
  exact unperformed_rowDone (flushed.trans read.rowKeeps) r.flow

/-- A MONOTONIC commit whose stamp lies not above the row's counts as skipped. -/
theorem performCommit_skipped (hsound : (committedOn m (b.flushRow t.addr t.stride) t entry).2.1 = false)
    (hmono : bit entry 82 = true)
    (hstamp : bits entry 127 96 ≤
      bits ((tdShape t.desc).header (committedOn m (b.flushRow t.addr t.stride) t entry).1) 63 32)
    (hflow : r.flow.isSome = true) :
    b.RowDone (b.performCommit m r t entry src bad) (b.flushRow t.addr t.stride).posted 5 := by
  rw [performCommit_eq t entry src bad m r hsource habs hout]
  have flushed := flushRow_rowKeeps b t.addr t.stride
  generalize b.flushRow t.addr t.stride = b0 at hsound hstamp flushed ⊢
  have read := committedOn_readBy t entry m b0
  obtain ⟨id, flow⟩ := Option.isSome_iff_exists.1 hflow
  simp only [hsound, hmono, hstamp, flow, decide_true, Bool.and_self, Bool.false_eq_true, if_false, if_true]
  rw [← read.posted]
  exact rowDone_of_count (by decide) (by decide) (flushed.trans (read.rowKeeps.trans (modFlow_rowKeeps ..))) (.refl _)

/-- A commit that is not skipped writes the whole row under its lock. -/
theorem performCommit_writes (hsound : (committedOn m (b.flushRow t.addr t.stride) t entry).2.1 = false)
    (hfree : (r.port, t.addr) ∉ b.agents.locks)
    (habove : bit entry 82 = true →
      bits ((tdShape t.desc).header (committedOn m (b.flushRow t.addr t.stride) t entry).1) 63 32 < bits entry 127 96) :
    let row := committedRow (tdShape t.desc) (committedOn m (b.flushRow t.addr t.stride) t entry).1 src (bits entry 81 80)
      (bits entry 127 96)
    row ≠ [] → row.length = t.stride →
      b.RowDone (b.performCommit m r t entry src bad) ((b.flushRow t.addr t.stride).posted ++ [⟨t.addr, row⟩]) 4 ∧
        (b.performCommit m r t entry src bad).agents.locks = b.agents.locks := by
  rw [performCommit_eq t entry src bad m r hsource habs hout]
  have flushed := flushRow_rowKeeps b t.addr t.stride
  generalize b.flushRow t.addr t.stride = b0 at hsound habove flushed ⊢
  have read := committedOn_readBy t entry m b0
  generalize committedOn m b0 t entry = x at hsound habove read ⊢
  intro row some whole
  have goes : (bit entry 82 && decide (bits entry 127 96 ≤ bits ((tdShape t.desc).header x.1) 63 32)) = false := by
    cases mono : bit entry 82 with
    | false => rfl
    | true => simpa using habove mono
  have kept := flushed.trans read.rowKeeps
  obtain ⟨committed, posted⟩ := commitRow_writes (b := x.2.2) (port := r.port) (a := t.addr) (row := row)
    (by rw [kept.locks]; exact hfree) some (by rw [whole, kept.absentRange]; exact habs) (by rw [kept.stackOut]; exact hout)
    (needsCurrent (tdShape t.desc) (bit entry 82) (bits entry 81 80))
  have seen := writeSeen_refetched m ((x.2.2.commitRow r.port t.addr row
    (needsCurrent (tdShape t.desc) (bit entry 82) (bits entry 81 80))).count 0x2303 4 1) r.flow t.addr t.stride
  simp only [hsound, goes, Bool.false_eq_true, if_false]
  have done := rowDone_of_count (by decide) (by decide) (kept.trans committed) seen.rowKeeps
  have writes : _ = b0.posted ++ [⟨t.addr, row⟩] :=
    seen.posted.trans (posted.trans (congrArg (· ++ _) read.posted))
  exact ⟨⟨done.words, writes, done.count⟩, seen.rowKeeps.locks.trans (committed.locks.trans kept.locks)⟩

end
end
end
end Block
end Sys2Proof.Machine

namespace Sys2Proof.Machine

/-- What a row operation's own command leaves, for the oldest request of a port. -/
theorem works_of_portStep {c : Instr} {s : State} {port k : Nat} {r : AgentReq} {d : Block} {ws : List Store}
    {perform : Memory → Block → AgentReq → Option Block} (hexec : exec c s = portStep s port perform)
    (hwords : s.blk.words = []) (hnone : s.blk.agents.shareWaits = []) (hfront : s.blk.front port = some r)
    (htier : port ≠ Config.hostPort) (hparts : s.blk.partsWait r = false) (hlock : s.blk.lockWaits r = false)
    (hperform : perform s.mem (s.blk.popFront r) r = some d) (hroom : s.blk.shareRoom (opCost r.op).1 (opCost r.op).2 = true)
    (hdone : (s.blk.popFront r).RowDone d ws k) {P : Block → Prop}
    (hP : ∀ b, b.posted = ws → b.agents.locks = d.agents.locks → b.od' 0x2303 k = add64 (s.blk.od' 0x2303 k) 1 → P b) :
    Works c s P := by
  obtain ⟨ws', step, -⟩ := portStep_performed hnone hfront (by simp [htier]) hparts hlock hperform
    (hdone.words.trans hwords) hroom
  exact ⟨d.turned ws', hexec.trans step, hP _ hdone.posted rfl hdone.count⟩

/-- Settles O37: what the request's own command leaves, by its kind and by the damage that its agent finds. -/
theorem agentsPerformRowOperations : Obligations.AgentsPerformRowOperations := by
  intro s port r t hs hwords hwaits hfront hport htier hlock hroom own b0 shape x spoilt
  have noWrite : s.blk.posted = [] := hs.1
  refine ⟨fun w op => ?_, fun p w op => ?_, fun e src bad op => ?_⟩
  · have parts : s.blk.partsWait r = false := by simp [Block.partsWait, op]
    have room : s.blk.shareRoom (opCost r.op).1 (opCost r.op).2 = true := by rw [op]; exact hroom
    have performed : doAdd s.mem own r = some (own.performRowOp s.mem r t (fun row => addedRow shape row w) 1) := by
      simp [doAdd, op, shape]
    exact ⟨fun sound => works_of_portStep rfl hwords hwaits hfront htier parts hlock performed room
        (Block.performRowOp_sound s.mem own r t _ (by decide) (by decide) sound) fun _ posted _ count => ⟨posted, count⟩,
      fun damaged => works_of_portStep rfl hwords hwaits hfront htier parts hlock performed room
        (Block.performRowOp_spoilt s.mem own r t _ 1 damaged) fun _ posted _ count => ⟨posted, count⟩⟩
  · have parts : s.blk.partsWait r = false := by simp [Block.partsWait, op]
    have room : s.blk.shareRoom (opCost r.op).1 (opCost r.op).2 = true := by rw [op]; exact hroom
    have performed : doUpdate s.mem own r = some (own.performRowOp s.mem r t (fun row => steppedRow shape row p w) 3) := by
      simp [doUpdate, op, shape]
    exact ⟨fun sound => works_of_portStep rfl hwords hwaits hfront htier parts hlock performed room
        (Block.performRowOp_sound s.mem own r t _ (by decide) (by decide) sound) fun _ posted _ count => ⟨posted, count⟩,
      fun damaged => works_of_portStep rfl hwords hwaits hfront htier parts hlock performed room
        (Block.performRowOp_spoilt s.mem own r t _ 3 damaged) fun _ posted _ count => ⟨posted, count⟩⟩
  · have parts : s.blk.partsWait r = false := by simp [Block.partsWait, op]
    have room : s.blk.shareRoom (opCost r.op).1 (opCost r.op).2 = true := by rw [op]; exact hroom
    have performed : doCommit s.mem own r = some (own.performCommit s.mem r t e src bad) := by simp [doCommit, op]
    have free : (r.port, t.addr) ∉ own.agents.locks := by
      have := hlock
      unfold Block.lockWaits at this
      rw [op] at this
      simp only [Bool.or_eq_false_iff] at this
      show (r.port, t.addr) ∉ s.blk.agents.locks
      simpa using this.1
    intro spoiltSource y row above
    have found : y = Block.committedOn s.mem b0 t e := by
      show (if _ then _ else _) = _
      rfl
    refine ⟨fun source => ?_, fun source present stays => ⟨fun damaged => ?_, fun sound some whole stamped => ?_,
      fun sound mono notAbove flow => ?_⟩⟩
    · exact works_of_portStep rfl hwords hwaits hfront htier parts hlock performed room
        (Block.performCommit_spoiltSource t e src bad s.mem own r source) fun _ posted _ count => ⟨posted, count⟩
    · rw [found] at damaged
      exact works_of_portStep rfl hwords hwaits hfront htier parts hlock performed room
        (Block.performCommit_damaged t e src bad s.mem r source present stays damaged) fun _ posted _ count => ⟨posted, count⟩
    · obtain ⟨done, locks⟩ := Block.performCommit_writes t e src bad s.mem r source present stays sound free stamped some whole
      exact works_of_portStep rfl hwords hwaits hfront htier parts hlock performed room done
        fun _ posted same count => ⟨posted, same.trans locks, count⟩
    · exact works_of_portStep rfl hwords hwaits hfront htier parts hlock performed room
        (Block.performCommit_skipped t e src bad s.mem r source present stays sound mono (Nat.le_of_not_lt notAbove) flow)
        fun _ posted _ count => ⟨posted, count⟩

end Sys2Proof.Machine

/-! ### APPEND (R52, R53, R225, R325, R326) -/

namespace Sys2Proof.Machine

/-- The descriptor after an append: NEXT one further, or 0 with FULL set after the last slot (R52). -/
theorem nextDesk_fields {d : Nat} (hlt : ddNext d < 2 ^ ddCap d) (hcap : ddCap d ≤ 24) :
    let last := ddNext d + 1 == 2 ^ ddCap d
    ddNext (Block.nextDesk d (ddNext d)) = (if last then 0 else ddNext d + 1) ∧
      ddFull (Block.nextDesk d (ddNext d)) = (ddFull d || last) := by
  intro last
  have cap : 2 ^ ddCap d ≤ 2 ^ 24 := Nat.pow_le_pow_right (by decide) hcap
  have full : b2n (ddFull d) = d / 2 ^ 56 % 2 := by
    rw [ddFull, bit_eq, b2n]
    split <;> simp_all
  have next : ddNext d = d / 2 ^ 32 % 2 ^ 24 := bits_eq ..
  have new : (if last then 0 else ddNext d + 1) < 2 ^ 24 := by
    split
    · decide
    · next more =>
      have : ddNext d + 1 ≠ 2 ^ ddCap d := by simpa [last] using more
      omega
  have flag := b2n_lt (ddFull d || last)
  have shape : Block.nextDesk d (ddNext d) = d - ddNext d <<< 32 - b2n (ddFull d) <<< 56 +
      (if last then 0 else ddNext d + 1) <<< 32 + b2n (ddFull d || last) <<< 56 := rfl
  generalize (if last then 0 else ddNext d + 1) = n at new shape ⊢
  generalize (ddFull d || last) = q at flag shape ⊢
  generalize Block.nextDesk d (ddNext d) = desk at shape ⊢
  rw [next, full] at shape
  simp only [Nat.shiftLeft_eq] at shape
  have split : desk = d % 2 ^ 32 + n * 2 ^ 32 + b2n q * 2 ^ 56 + d / 2 ^ 57 * 2 ^ 57 := by
    rw [shape]
    omega
  constructor
  · rw [ddNext, split, bits_eq]
    omega
  · rw [ddFull, split]
    exact bit_eq_of_mod (by omega)

end Sys2Proof.Machine

namespace Sys2Proof.Machine
namespace Block

/-- An append whose parts are written writes the descriptor, and counts. -/
theorem finishAppend_writes (m : Memory) {b c : Block} (hkeeps : b.RowKeeps c) (f : Flow) (a d : Nat) (parts : List Store) :
    (finishAppend m c f a d parts).words = b.words ∧
      (finishAppend m c f a d parts).posted = c.posted ++ [⟨a, natLE 32 (nextDesk d (ddNext d))⟩] ∧
      (finishAppend m c f a d parts).od' 0x2302 3 = add64 (b.od' 0x2302 3) 1 := by
  unfold finishAppend
  dsimp only
  obtain ⟨written, posted⟩ := rewrite_rowKeeps c a (natLE 32 (nextDesk d (ddNext d)))
  have copied (ws : List Store) (x : Block) : x.Refetched (ws.foldl (fun b w => b.replaceCopies w.addr w.data) x) :=
    List.foldlRecOn (motive := x.Refetched) _ _ (.refl x) fun _ back w _ => back.trans (setLines_refetched ..)
  have seen (ws : List Store) (x : Block) :
      x.Refetched (ws.foldl (fun b w => b.writeSeen m (some f.id) w.addr w.data.length) x) :=
    List.foldlRecOn (motive := x.Refetched) _ _ (.refl x) fun _ back w _ => back.trans (writeSeen_refetched ..)
  generalize c.rewrite a (natLE 32 (nextDesk d (ddNext d))) = c1 at written posted ⊢
  have told (ws : List Store) := (copied ws c1).trans (seen ws (ws.foldl (fun b w => b.replaceCopies w.addr w.data) c1))
  replace told := told (parts ++ [⟨a, natLE 32 (nextDesk d (ddNext d))⟩])
  have kept := hkeeps.trans (written.trans told.rowKeeps)
  refine ⟨kept.words, told.posted.trans posted, ?_⟩
  have counted (x : Block) : ((x.count 0x2302 3 1).appendDone (some f.id) true (ddNext d)).od' 0x2302 3 =
      add64 (x.od' 0x2302 3) 1 := (od'_congr _ _ rfl _ _).trans (count_self x 0x2302 3 1)
  rw [counted, kept.od _ _ (by decide) (by decide)]

/-- What an append needs of its row operation's surroundings: nothing stands in its way, and its descriptor reads sound. -/
theorem performAppend_open (m : Memory) {b : Block} {r : AgentReq} {a : Nat} {key value : Bytes} {sent : Bool} {f : Flow}
    (hf : r.flow.bind b.flow? = some f) (hends : f.statuses.any endsEarly = false)
    (hread : sent = true ∨ (b.agentReads a 32).1 = false)
    (hopen : ddSealed (leNat (memRead (land m b.posted) a 32)) = false)
    (hroom : ddFull (leNat (memRead (land m b.posted) a 32)) = false ∨ dcWrap (f.copyAt 1) = true) :
    b.performAppend m r a key value sent =
      let d := leNat (memRead (land m b.posted) a 32)
      let parts := appendParts f d (ddNext d) key value
      let c := if sent then b else parts.foldl (fun b w => b.putPart r w) (b.agentReads a 32).2
      let again := { r with op := .append a key value true }
      if !sent && c.partsWait again then { c with agents := { c.agents with queue := again :: c.agents.queue } }
      else finishAppend m c f a d parts := by
  have sound : (if sent = true then (false, b) else b.agentReads a 32).1 = false := by
    obtain rfl | sound := hread
    · rfl
    · cases sent
      · exact sound
      · rfl
  have notFull : (ddFull (leNat (memRead (land m b.posted) a 32)) && !dcWrap (f.copyAt 1)) = false := by
    obtain h | h := hroom <;> simp [h]
  unfold performAppend
  simp only [hf, hends, sound, hopen, notFull, Bool.false_eq_true, if_false]
  cases sent <;> rfl

/-- A SEALED desk takes nothing. -/
theorem performAppend_sealed (m : Memory) {b : Block} {r : AgentReq} {a : Nat} {key value : Bytes} {sent : Bool} {f : Flow}
    (hf : r.flow.bind b.flow? = some f) (hends : f.statuses.any endsEarly = false)
    (hread : sent = true ∨ (b.agentReads a 32).1 = false)
    (hsealed : ddSealed (leNat (memRead (land m b.posted) a 32)) = true) :
    (b.performAppend m r a key value sent).words = b.words ∧ (b.performAppend m r a key value sent).posted = b.posted := by
  have done (c : Block) (st : Nat) : ((c.note f.id st).appendDone r.flow false 0).words = c.words ∧
      ((c.note f.id st).appendDone r.flow false 0).posted = c.posted := by
    cases r.flow <;> exact ⟨rfl, rfl⟩
  unfold performAppend
  cases sent with
  | true =>
    simp only [hf, hends, hsealed, if_true, Bool.false_eq_true, if_false]
    exact done b _
  | false =>
    have read := agentReads_readBy b a 32
    have sound : (b.agentReads a 32).1 = false := by simpa using hread
    simp only [hf, hends, sound, hsealed, if_true, Bool.false_eq_true, if_false]
    obtain ⟨words, posted⟩ := done (b.agentReads a 32).2 stDeskSealed
    exact ⟨words.trans read.rowKeeps.words, posted.trans read.posted⟩

end Block
end Sys2Proof.Machine

namespace Sys2Proof.Machine
namespace Block

theorem SameMap.trans {b c d : Block} (h : b.SameMap c) (h' : c.SameMap d) : b.SameMap d :=
  ⟨h'.queue.trans h.queue, h'.began.trans h.began, h'.retrains.trans h.retrains,
    fun i j hj hi => (h'.od i j hj hi).trans (h.od i j hj hi)⟩

theorem sameMap_of_readKeys {b c : Block} (hq : c.agents.queue = b.agents.queue) (hb : c.agents.began = b.agents.began)
    (hr : c.agents.retrains = b.agents.retrains)
    (hod : ∀ i j, j < 256 → (i, j) ∉ readKeys → c.od' i j = b.od' i j) : b.SameMap c :=
  ⟨hq, hb, hr, fun i j hj hi => hod i j hj (by rcases hi with rfl | rfl | rfl | rfl | rfl <;> simp [readKeys])⟩

theorem ReadBy.sameMap {b c : Block} (h : b.ReadBy c) : b.SameMap c := by
  obtain ⟨⟨_, _, _, _, rfl⟩, keep⟩ := h
  exact sameMap_of_readKeys rfl rfl rfl keep

theorem Stores.sameMap {b c : Block} {a : Nat} {d : Bytes} (h : b.Stores c a d) : b.SameMap c := by
  obtain ⟨⟨_, _, _, _, _, _, rfl⟩, -, keep⟩ := h
  exact sameMap_of_readKeys rfl rfl rfl keep

theorem Stores.posted {b c : Block} {a : Nat} {d : Bytes} (h : b.Stores c a d) : c.posted = b.posted ++ [⟨a, d⟩] := by
  obtain ⟨⟨_, _, _, _, _, _, rfl⟩, -⟩ := h; rfl

/-- A part of an append must go through another agent, where something stands before it (R325, R326). -/
def partWaits (b : Block) (r : AgentReq) (w : Store) : Bool := agentOf w.addr != r.port && b.ownWaits w.addr w.data.length

theorem putPart_eq (b : Block) (r : AgentReq) (w : Store) : b.putPart r w =
    if b.partWaits r w then b.enqueue { port := agentOf w.addr, flow := r.flow, op := .blockWrite w.addr w.data none, remote := none }
    else b.tierWrite w.addr w.data := by
  unfold putPart partWaits
  cases here : agentOf w.addr == r.port <;> cases waits : b.ownWaits w.addr w.data.length <;> simp [here, bne]

/-- A flow's write waits at some agent. -/
def writeQueued (b : Block) (flow : Option Nat) : Bool := b.agents.queue.any (fun q => q.flow == flow && (writeSpan q.op).isSome)

section
variable {b c : Block} {r : AgentReq} {w : Store} (hkeeps : b.RowKeeps c) (hd : w.data ≠ [])
  (habs : b.absentRange w.addr w.data.length = false) (hout : b.stackOut w.addr = false)
include hkeeps hd habs hout

theorem putPart_writes (hwaits : c.partWaits r w = false) : c.Stores (c.putPart r w) w.addr w.data := by
  rw [putPart_eq, hwaits]
  exact tierWrite_stores hd (by rw [hkeeps.absentRange]; exact habs) (by rw [hkeeps.stackOut]; exact hout)

/-- A part is written, or asked of its agent; what waits goes on waiting. -/
theorem putPart_keeps : b.RowKeeps (c.putPart r w) ∧ (∀ x ∈ (c.putPart r w).posted, x ∈ c.posted ∨ x = w) ∧
    (c.writeQueued r.flow = true ∨ c.partWaits r w = true → (c.putPart r w).writeQueued r.flow = true) := by
  cases waits : c.partWaits r w with
  | false =>
    have stores := putPart_writes hkeeps hd habs hout waits
    refine ⟨hkeeps.trans stores.rowKeeps, fun x hx => ?_, fun queued => ?_⟩
    · rw [stores.posted] at hx
      simpa using hx
    · unfold writeQueued at queued ⊢
      rw [stores.sameMap.queue]
      simpa using queued
  | true =>
    rw [putPart_eq, waits, if_pos rfl]
    refine ⟨hkeeps.trans ⟨rfl, rfl, rfl, fun _ _ _ _ => rfl⟩, fun x hx => .inl hx, fun _ => ?_⟩
    show List.any (c.agents.queue ++ [_]) _ = true
    simp [writeSpan]

end

section
variable {b c : Block} {r : AgentReq} {key value : Store} (hkeeps : b.ReadBy c)
  (hparts : ∀ w ∈ [key, value], w.data ≠ [] ∧ b.absentRange w.addr w.data.length = false ∧ b.stackOut w.addr = false)
include hkeeps hparts

/-- Where nothing stands before them, both parts are written. -/
theorem putParts_write (hnone : ∀ w ∈ [key, value], b.partWaits r w = false) :
    b.RowKeeps ([key, value].foldl (fun b w => b.putPart r w) c) ∧
      ([key, value].foldl (fun b w => b.putPart r w) c).posted = b.posted ++ [key, value] ∧
      ([key, value].foldl (fun b w => b.putPart r w) c).agents.queue = b.agents.queue := by
  obtain ⟨some, present, stays⟩ := hparts key (by simp)
  obtain ⟨some', present', stays'⟩ := hparts value (by simp)
  have map := hkeeps.sameMap
  have first := putPart_writes (r := r) hkeeps.rowKeeps some present stays
    (by unfold partWaits; rw [map.ownWaits]; exact hnone key (by simp))
  replace map := map.trans first.sameMap
  have kept := hkeeps.rowKeeps.trans first.rowKeeps
  have second := putPart_writes (r := r) kept some' present' stays'
    (by unfold partWaits; rw [map.ownWaits]; exact hnone value (by simp))
  exact ⟨kept.trans second.rowKeeps, by
    show ((c.putPart r key).putPart r value).posted = _
    rw [second.posted, first.posted, hkeeps.posted]
    simp, (map.trans second.sameMap).queue⟩

/-- Where something stands before a part, it is asked of its agent. -/
theorem putParts_ask (hsome : ∃ w ∈ [key, value], b.partWaits r w = true) :
    b.RowKeeps ([key, value].foldl (fun b w => b.putPart r w) c) ∧
      (∀ w ∈ ([key, value].foldl (fun b w => b.putPart r w) c).posted, w ∈ b.posted ∨ w ∈ [key, value]) ∧
      ([key, value].foldl (fun b w => b.putPart r w) c).writeQueued r.flow = true := by
  obtain ⟨some, present, stays⟩ := hparts key (by simp)
  obtain ⟨some', present', stays'⟩ := hparts value (by simp)
  obtain ⟨kept, posted, queued⟩ := putPart_keeps (r := r) hkeeps.rowKeeps some present stays
  obtain ⟨kept', posted', queued'⟩ := putPart_keeps (r := r) kept some' present' stays'
  refine ⟨kept', fun w hw => ?_, queued' ?_⟩
  · rcases posted' w hw with early | rfl
    · rcases posted w early with old | rfl
      · exact .inl (hkeeps.posted ▸ old)
      · exact .inr (by simp)
    · exact .inr (by simp)
  · have map := hkeeps.sameMap
    have same (w : Store) : c.partWaits r w = b.partWaits r w := by unfold partWaits; rw [map.ownWaits]
    cases first : b.partWaits r key with
    | true => exact .inl (queued (.inr (by rw [same]; exact first)))
    | false =>
      obtain ⟨w, mem, waits⟩ := hsome
      have later : w = value := by
        rcases List.mem_cons.1 mem with rfl | mem
        · rw [first] at waits; cases waits
        · simpa using mem
      have stored := putPart_writes (r := r) hkeeps.rowKeeps some present stays (by rw [same]; exact first)
      refine .inr ?_
      unfold partWaits at waits ⊢
      rw [(map.trans stored.sameMap).ownWaits, ← later]
      exact waits

end
end Block
end Sys2Proof.Machine

/-! ### RECORD (R107, R109) -/

namespace Sys2Proof.Machine

@[simp] theorem patch_length (bs : Bytes) (off : Nat) (new : Bytes) : (patch bs off new).length = bs.length := by
  unfold patch
  simp only [List.length_take, List.length_append, List.length_drop]
  omega

/-- Bytes outside a patch stand. -/
theorem patch_getElem?_of_out (bs : Bytes) {off k : Nat} {new : Bytes} (hoff : off ≤ bs.length)
    (h : k < off ∨ off + new.length ≤ k) : (patch bs off new)[k]? = bs[k]? := by
  unfold patch
  by_cases inside : k < bs.length
  · rw [List.getElem?_take_of_lt inside, List.append_assoc]
    rcases h with before | behind
    · rw [List.getElem?_append_left (by simp; omega), List.getElem?_take_of_lt before]
    · rw [List.getElem?_append_right (by simp; omega), List.getElem?_append_right (by simp; omega), List.getElem?_drop]
      congr 1
      simp only [List.length_take]
      omega
  · rw [List.getElem?_eq_none (by simp; omega), List.getElem?_eq_none (by omega)]

/-- The bytes of a patch that fits are read back. -/
theorem slice_patch (bs : Bytes) {off : Nat} {new : Bytes} (h : off + new.length ≤ bs.length) :
    slice (patch bs off new) off new.length = new := by
  have got : ((patch bs off new).drop off).take new.length = new := by
    have front : (bs.take off).length = off := by simp; omega
    unfold patch
    rw [List.drop_take, List.append_assoc, List.drop_append, front, Nat.sub_self, List.drop_zero,
      List.drop_of_length_le (by omega), List.nil_append, List.take_take, List.take_append_of_le_length (by omega)]
    exact List.take_of_length_le (by omega)
  unfold slice
  simp only [got, Nat.sub_self]
  simp [zeros]

/-- The low k bytes of a number. -/
theorem leNat_natLE_mod (k n : Nat) : leNat (natLE k n) = n % 256 ^ k := by
  induction k generalizing n with
  | zero => simp [natLE, leNat, Nat.mod_one]
  | succ k ih =>
    have cut : n % 256 ^ (k + 1) = n % 256 + 256 * (n / 256 % 256 ^ k) := by rw [pow_succ', Nat.mod_mul]
    rw [cut, ← ih]
    simp [natLE, leNat]

theorem leNat_drop (bs : Bytes) (k : Nat) : leNat (bs.drop k) = leNat bs / 256 ^ k := by
  induction k generalizing bs with
  | zero => simp
  | succ k ih =>
    cases bs with
    | nil => simp [leNat]
    | cons x xs =>
      have low := x.isLt
      have rest : leNat (x :: xs) / 256 = leNat xs := by
        show (x.toNat + 256 * leNat xs) / 256 = _
        omega
      rw [List.drop_succ_cons, ih, pow_succ', ← Nat.div_div_eq_div_mul, rest]

theorem leNat_take (bs : Bytes) (k : Nat) : leNat (bs.take k) = leNat bs % 256 ^ k := by
  induction k generalizing bs with
  | zero => simp [leNat, Nat.mod_one]
  | succ k ih =>
    cases bs with
    | nil => simp [leNat]
    | cons x xs =>
      have low := x.isLt
      have whole : leNat (x :: xs) = x.toNat + 256 * leNat xs := rfl
      have cut : leNat ((x :: xs).take (k + 1)) = x.toNat + 256 * leNat (xs.take k) := rfl
      have div : (x.toNat + 256 * leNat xs) / 256 = leNat xs := by omega
      rw [cut, ih, pow_succ', Nat.mod_mul, whole, div]
      omega

namespace Block

/-- GENERATION is bytes 16 to 19 of a record. -/
theorem crGeneration_eq {now : Bytes} (h : 20 ≤ now.length) : crGeneration now = leNat (slice now 16 4) := by
  have got : ((now.drop 16).take 4).length = 4 := by simp; omega
  unfold crGeneration slice
  simp only [got, Nat.sub_self, zeros, List.replicate_zero, List.append_nil]
  rw [bits_eq, leNat_take, leNat_drop]
  norm_num

/-- A record that replaces another has the other's GENERATION, counted up. -/
theorem nextGeneration_counted {now d : Bytes} (hnow : now.length = 64) (hd : d.length = recordBytes) :
    (nextGeneration now d).length = d.length ∧ (∀ k, (k < 16 ∨ 20 ≤ k) → (nextGeneration now d)[k]? = d[k]?) ∧
      leNat (slice (nextGeneration now d) 16 4) = (leNat (slice now 16 4) + 1) % 2 ^ 32 := by
  have long : 16 + (natLE 4 (crGeneration now + 1)).length ≤ d.length := by rw [hd, natLE_length]; decide
  refine ⟨patch_length .., fun k out => patch_getElem?_of_out d (by omega) (by rw [natLE_length]; exact out), ?_⟩
  have read := slice_patch d long
  rw [natLE_length] at read
  unfold nextGeneration
  rw [read, leNat_natLE_mod, crGeneration_eq (by omega)]
  norm_num

theorem tierWrite_faults (b : Block) (a : Nat) (d : Bytes) : (b.tierWrite a d).faults = b.faults := by
  have stored (us : List Nat) (c : Block) :
      (us.foldl (fun b u => (b.uncorrectable u).storePoisoned u) c).faults = c.faults :=
    List.foldlRecOn (motive := fun x : Block => x.faults = c.faults) _ _ rfl fun _ h _ _ => h
  have charged (c : Block) (x cost : Nat) : (c.charge x cost).faults = c.faults := by
    obtain ⟨_, _, same⟩ := charge_readFrom c x cost
    rw [same]
  have found : (b.reported a d.length).2.faults = b.faults := by
    obtain ⟨_, _, same⟩ := reported_readFrom b a d.length
    rw [same]
  unfold tierWrite
  dsimp only
  split_ifs
  · rfl
  · rfl
  · rw [charged]
    exact (stored ..).trans found

theorem ownPut_faults (b : Block) (a : Nat) (d : Bytes) (after : List After) : (b.ownPut a d after).1.faults = b.faults := by
  unfold ownPut
  dsimp only
  split_ifs
  · rfl
  · rfl
  · rfl
  · rfl
  · exact tierWrite_faults ..

theorem runAfter_faults (b : Block) (x : After) : (b.runAfter x).faults = b.faults := by
  cases x with
  | interrupt ring len a d =>
    show (b.interrupt ring len a d).faults = _
    unfold interrupt
    split
    · rfl
    · exact ownPut_faults ..
  | eventIndex => rfl
  | orphanIndex => rfl

/-- An event counts in SEQ; it lands no earlier write anew. -/
theorem event_follows (b : Block) (ty payload : Nat) : b.Followed (b.event ty payload) ∧
    (b.event ty payload).faults.eventSeq = (b.faults.eventSeq + 1) % 2 ^ 32 := by
  have written : b.Followed (b.eventWritten ty payload) ∧ (b.eventWritten ty payload).faults.eventSeq = b.faults.eventSeq := by
    unfold eventWritten ownWrite
    dsimp only
    generalize hb : ({ b with faults := _ } : Block) = b0
    have begun : b.Followed b0 ∧ b0.faults.eventSeq = b.faults.eventSeq := by
      rw [← hb]
      exact ⟨⟨rfl, rfl, ⟨[], (List.append_nil _).symm⟩, fun q hq => ⟨q, hq, rfl, rfl⟩, fun _ h h' => ⟨h, h'⟩⟩, rfl⟩
    have put := ownPut_followed b0
    have after (xs : List After) (c : Block) : (xs.foldl runAfter c).faults = c.faults :=
      List.foldlRecOn (motive := fun x : Block => x.faults = c.faults) _ _ rfl fun c h x _ => (runAfter_faults c x).trans h
    split
    · exact ⟨begun.1.trans ((put ..).trans (foldl_runAfter_followed ..)), by rw [after, ownPut_faults, begun.2]⟩
    · exact ⟨begun.1.trans (put ..), by rw [ownPut_faults, begun.2]⟩
  have counted (c : Block) (x : Faults) : c.Followed { c with faults := x } :=
    ⟨rfl, rfl, ⟨[], (List.append_nil _).symm⟩, fun q hq => ⟨q, hq, rfl, rfl⟩, fun _ h h' => ⟨h, h'⟩⟩
  unfold event
  split
  · exact ⟨(count_followed ..).trans (counted ..), rfl⟩
  · exact ⟨written.1.trans (counted ..), by
      show (_ + 1) % 2 ^ 32 = _
      rw [written.2]⟩

end Block
end Sys2Proof.Machine

/-! ### The oldest request of a port, an append or a record -/

namespace Sys2Proof.Machine

section
variable {s : State} {port : Nat} {r : AgentReq}
  (hwaits : s.blk.agents.shareWaits = []) (hfront : s.blk.front port = some r)
  (hheld : (port == Config.hostPort && s.blk.hostHolds) = false) (hparts : s.blk.partsWait r = false)
include hwaits hfront hheld hparts

/-- What APPEND or RECORD leaves is what its agent's work leaves, but for the turns of the share window. -/
theorem works_of_request {c : Instr} {d : Block} {perform : Memory → Block → AgentReq → Option Block}
    (hexec : exec c s = portStep s port perform) (hlock : s.blk.lockWaits r = false)
    (hroom : s.blk.shareRoom (opCost r.op).1 (opCost r.op).2 = true)
    (hperform : perform s.mem (s.blk.popFront r) r = some d) (hdone : d.words = []) {P : Block → Prop}
    (hP : ∀ ws, P (d.turned ws)) : Works c s P := by
  obtain ⟨ws, step, -⟩ := portStep_performed hwaits hfront hheld hparts hlock hperform hdone hroom
  exact ⟨d.turned ws, hexec.trans step, hP ws⟩

/-- RECORD at a tier: the whole record of a CALIBRATE, or a drift mark. -/
theorem record_atTier {a : Nat} {d : Bytes} {mark : Bool} (hop : r.op = .record a d mark) (hport : r.port = port)
    (htier : port ≠ Config.hostPort) (hroom : s.blk.shareRoom a (readCost a d.length + writeCost a d.length) = true) {P : Block → Prop}
    (hdone : ((s.blk.popFront r).performRecord s.mem a d mark).words = [])
    (hP : ∀ b, b.posted = ((s.blk.popFront r).performRecord s.mem a d mark).posted →
      b.faults = ((s.blk.popFront r).performRecord s.mem a d mark).faults → P b) :
    Works (.record port) s P := by
  have performed : doRecord s.mem (s.blk.popFront r) r =
      some (((s.blk.popFront r).performRecord s.mem a d mark).writeSeen s.mem r.flow a d.length) := by
    unfold doRecord
    rw [hop]
    simp [hport, htier]
  obtain ⟨⟨_, _, _, _, _, _, _, _, seen⟩, -⟩ :=
    Block.writeSeen_refetched s.mem ((s.blk.popFront r).performRecord s.mem a d mark) r.flow a d.length
  refine works_of_request hwaits hfront hheld hparts rfl (by simp [Block.lockWaits, hop]) (by rw [hop]; exact hroom)
    performed (by rw [seen]; exact hdone) fun ws => hP _ ?_ ?_
  · rw [seen]; rfl
  · rw [seen]; rfl

end
end Sys2Proof.Machine

namespace Sys2Proof.Machine
namespace Block

/-- A write to host memory is sent where the link is up, or its flow is not cut off (R488). -/
theorem hostSends_iff {b : Block} {flow : Option Nat} : b.hostSends flow = true ↔
    (flow.bind b.flow? = none ∧ b.hostUp = true) ∨ ∃ f, flow.bind b.flow? = some f ∧ b.cutsOff f = false := by
  unfold hostSends
  cases flow.bind b.flow? <;> simp

theorem absentRange_shorter {b : Block} {a len n : Nat} (hn : n ≤ len) (h : b.absentRange a len = false) :
    b.absentRange a n = false := by
  have all : ∀ u ∈ unitsOf a len, b.absent (max u a) = false := by simpa [absentRange] using h
  have some : ∀ u ∈ unitsOf a n, b.absent (max u a) = false := fun u hu => by
    obtain ⟨k, low, high, rfl⟩ := mem_unitsOf.1 hu
    have : (a + n - 1) / unitSize a ≤ (a + len - 1) / unitSize a := Nat.div_le_div_right (by omega)
    exact all _ (mem_unitsOf.2 ⟨k, low, by omega, rfl⟩)
  simpa [absentRange] using some

section
variable (m : Memory) {b : Block} {a : Nat} {d : Bytes}

/-- A calibration record is written whole. -/
theorem performRecord_whole (hd : d.length = recordBytes) (habs : b.absentRange a d.length = false)
    (hout : b.stackOut a = false) : (b.performRecord m a d false).words = b.words ∧
      (b.performRecord m a d false).posted = b.posted ++ [⟨a, nextGeneration (memRead (land m b.posted) a 64) d⟩] := by
  have whole : (nextGeneration (memRead (land m b.posted) a 64) d).length = d.length := patch_length ..
  have stores := tierWrite_stores (b := b) (a := a) (d := nextGeneration (memRead (land m b.posted) a 64) d)
    (List.ne_nil_of_length_pos (by rw [whole, hd]; decide)) (by rw [whole]; exact habs) hout
  exact ⟨stores.rowKeeps.words, stores.posted⟩

section
variable (habs : b.absentRange a 64 = false) (hout : b.stackOut a = false)
include habs hout

/-- A drift mark of the record that it was judged on: DRIFTED, and one event. -/
theorem performRecord_marks (hmarks : marks (memRead (land m b.posted) a 64) d = true) :
    (b.performRecord m a d true).words = b.words ∧
      (∃ more, (b.performRecord m a d true).posted = b.posted ++
        ⟨a, natLE 1 (leNat (slice (memRead (land m b.posted) a 64) 0 1) + 2)⟩ :: more) ∧
      (b.performRecord m a d true).faults.eventSeq = (b.faults.eventSeq + 1) % 2 ^ 32 := by
  have stores := tierWrite_stores (b := b) (a := a) (d := natLE 1 (leNat (slice (memRead (land m b.posted) a 64) 0 1) + 2))
    (List.ne_nil_of_length_pos (by rw [natLE_length]; decide)) (by rw [natLE_length]; exact absentRange_shorter (by decide) habs) hout
  have same := tierWrite_faults b a (natLE 1 (leNat (slice (memRead (land m b.posted) a 64) 0 1) + 2))
  unfold performRecord
  simp only [habs, hout, hmarks, Bool.not_true, Bool.or_self, Bool.false_eq_true, if_false, if_true]
  generalize b.tierWrite a _ = c at stores same ⊢
  obtain ⟨follows, seq⟩ := event_follows c 4 (leNat d)
  obtain ⟨more, posted⟩ := follows.posted
  exact ⟨follows.words.trans stores.rowKeeps.words, ⟨more, posted.trans (by rw [stores.posted]; simp)⟩,
    seq.trans (by rw [same])⟩

/-- A drift mark of a record that has changed since, or that is marked, is none. -/
theorem performRecord_stands (hmarks : marks (memRead (land m b.posted) a 64) d = false) : b.performRecord m a d true = b := by
  unfold performRecord
  simp [habs, hout, hmarks]

end
end
end Block

/-- A settled step has written nothing yet. -/
theorem landed_popFront {s : State} (hs : Settled s) (r : AgentReq) : land s.mem (s.blk.popFront r).posted = s.mem := by
  show land s.mem s.blk.posted = _
  rw [hs.1]
  rfl

section
variable {s : State} {port : Nat} {r : AgentReq} {a : Nat} {key value : Bytes} {sent : Bool} {f : Flow}
  (hs : Settled s) (hwords : s.blk.words = []) (hwaits : s.blk.agents.shareWaits = []) (hfront : s.blk.front port = some r)
  (hparts : s.blk.partsWait r = false) (hop : r.op = .append a key value sent) (htier : port ≠ Config.hostPort)
  (hroom : s.blk.shareRoom a (readCost a 32 + writeCost a 32) = true)
include hwaits hfront hparts hop htier hroom

/-- APPEND leaves what its agent's work leaves. -/
theorem append_works {P : Block → Prop} (hdone : ((s.blk.popFront r).performAppend s.mem r a key value sent).words = [])
    (hP : ∀ ws, P (((s.blk.popFront r).performAppend s.mem r a key value sent).turned ws)) : Works (.append port) s P :=
  works_of_request hwaits hfront (by simp [htier]) hparts rfl (by simp [Block.lockWaits, hop]) (by rw [hop]; exact hroom)
    (by simp [doAppend, hop]) hdone hP

/-- What an append that goes through leaves: writes, and behind them the descriptor with NEXT moved on. -/
def Appended (s : State) (a d : Nat) (b : Block) (ws : List Store) : Prop :=
  (∃ d', b.posted = ws ++ [⟨a, natLE 32 d'⟩] ∧
    (ddNext d < 2 ^ ddCap d → ddCap d ≤ 24 →
      ddNext d' = (if ddNext d + 1 == 2 ^ ddCap d then 0 else ddNext d + 1) ∧
        ddFull d' = (ddFull d || (ddNext d + 1 == 2 ^ ddCap d)))) ∧ b.od' 0x2302 3 = add64 (s.blk.od' 0x2302 3) 1

include hwords

/-- An append whose parts are written ends with its descriptor. -/
theorem append_finishes {c : Block} {d : Nat} {parts ws : List Store} (hkeeps : (s.blk.popFront r).RowKeeps c)
    (hposted : c.posted = ws)
    (heq : (s.blk.popFront r).performAppend s.mem r a key value sent = Block.finishAppend s.mem c f a d parts) :
    Works (.append port) s (fun b => Appended s a d b ws) := by
  obtain ⟨words, posted, count⟩ := Block.finishAppend_writes s.mem hkeeps f a d parts
  refine append_works hwaits hfront hparts hop htier hroom (by rw [heq]; exact words.trans hwords) fun _ => ?_
  rw [heq]
  exact ⟨⟨_, posted.trans (by rw [hposted]), fun below cap => nextDesk_fields below cap⟩, count⟩

variable (hf : r.flow.bind s.blk.flow? = some f) (hends : f.statuses.any endsEarly = false)
  (hread : sent = true ∨ ((s.blk.popFront r).agentReads a 32).1 = false)
include hf hends hread hs

theorem append_sealed (h : ddSealed (leNat (memRead s.mem a 32)) = true) :
    Works (.append port) s (fun b => b.posted = []) := by
  obtain ⟨words, posted⟩ := Block.performAppend_sealed s.mem (b := s.blk.popFront r) (key := key) (value := value) hf hends hread
    (by rw [landed_popFront hs]; exact h)
  exact append_works hwaits hfront hparts hop htier hroom (words.trans hwords) fun _ => posted.trans hs.1

variable (hopen : ddSealed (leNat (memRead s.mem a 32)) = false)
  (hslot : ddFull (leNat (memRead s.mem a 32)) = false ∨ dcWrap (f.copyAt 1) = true)
include hopen hslot

omit hwords hwaits hfront hparts hop htier hroom in
/-- The shape of an append that nothing of its desk stands against. -/
theorem performAppend_of_open : (s.blk.popFront r).performAppend s.mem r a key value sent =
    let own := s.blk.popFront r
    let d := leNat (memRead s.mem a 32)
    let parts := Block.appendParts f d (ddNext d) key value
    let c := if sent then own else parts.foldl (fun b w => b.putPart r w) (own.agentReads a 32).2
    let again := { r with op := .append a key value true }
    if !sent && c.writeQueued r.flow then { c with agents := { c.agents with queue := again :: c.agents.queue } }
    else Block.finishAppend s.mem c f a d parts := by
  have shape := Block.performAppend_open s.mem (b := s.blk.popFront r) (key := key) (value := value) hf hends hread
    (by rw [landed_popFront hs]; exact hopen) (by rw [landed_popFront hs]; exact hslot)
  rw [landed_popFront hs] at shape
  exact shape

theorem append_again (h : sent = true) : Works (.append port) s (fun b => Appended s a (leNat (memRead s.mem a 32)) b []) := by
  have shape := performAppend_of_open (key := key) (value := value) hs hf hends hread hopen hslot
  subst h
  exact append_finishes (f := f) (parts := Block.appendParts f _ _ key value) hwords hwaits hfront hparts hop htier hroom
    (.refl _) hs.1 (shape.trans (if_neg (by simp)))

variable (hfresh : sent = false) (hwhole : ∀ w ∈ Block.appendParts f (leNat (memRead s.mem a 32))
  (ddNext (leNat (memRead s.mem a 32))) key value,
    w.data ≠ [] ∧ s.blk.absentRange w.addr w.data.length = false ∧ s.blk.stackOut w.addr = false)
include hfresh hwhole

/-- Nothing stands before the parts: they are written, then the descriptor. -/
theorem append_writes (hnone : ∀ q ∈ (s.blk.popFront r).agents.queue, q.flow = r.flow → Block.writeSpan q.op = none)
    (hquiet : ∀ w ∈ Block.appendParts f (leNat (memRead s.mem a 32)) (ddNext (leNat (memRead s.mem a 32))) key value,
      (s.blk.popFront r).partWaits r w = false) :
    Works (.append port) s (fun b => Appended s a (leNat (memRead s.mem a 32)) b
      (Block.appendParts f (leNat (memRead s.mem a 32)) (ddNext (leNat (memRead s.mem a 32))) key value)) := by
  have shape := performAppend_of_open (key := key) (value := value) hs hf hends hread hopen hslot
  subst hfresh
  obtain ⟨kept, posted, queue⟩ := Block.putParts_write (r := r) (Block.agentReads_readBy (s.blk.popFront r) a 32) hwhole hquiet
  have start : (s.blk.popFront r).posted = [] := hs.1
  rw [start, List.nil_append] at posted
  refine append_finishes (f := f) (parts := Block.appendParts f _ _ key value) hwords hwaits hfront hparts hop htier hroom
    kept posted (shape.trans (if_neg ?_))
  have still : (Block.writeQueued (List.foldl (fun b w => b.putPart r w) ((s.blk.popFront r).agentReads a 32).2
      (Block.appendParts f (leNat (memRead s.mem a 32)) (ddNext (leNat (memRead s.mem a 32))) key value)) r.flow) = false := by
    unfold Block.writeQueued Block.appendParts
    rw [queue, List.any_eq_false]
    intro q hq
    by_cases flow : q.flow = r.flow
    · simp [hnone q hq flow]
    · simp [flow]
  simp [still]

/-- Something stands before a part: it is asked of its agent, and the append stays in front. -/
theorem append_asks
    (hbusy : ∃ w ∈ Block.appendParts f (leNat (memRead s.mem a 32)) (ddNext (leNat (memRead s.mem a 32))) key value,
      (s.blk.popFront r).partWaits r w = true) :
    Works (.append port) s (fun b => b.agents.queue.head? = some { r with op := .append a key value true } ∧
      (∀ w ∈ b.posted,
        w ∈ Block.appendParts f (leNat (memRead s.mem a 32)) (ddNext (leNat (memRead s.mem a 32))) key value) ∧
      b.od' 0x2302 3 = s.blk.od' 0x2302 3) := by
  have shape := performAppend_of_open (key := key) (value := value) hs hf hends hread hopen hslot
  subst hfresh
  obtain ⟨kept, posted, queued⟩ := Block.putParts_ask (r := r) (Block.agentReads_readBy (s.blk.popFront r) a 32) hwhole hbusy
  have start : (s.blk.popFront r).posted = [] := hs.1
  have asked := shape.trans (if_pos queued)
  refine append_works hwaits hfront hparts hop htier hroom (by rw [asked]; exact kept.words.trans hwords) fun _ => ?_
  rw [asked]
  refine ⟨rfl, fun w hw => ?_, kept.od _ _ (by decide) (by decide)⟩
  rcases posted w hw with old | new
  · rw [start] at old
    cases old
  · exact new

end

/-- Settles O38: an append by whether its parts wait at their agents, a record by what it marks. -/
theorem agentsAppendAndRecord : Obligations.AgentsAppendAndRecord := by
  intro s port r hs hwords hwaits hfront hport hparts
  have noWrite : s.blk.posted = [] := hs.1
  have nowhere := landed_popFront hs r
  refine ⟨?_, ?_⟩
  · intro a key value sent f op htier hf hends hroom hread own d parts last waits written
    have same (w : Store) : own.partWaits r w = waits w := by
      show (agentOf w.addr != r.port && _) = _
      rw [hport]
    refine ⟨append_sealed hs hwords hwaits hfront hparts op htier hroom hf hends hread, fun openDesk room => ⟨fun again =>
      append_again hs hwords hwaits hfront hparts op htier hroom hf hends hread openDesk room again,
      fun fresh hkey hvalue none present => ?_⟩⟩
    have whole : ∀ w ∈ parts, w.data ≠ [] ∧ s.blk.absentRange w.addr w.data.length = false ∧ s.blk.stackOut w.addr = false :=
      fun w hw => ⟨by
        rcases List.mem_cons.1 hw with rfl | hw
        · exact hkey
        · rw [List.mem_singleton.1 hw]
          exact hvalue, present w hw⟩
    exact ⟨fun quiet => append_writes hs hwords hwaits hfront hparts op htier hroom hf hends hread openDesk room fresh whole none
        fun w hw => (same w).trans (quiet w hw),
      fun busy => append_asks hs hwords hwaits hfront hparts op htier hroom hf hends hread openDesk room fresh whole
        (busy.imp fun w hw => ⟨hw.1, (same w).trans hw.2⟩)⟩
  · intro a d mark op hroom now counted
    refine ⟨fun htier => ?_, fun host goes marks whole sends => ?_⟩
    · have goes : (port == Config.hostPort && s.blk.hostHolds) = false := by simp [htier]
      have read : memRead (land s.mem (s.blk.popFront r).posted) a 64 = now := by rw [nowhere]
      refine ⟨fun whole some present stays => ?_, fun drift present stays => ⟨fun marks => ?_, fun stands => ?_⟩⟩
      · subst whole
        obtain ⟨words, posted⟩ := Block.performRecord_whole s.mem (b := s.blk.popFront r) some present stays
        refine record_atTier hwaits hfront goes hparts op hport htier hroom (words.trans hwords) fun b same _ => ?_
        rw [read] at posted
        exact ⟨_, same.trans (posted.trans (by rw [show (s.blk.popFront r).posted = [] from noWrite]; rfl)),
          Block.nextGeneration_counted (memRead_length ..) some⟩
      · subst drift
        obtain ⟨words, ⟨more, posted⟩, seq⟩ := Block.performRecord_marks s.mem (b := s.blk.popFront r) present stays
          (by rw [read]; exact marks)
        refine record_atTier hwaits hfront goes hparts op hport htier hroom (words.trans hwords) fun b same faults => ?_
        rw [read] at posted
        exact ⟨⟨more, same.trans (posted.trans (by rw [show (s.blk.popFront r).posted = [] from noWrite]; rfl))⟩,
          (congrArg Faults.eventSeq faults).trans seq⟩
      · subst drift
        have stand := Block.performRecord_stands s.mem (b := s.blk.popFront r) present stays (by rw [read]; exact stands)
        refine record_atTier hwaits hfront goes hparts op hport htier hroom (by rw [stand]; exact hwords) fun b same faults => ?_
        rw [stand] at same faults
        exact ⟨same.trans noWrite, faults⟩
    · subst marks
      have held : (port == Config.hostPort && s.blk.hostHolds) = false := by simp [goes]
      have sent : (s.blk.popFront r).hostSends r.flow = true := Block.hostSends_iff.2 (sends.imp_right fun ⟨f, h⟩ => ⟨f, h⟩)
      have performed : doRecord s.mem (s.blk.popFront r) r =
          some ((s.blk.popFront r).post a (Block.nextGeneration now d)) := by
        unfold doRecord Block.hostRecord
        rw [op, nowhere, ← Block.hostWrite_sent sent]
        simp [hport, host, now]
      refine works_of_request hwaits hfront held hparts rfl (by simp [Block.lockWaits, op]) (by rw [op]; exact hroom)
        performed hwords fun ws => ⟨_, ?_, Block.nextGeneration_counted (memRead_length ..) whole⟩
      show s.blk.posted ++ _ = _
      rw [noWrite]
      rfl

end Sys2Proof.Machine

/-! ### SHARE_WINDOW (R324) -/

namespace Sys2Proof.Machine

theorem mapFind_cons (e : Nat × Nat) (es : NatMap) (k : Nat) :
    mapFind (e :: es) k = if e.1 = k then some e.2 else mapFind es k := by
  unfold mapFind
  by_cases here : e.1 = k <;> simp [here]

/-- Entries of distinct keys set one after the other, each to what `g` leaves of it. -/
theorem mapGet_foldl_set (g : Nat → Nat → Nat) {es : NatMap} (hes : es.Pairwise (fun x y => x.1 < y.1)) (m : NatMap) (k : Nat) :
    mapGet (es.foldl (fun l e => mapSet l 0 e.1 (g e.1 e.2)) m) 0 k = ((mapFind es k).map (g k)).getD (mapGet m 0 k) := by
  induction es generalizing m with
  | nil => rfl
  | cons e es ih =>
    obtain ⟨above, later⟩ := List.pairwise_cons.1 hes
    rw [List.foldl_cons, ih later, mapFind_cons]
    by_cases here : e.1 = k
    · subst here
      have gone : mapFind es e.1 = none := by
        have : es.find? (fun x => x.1 == e.1) = none := List.find?_eq_none.2 fun x hx => by
          have := above x hx
          simp only [beq_iff_eq]
          omega
        unfold mapFind
        rw [this]
        rfl
      rw [gone, if_pos rfl, mapGet_set_self]
      rfl
    · rw [if_neg here, mapGet_set_other _ _ _ _ _ (Ne.symm here)]

namespace Block

/-- A new window holds what each stack or channel moved beyond its budget. -/
theorem openShares_moved {b : Block} (h : b.agents.moved.Pairwise (fun x y => x.1 < y.1)) (k : Nat) :
    mapGet b.openShares.agents.moved 0 k = mapGet b.agents.moved 0 k - b.shareBudget k := by
  have left := mapGet_foldl_set (fun key n => n - b.shareBudget key) h [] k
  show mapGet (b.agents.moved.foldl _ []) 0 k = _
  rw [left]
  unfold mapGet
  cases mapFind b.agents.moved k with
  | none => exact (Nat.zero_sub _).symm
  | some v => rfl

theorem openShares_eq (b : Block) : ∃ left, b.openShares = { b with agents := { b.agents with moved := left, began := left } } :=
  ⟨_, rfl⟩

end Block
end Sys2Proof.Machine

/-! ### ROW_FILL (R165, R331, R332, R335) -/

namespace Sys2Proof.Machine

@[simp] theorem lineAddr_lineAddr (a : Nat) : lineAddr (lineAddr a) = lineAddr a := by
  unfold lineAddr
  rw [Nat.mul_div_cancel _ (by decide)]

theorem pageOf_lineAddr (a : Nat) : pageOf (lineAddr a) = pageOf a := by
  unfold pageOf lineAddr
  rw [bits_eq, bits_eq]
  omega

theorem setOf_lineAddr (a : Nat) : setOf (lineAddr a) = setOf a := by
  have low : bits (lineAddr a) 11 8 = bits a 11 8 := by
    unfold lineAddr
    rw [bits_eq, bits_eq]
    omega
  unfold setOf
  rw [pageOf_lineAddr, low]

theorem linesOf_lineAddr (a : Nat) : linesOf (lineAddr a) 256 = [lineAddr a] := by
  have first : lineAddr a / 256 = a / 256 := Nat.mul_div_cancel _ (by decide)
  have last : (lineAddr a + 256 - 1) / 256 = a / 256 := by unfold lineAddr; omega
  unfold linesOf span
  rw [first, last]
  simp [lineAddr]

namespace Block

variable {b : Block} {a : Nat}

theorem line?_lineAddr (b : Block) (a : Nat) : b.line? (lineAddr a) = b.line? a := by
  unfold line?
  rw [lineAddr_lineAddr]

theorem half_lineAddr (b : Block) (a : Nat) : b.half (lineAddr a) = b.half a := by
  unfold half homeSouth
  rw [pageOf_lineAddr]

theorem fillWaits_lineAddr (b : Block) (a : Nat) : b.fillWaits (lineAddr a) = b.fillWaits a := by
  unfold fillWaits
  rw [half_lineAddr, setOf_lineAddr]

section
variable (hsound : ∀ l ∈ b.cache.lines, l.err = 0)
include hsound

theorem parityCheck_sound (south : Bool) (set : Nat) : b.parityCheck south set = b := by
  have none : b.cache.lines.filter (fun l => l.south == south && l.set == set && l.err == 3) = [] :=
    List.filter_eq_nil_iff.2 fun l hl => by simp [hsound l hl]
  unfold parityCheck
  rw [none]
  rfl

theorem err_of_line? {l : Line} (h : b.line? a = some l) : l.err = 0 := hsound l (List.mem_of_find?_eq_some h)

/-- A line held sound is hit. -/
theorem lookup_hit (m : Memory) {l : Line} (h : b.line? a = some l) (hint : Nat) :
    lookup m b a hint none false = (l.data, false, (b.touch l hint none).count 0x2504 8 1) := by
  have clean : ({ l with err := 0 } : Line) = l := by rw [← err_of_line? hsound h]
  unfold lookup
  simp only [parityCheck_sound hsound, h, err_of_line? hsound h, clean]
  rfl

/-- A line that is not held is fetched. -/
theorem lookup_miss (m : Memory) (h : b.line? a = none) (hint : Nat) :
    lookup m b a hint none false = missLine m b a hint none := by
  unfold lookup
  simp only [parityCheck_sound hsound, h]

end

/-- ROW_FILL of a present line is one lookup. -/
theorem rowLines_one (m : Memory) (habs : b.absentRange (lineAddr a) 256 = false) (hint : Nat) :
    rowLines m b (lineAddr a) 256 hint none false =
      let x := lookup m b (lineAddr a) hint none false
      (slice x.1 0 256, x.2.1, x.2.2) := by
  have start : lineAddr a % 256 = 0 := Nat.mul_mod_left _ _
  unfold rowLines lookupSpan
  simp only [habs, linesOf_lineAddr, start, List.foldl_cons, List.foldl_nil, List.nil_append, Bool.false_or,
    Bool.false_eq_true, if_false]

end Block
end Sys2Proof.Machine

namespace Sys2Proof.Machine
namespace Block

theorem touch_eq (b : Block) (l : Line) (hint : Nat) (flow : Option Nat) : ∃ cache, b.touch l hint flow = { b with cache := cache } := by
  unfold touch
  dsimp only
  split <;> exact ⟨_, rfl⟩

/-- c is b after a line took its way: what was written back waits at its agent, and the line's checkers may have used up an
injection. -/
structure Filled (b c : Block) : Prop where
  blk : ∃ od cache more inj, c = { b with
    od := od, cache := cache, agents := { b.agents with queue := b.agents.queue ++ more },
    faults := { b.faults with injections := inj } }
  od : ∀ i j, j < 256 → (i, j) ∉ [(0x2504, 0x0A)] → c.od' i j = b.od' i j
  uninjected : b.faults.injections = [] → c.faults.injections = []

theorem Filled.refl (b : Block) : b.Filled b := ⟨⟨_, _, [], _, by rw [List.append_nil]⟩, fun _ _ _ _ => rfl, id⟩

theorem Filled.trans {b c d : Block} (h : b.Filled c) (h' : c.Filled d) : b.Filled d := by
  obtain ⟨⟨_, _, _, _, rfl⟩, keep, none⟩ := h
  obtain ⟨⟨_, _, _, _, rfl⟩, keep', none'⟩ := h'
  exact ⟨⟨_, _, _, _, by rw [List.append_assoc]⟩, fun i j hj hij => (keep' i j hj hij).trans (keep i j hj hij),
    fun h => none' (none h)⟩

theorem filled_cache (b : Block) (cache : Cache) : b.Filled { b with cache := cache } :=
  ⟨⟨_, _, [], _, by rw [List.append_nil]⟩, fun _ _ _ _ => rfl, id⟩

theorem injected_filled (b : Block) (unit checker : Nat) : b.Filled (b.injected unit checker).2 := by
  by_cases armed : b.faults.injections = []
  · rw [injected_none armed]
    exact .refl b
  · unfold injected
    split
    · exact ⟨⟨_, _, [], _, by rw [List.append_nil]⟩, fun _ _ _ _ => rfl, fun none => absurd none armed⟩
    · exact .refl b

theorem lineErr_filled (b : Block) (l : Line) : b.Filled (b.lineErr l).2 := by
  unfold lineErr
  dsimp only
  have first := injected_filled b l.unit 2
  generalize b.injected l.unit 2 = x at first ⊢
  have second := injected_filled x.2 l.unit 1
  generalize x.2.injected l.unit 1 = y at second ⊢
  split
  · exact first
  · split
    · exact first.trans second
    · exact first.trans (second.trans (injected_filled ..))

/-- Without an injection a line's checkers find nothing. -/
theorem lineErr_none {b : Block} (h : b.faults.injections = []) (l : Line) : b.lineErr l = ({ l with err := 0 }, b) := by
  unfold lineErr
  simp [injected_none h]

/-- The line that leaves its way for another: written back first where it is dirty. -/
def clearWay (b : Block) (old : Option Line) : Block :=
  match old with
  | none => b
  | some l => if l.dirty then (b.evict l).count 0x2504 0x0A 1 else b.dropLine l

theorem fill_eq (b : Block) (a : Nat) (data : Bytes) (hint : Nat) (flow : Option Nat) {way : Nat} {old : Option Line}
    (h : b.victim (b.half a) (setOf a) = some (way, old)) :
    b.fill a data hint flow =
      let b1 := b.clearWay old
      let b2 : Block := { b1 with cache := { b1.cache with waits := b1.cache.waits.filter (· != lineAddr a) } }
      let n := b2.newest
      let x := n.2.lineErr { newLine (b.half a) (setOf a) way (lineAddr a) data (if hint == 2 then -n.1 else n.1) with
        filler := if hint == 3 then flow else none }
      x.2.setLines (x.1 :: x.2.cache.lines) := by
  unfold fill
  simp only [h]
  cases old <;> rfl

/-- The victim is an ordinary line. -/
theorem victim_line {b : Block} {south : Bool} {set way : Nat} {l : Line} (h : b.victim south set = some (way, some l)) :
    l ∈ b.cache.lines ∧ l.bb = false := by
  unfold victim at h
  dsimp only at h
  generalize hused : b.cache.lines.filter _ = used at h
  have mem : l ∈ used := by
    split at h
    · cases h
    · obtain ⟨x, found, same⟩ := Option.map_eq_some_iff.1 h
      cases same
      refine List.foldlRecOn (motive := fun acc : Option Line => ∀ l, acc = some l → l ∈ used) used _
        (fun _ none => by cases none) (fun acc kept y hy l hl => ?_) l found
      cases acc with
      | none =>
        obtain rfl := Option.some.inj hl
        exact hy
      | some x =>
        dsimp only at hl
        split at hl
        · obtain rfl := Option.some.inj hl
          exact hy
        · exact kept l hl
  rw [← hused] at mem
  obtain ⟨held, kind⟩ := List.mem_filter.1 mem
  simp only [Bool.and_eq_true, Bool.not_eq_true'] at kind
  exact ⟨held, kind.1.2⟩

/-- A way in service is a victim, or a line in one. -/
theorem victim_isSome {b : Block} {south : Bool} {set : Nat} (h : 0 < (b.ordinaryWays south).length) :
    (b.victim south set).isSome = true := by
  unfold victim
  dsimp only
  generalize hused : b.cache.lines.filter _ = used
  cases free : (b.ordinaryWays south).find? (fun w => used.all (fun l => l.way != w)) with
  | some w => rfl
  | none =>
    obtain ⟨way, ways⟩ := List.exists_mem_of_length_pos h
    have taken := List.find?_eq_none.1 free way ways
    cases used with
    | nil => simp at taken
    | cons x xs =>
      rw [Option.isSome_map, List.foldl_cons]
      refine List.foldlRecOn (motive := fun acc : Option Line => acc.isSome = true) xs _ rfl fun acc some y _ => ?_
      cases acc with
      | none => rfl
      | some x =>
        dsimp only
        split <;> rfl

theorem clearWay_filled {b : Block} {old : Option Line} (h : ∀ l, old = some l → l.err = 0 ∧ l.bb = false) :
    b.Filled (b.clearWay old) := by
  have dropped (c : Block) (l : Line) (hbb : l.bb = false) : c.Filled (c.dropLine l) := by
    unfold dropLine
    rw [hbb]
    exact filled_cache ..
  cases old with
  | none => exact .refl b
  | some l =>
    obtain ⟨sound, ordinary⟩ := h l rfl
    unfold clearWay
    dsimp only
    split
    · next dirty =>
      have counted (c : Block) : c.Filled (c.count 0x2504 0x0A 1) :=
        ⟨⟨_, _, [], _, by rw [List.append_nil]; rfl⟩, fun _ _ hj hij =>
          count_od'_of_ne _ _ hj (by decide) (by simpa using hij) (by decide) (by decide), id⟩
      have sent : b.Filled (b.sendBack l) := by
        unfold sendBack dirtyRead
        simp only [sound]
        exact ⟨⟨_, _, [_], _, rfl⟩, fun _ _ _ _ => rfl, id⟩
      unfold evict
      rw [if_pos dirty]
      exact sent.trans ((dropped _ l ordinary).trans (counted _))
    · exact dropped b l ordinary

theorem fill_filled {b : Block} (hsound : ∀ l ∈ b.cache.lines, l.err = 0) (a : Nat) (data : Bytes) (hint : Nat)
    (flow : Option Nat) : b.Filled (b.fill a data hint flow) := by
  cases found : b.victim (b.half a) (setOf a) with
  | none =>
    have stays : b.fill a data hint flow = b := by unfold fill; simp only [found]
    rw [stays]
    exact .refl b
  | some x =>
    obtain ⟨way, old⟩ := x
    have room : b.Filled (b.clearWay old) := clearWay_filled fun l hl => by
      subst hl
      exact (victim_line found).imp_left (hsound l)
    rw [fill_eq b a data hint flow found]
    dsimp only
    exact room.trans ((filled_cache ..).trans ((filled_cache ..).trans ((lineErr_filled ..).trans (filled_cache ..))))

/-- A fetched line is held from then on. -/
theorem fill_line {b : Block} (hsound : ∀ l ∈ b.cache.lines, l.err = 0) (hways : 0 < (b.ordinaryWays (b.half a)).length)
    (hinj : b.faults.injections = []) (data : Bytes) (hint : Nat) (flow : Option Nat) :
    ∃ l, (b.fill a data hint flow).line? a = some l ∧ l.data = data ∧ l.dirty = false := by
  obtain ⟨⟨way, old⟩, found⟩ := Option.isSome_iff_exists.1 (victim_isSome (set := setOf a) hways)
  have room : b.Filled (b.clearWay old) := clearWay_filled fun l hl => by
    subst hl
    exact (victim_line found).imp_left (hsound l)
  rw [fill_eq b a data hint flow found]
  dsimp only
  rw [lineErr_none]
  case h => exact room.uninjected hinj
  exact ⟨_, List.find?_cons_of_pos (by simp [newLine]), rfl, rfl⟩

end Block
end Sys2Proof.Machine

namespace Sys2Proof.Machine
namespace Block

/-- A miss served by the owning agent: the line's bytes, counted, charged and put in its way. -/
theorem missLine_clean (m : Memory) {b : Block} {a : Nat} (hwaits : b.fillWaits a = false)
    (hahead : b.rowOpAhead (lineAddr a) 256 = false) (hheld : b.stackHeld (lineAddr a) = false)
    (hout : b.stackOut (lineAddr a) = false) (habs : b.absentRange (lineAddr a) 256 = false)
    (hroom : b.shareRoom (lineAddr a) (readCost (lineAddr a) 256) = true) (hbad : b.badUnits (lineAddr a) 256 = [])
    (hfail : ∀ u ∈ unitsOf (lineAddr a) 256, b.agents.failing.contains u = false) (hblocked : b.blocked = false) (hint : Nat) :
    missLine m b (lineAddr a) hint none = (agentView m b (lineAddr a) 256, false,
      ((b.count 0x2504 9 1).charge (lineAddr a) (readCost (lineAddr a) 256)).fill (lineAddr a) (agentView m b (lineAddr a) 256)
        hint none) := by
  have same : b.SameMap (b.count 0x2504 9 1) := ⟨rfl, rfl, rfl, fun i j hj other =>
    count_od'_of_ne b 1 hj (by decide) (by rintro ⟨⟩; simp at other) (by decide) (by decide)⟩
  have read := tierRead_clean (b := b.count 0x2504 9 1) (a := lineAddr a) (len := 256) (by decide) hahead
    ((same.stackHeld _).trans hheld) m ((same.stackOut _).trans hout) ((same.absentRange ..).trans habs)
    ((same.shareRoom ..).trans hroom) hfail
  have good : (b.count 0x2504 9 1).badUnits (lineAddr a) 256 = [] := hbad
  rw [good] at read
  have view : agentView m (b.count 0x2504 9 1) (lineAddr a) 256 = agentView m b (lineAddr a) 256 := rfl
  obtain ⟨_, _, charged⟩ := charge_readFrom (b.count 0x2504 9 1) (lineAddr a) (readCost (lineAddr a) 256)
  have unblocked : ((b.count 0x2504 9 1).charge (lineAddr a) (readCost (lineAddr a) 256)).blocked = false := by
    rw [charged]
    exact hblocked
  unfold missLine
  rw [fillWaits_lineAddr, hwaits, lineAddr_lineAddr, read, view]
  simp [unblocked]

end Block

theorem Block.agentView_length (m : Memory) (b : Block) (a len : Nat) : (agentView m b a len).length = len := by
  unfold agentView
  dsimp only
  split <;> exact memRead_length ..

theorem slice_whole {bs : Bytes} {n : Nat} (h : bs.length = n) : slice bs 0 n = bs := by
  subst h
  unfold slice
  simp [zeros]

/-- ROW_FILL of a present line of a tier looks it up. -/
theorem exec_rowFill {s : State} {a hint : Nat} (hmap : a < 2 ^ 52) (htier : isHost a = false)
    (habs : s.blk.absentRange (lineAddr a) 256 = false) : exec (.rowFill a hint) s =
      let x := Block.lookup s.mem s.blk (lineAddr a) hint none false
      finishRead s (x.2.2.answerRead (slice x.1 0 256) x.2.1) := by
  show execRowFill a hint s = _
  unfold execRowFill
  rw [show beyondMap a 1 = false by unfold beyondMap; simp; omega, htier, Block.rowLines_one s.mem habs]
  rfl

/-- Settles O39: a hit is answered by its line, a miss by its agent; a window begins with what was moved beyond it. -/
theorem linesFilledAndWindowsBegun : Obligations.LinesFilledAndWindowsBegun := by
  refine ⟨fun s a hint hs inMap tier present sound => ⟨fun l held whole => ?_,
    fun unheld noWait noOp notHeld stays room good works => ?_⟩, fun s hs words sorted => ?_⟩
  all_goals obtain ⟨noWrite, unblocked, quiet, idle⟩ := hs
  · have exec_eq := exec_rowFill (hint := hint) inMap tier present
    have held' : s.blk.line? (lineAddr a) = some l := (s.blk.line?_lineAddr a).trans held
    rw [Block.lookup_hit sound s.mem held'] at exec_eq
    obtain ⟨cache, touched⟩ := s.blk.touch_eq l hint none
    have value : ({ s.blk with cache := cache }.count 0x2504 8 1).od' 0x2504 8 = add64 (s.blk.od' 0x2504 8) 1 :=
      Block.count_self ..
    have others (i j : Nat) (hj : j < 256) (other : (i, j) ∉ [(0x2504, 8)]) :
        ({ s.blk with cache := cache }.count 0x2504 8 1).od' i j = s.blk.od' i j :=
      Block.count_od'_of_ne { s.blk with cache := cache } 1 hj (by decide) (by simpa using other) (by decide) (by decide)
    dsimp only at exec_eq
    rw [touched] at exec_eq
    refine gives_of_endOf_read exec_eq unblocked quiet.1 quiet.2.1 fun t ends => ?_
    obtain ⟨_, _, _, same⟩ := ends.blk
    refine ⟨?_, ?_, ?_, ?_, ends.odOnly others⟩
    · rw [same]
      exact slice_whole whole
    · rw [same]
      rfl
    · rw [ends.od _ _ (by decide)]
      exact value
    · rw [ends.mem]
      show land s.mem s.blk.posted = s.mem
      rw [noWrite]
      rfl
  · have exec_eq := exec_rowFill (hint := hint) inMap tier present
    have unheld' : s.blk.line? (lineAddr a) = none := (s.blk.line?_lineAddr a).trans unheld
    rw [Block.lookup_miss sound s.mem unheld',
      Block.missLine_clean s.mem noWait noOp notHeld stays present room good works unblocked] at exec_eq
    have view : slice (Block.agentView s.mem s.blk (lineAddr a) 256) 0 256 = Block.agentView s.mem s.blk (lineAddr a) 256 :=
      slice_whole (Block.agentView_length ..)
    dsimp only at exec_eq
    rw [view] at exec_eq
    obtain ⟨moved, charged⟩ := Block.charge_agents (s.blk.count 0x2504 9 1) (lineAddr a) (readCost (lineAddr a) 256)
    have value := Block.count_self s.blk 0x2504 9 1
    have others (i j : Nat) (hj : j < 256) (other : (i, j) ≠ (0x2504, 9)) : (s.blk.count 0x2504 9 1).od' i j = s.blk.od' i j :=
      Block.count_od'_of_ne s.blk 1 hj (by decide) other (by decide) (by decide)
    obtain ⟨od, counted⟩ : ∃ od, s.blk.count 0x2504 9 1 = { s.blk with od := od } := ⟨_, rfl⟩
    rw [charged, counted] at exec_eq
    rw [counted] at value
    simp only [counted] at others
    have filled (b : Block) (hb : b.cache = s.blk.cache) := Block.fill_filled (b := b) (by rw [hb]; exact sound) (lineAddr a)
      (Block.agentView s.mem s.blk (lineAddr a) 256) hint none
    have kept (b : Block) (hb : b.cache = s.blk.cache) := Block.fill_line (b := b) (a := lineAddr a) (by rw [hb]; exact sound)
    replace filled := filled { s.blk with od := od, agents := { s.blk.agents with moved := moved } } rfl
    replace kept := fun ways none => kept { s.blk with od := od, agents := { s.blk.agents with moved := moved } } rfl ways none
      (Block.agentView s.mem s.blk (lineAddr a) 256) hint Option.none
    have ways : Block.ordinaryWays { s.blk with od := od, agents := { s.blk.agents with moved := moved } }
        (Block.half { s.blk with od := od, agents := { s.blk.agents with moved := moved } } (lineAddr a)) =
          s.blk.ordinaryWays (s.blk.half a) := by
      rw [← s.blk.half_lineAddr a]
      unfold Block.ordinaryWays Block.bbWays
      rw [show Block.od' { s.blk with od := od, agents := { s.blk.agents with moved := moved } } 0x2301 1 = s.blk.od' 0x2301 1
        from others 0x2301 1 (by decide) (by decide)]
      refine List.filter_congr fun w _ => ?_
      unfold Block.wayUp
      rw [show Block.od' { s.blk with od := od, agents := { s.blk.agents with moved := moved } } 0x2802 7 = s.blk.od' 0x2802 7
        from others 0x2802 7 (by decide) (by decide)]
      rfl
    rw [ways] at kept
    dsimp only at exec_eq
    generalize Block.fill { s.blk with od := od, agents := { s.blk.agents with moved := moved } } (lineAddr a)
      (Block.agentView s.mem s.blk (lineAddr a) 256) hint none = c at filled exec_eq kept
    obtain ⟨⟨od', cache, more, inj, same⟩, keep, -⟩ := filled
    subst same
    refine gives_of_endOf_read exec_eq unblocked quiet.1 quiet.2.1 fun t ends => ?_
    obtain ⟨_, _, _, same⟩ := ends.blk
    refine ⟨by rw [same]; rfl, by rw [same]; rfl, ?_, ?_, fun some none => ?_⟩
    · rw [ends.od _ _ (by decide)]
      exact (keep 0x2504 9 (by decide) (by decide)).trans value
    · rw [ends.mem]
      show land s.mem s.blk.posted = s.mem
      rw [noWrite]
      rfl
    · obtain ⟨l, held, data, clean⟩ := kept some none
      refine ⟨l, ?_, data, clean⟩
      rw [← t.blk.line?_lineAddr, same]
      exact held
  · obtain ⟨left, opened⟩ := s.blk.openShares_eq
    have moved := Block.openShares_moved sorted
    have exec_eq : exec .shareWindow s = finish s s.blk.openShares := by
      show finish s (s.blk.openShares.serveWords s.mem) = _
      unfold Block.serveWords
      simp [opened, words]
    rw [opened] at exec_eq moved
    refine gives_of_quietEnd exec_eq (.congr quiet rfl rfl rfl fun _ => rfl) fun t quietly ends => ?_
    subst quietly
    refine ⟨moved, rfl, ?_, ?_, ends.odOnly fun _ _ _ _ => rfl, ?_⟩
    · obtain ⟨at', range, -⟩ := idle
      show { s.blk.agents with heldAt := none, heldRange := none } = _
      rw [← at', ← range]
    · show land s.mem s.blk.posted = s.mem
      rw [noWrite]
      rfl
    · show { s.blk with posted := [], blocked := false } = s.blk
      rw [← noWrite, ← unblocked]

end Sys2Proof.Machine

/-! ### One grant at a resource (R380) -/

namespace Sys2Proof.Machine
namespace Block

/-- c is b after a grant: the timetable's own counts moved on. -/
def Granted (b c : Block) : Prop :=
  (∃ od row waits, c = { b with od := od, streams := { b.streams with finiteRow := row, waits := waits } }) ∧
    ∀ i j, j < 256 → (i, j) ∉ [(0x2603, 3)] → c.od' i j = b.od' i j

theorem Granted.refl (b : Block) : b.Granted b := ⟨⟨_, _, _, rfl⟩, fun _ _ _ _ => rfl⟩

theorem mem_of_first {b : Block} {claims : List Flow} {g : Flow} (h : b.first claims = some g) : g ∈ claims := by
  unfold first at h
  refine List.foldlRecOn (motive := fun acc : Option Flow => ∀ g, acc = some g → g ∈ claims) claims _
    (fun _ none => by cases none) (fun acc kept f hf g hg => ?_) g h
  cases acc with
  | none =>
    obtain rfl := Option.some.inj hg
    exact hf
  | some x =>
    dsimp only at hg
    split at hg
    · obtain rfl := Option.some.inj hg
      exact hf
    · exact kept g hg

theorem mem_of_waitOrder {b : Block} {resource : Nat} {claims : List Flow} {g : Flow}
    (h : g ∈ b.waitOrder resource claims) : g ∈ claims := by
  rcases List.mem_append.1 h with known | fresh
  · obtain ⟨i, -, found⟩ := List.mem_filterMap.1 known
    exact List.mem_of_find?_eq_some found
  · exact List.mem_of_mem_filter ((List.perm_insertionSort _ _).mem_iff.1 fresh)

/-- A grant goes to a claim. -/
theorem grant_some {b c : Block} {resource : Nat} {claims : List Flow} {f : Flow}
    (h : b.grant resource claims = some (f, c)) : f ∈ claims ∧ b.Granted c := by
  have granted (run : Nat) (order : List Flow) (g : Flow) : b.Granted (b.granted resource run order g).2 :=
    ⟨⟨_, _, _, rfl⟩, fun _ _ _ _ => rfl⟩
  have counted (run : Nat) (order : List Flow) (g : Flow) : b.Granted ((b.count 0x2603 3 1).granted resource run order g).2 :=
    ⟨⟨_, _, _, rfl⟩, fun i j hj hij =>
      count_od'_of_ne b 1 hj (by decide) (by simpa using hij) (by decide) (by decide)⟩
  unfold grant at h
  dsimp only at h
  split at h
  · next g head =>
    split at h
    · cases h
      exact ⟨mem_of_waitOrder (List.mem_of_mem_filter (List.mem_of_mem_head? head)), counted ..⟩
    · obtain ⟨g, first, same⟩ := Option.map_eq_some_iff.1 h
      cases same
      exact ⟨mem_of_first first, granted ..⟩
  · obtain ⟨g, first, same⟩ := Option.map_eq_some_iff.1 h
    cases same
    exact ⟨mem_of_first first, granted ..⟩

/-- One claim is granted. -/
theorem grant_one (b : Block) (resource : Nat) (f : Flow) : ∃ c, b.grant resource [f] = some (f, c) ∧ b.Granted c := by
  have some : (b.grant resource [f]).isSome = true := by
    unfold grant
    dsimp only
    split
    · split
      · rfl
      · rfl
    · rfl
  obtain ⟨⟨g, c⟩, h⟩ := Option.isSome_iff_exists.1 some
  obtain ⟨mem, granted⟩ := grant_some h
  obtain rfl := List.mem_singleton.1 mem
  exact ⟨c, h, granted⟩

end Block
end Sys2Proof.Machine

/-! ### The wings' engines and their power interfaces -/

namespace Sys2Proof.Machine
namespace Block

@[simp] theorem engine_setEngine (b : Block) (w : Wing) (e : WingEngine) : (b.setEngine w e).engine w = e := by cases w <;> rfl
@[simp] theorem engine_setEngine_other (b : Block) (w : Wing) (e : WingEngine) :
    (b.setEngine w e).engine (otherWing w) = b.engine (otherWing w) := by cases w <;> rfl
@[simp] theorem engine_setWingPower (b : Block) (w v : Wing) (p : WingPower) : (b.setWingPower w p).engine v = b.engine v := by
  cases w <;> cases v <;> rfl
@[simp] theorem engine_count (b : Block) (i j n : Nat) (w : Wing) : (b.count i j n).engine w = b.engine w := by cases w <;> rfl
@[simp] theorem wingPower_setWingPower (b : Block) (w : Wing) (p : WingPower) : (b.setWingPower w p).wingPower w = p := by
  cases w <;> rfl
@[simp] theorem wingPower_setEngine (b : Block) (w v : Wing) (e : WingEngine) :
    (b.setEngine w e).wingPower v = b.wingPower v := by cases w <;> cases v <;> rfl
@[simp] theorem wingPower_count (b : Block) (i j n : Nat) (w : Wing) : (b.count i j n).wingPower w = b.wingPower w := by
  cases w <;> rfl
@[simp] theorem flows_setEngine (b : Block) (w : Wing) (e : WingEngine) : (b.setEngine w e).flows = b.flows := by cases w <;> rfl
@[simp] theorem flows_setWingPower (b : Block) (w : Wing) (p : WingPower) : (b.setWingPower w p).flows = b.flows := by cases w <;> rfl
@[simp] theorem flow?_setEngine (b : Block) (w : Wing) (e : WingEngine) (id : Nat) :
    (b.setEngine w e).flow? id = b.flow? id := by cases w <;> rfl
@[simp] theorem od_setEngine (b : Block) (w : Wing) (e : WingEngine) (i j : Nat) : (b.setEngine w e).od' i j = b.od' i j := by
  cases w <;> rfl
@[simp] theorem od_setWingPower (b : Block) (w : Wing) (p : WingPower) (i j : Nat) : (b.setWingPower w p).od' i j = b.od' i j := by
  cases w <;> rfl

/-- c is b with another state of the wings' engines and their power. -/
def Stepped (b c : Block) : Prop :=
  (∃ od north south power, c = { b with od := od, north := north, south := south, power := power }) 

theorem setEngine_stepped (b : Block) (w : Wing) (e : WingEngine) : b.Stepped (b.setEngine w e) := by
  cases w <;> exact ⟨_, _, _, _, rfl⟩

theorem setWingPower_stepped (b : Block) (w : Wing) (p : WingPower) : b.Stepped (b.setWingPower w p) := by
  cases w <;> exact ⟨_, _, _, _, rfl⟩

theorem count_stepped (b : Block) (i j n : Nat) : b.Stepped (b.count i j n) := ⟨_, _, _, _, rfl⟩

theorem Stepped.trans {b c d : Block} (h : b.Stepped c) (h' : c.Stepped d) : b.Stepped d := by
  obtain ⟨_, _, _, _, rfl⟩ := h
  obtain ⟨_, _, _, _, rfl⟩ := h'
  exact ⟨_, _, _, _, rfl⟩

/-- The steps that the current pass takes of the window (R239, R529). -/
theorem stepPass_stepped (b : Block) (w : Wing) : b.Stepped (b.stepPass w) := by
  unfold stepPass
  dsimp only
  split
  · exact ⟨_, _, _, _, rfl⟩
  · split
    · exact setEngine_stepped ..
    · split
      · exact (setWingPower_stepped ..).trans ((setEngine_stepped ..).trans (count_stepped ..))
      · exact (setWingPower_stepped ..).trans (setEngine_stepped ..)

/-- A pass that has begun takes its steps of the window: its last one makes its tile. -/
theorem stepPass_takes {b : Block} {w : Wing} {p : Pass} {f : Flow} (hcur : (b.engine w).current = some p)
    (hf : b.flow? p.flow = some f) :
    let n := (b.wingPower w).steps
    ((b.stepPass w).wingPower w).steps = n - min p.left n ∧ (b.stepPass w).engine (otherWing w) = b.engine (otherWing w) ∧
      ((b.stepPass w).engine w).ready = (b.engine w).ready ∧
      (p.left ≤ n → ((b.stepPass w).engine w).current = none ∧
        ((b.stepPass w).engine w).finished = (b.engine w).finished ++ [tileOf f p] ∧
        ∀ i j, (b.stepPass w).od' i j = b.od' i j) ∧
      (n < p.left → ((b.stepPass w).engine w).current = some { p with left := p.left - n } ∧
        ((b.stepPass w).engine w).finished = (b.engine w).finished) ∧
      ∀ i j, j < 256 → (i, j) ∉ [(0x2900, 7)] → (b.stepPass w).od' i j = b.od' i j := by
  intro n
  unfold stepPass
  simp only [hcur, hf]
  by_cases last : p.left ≤ n
  · have took : min p.left n = p.left := Nat.min_eq_left last
    simp [n, last, Nat.not_lt.2 last]
  · have took : min p.left n = n := Nat.min_eq_right (Nat.le_of_not_le last)
    have goes : n < p.left := Nat.lt_of_not_le last
    simp only [← show n = (b.wingPower w).steps from rfl, took, goes, last, if_true, false_imp_iff, true_and, forall_const]
    refine ⟨by simp, by simp, by simp, by simp, fun i j hj other => ?_⟩
    rw [count_od'_of_ne _ _ hj (by decide) (by simpa using other) (by decide) (by decide), od_setEngine, od_setWingPower]

/-- A pass of the wing's queue begins: what the array and its counters then hold. -/
structure Begins (b c : Block) (w : Wing) (p : Pass) (rest : List Pass) : Prop where
  ready : (c.engine w).ready = rest
  current : ∃ q, (c.engine w).current = some q ∧ q.flow = p.flow ∧ q.left = p.left
  finished : (c.engine w).finished = (b.engine w).finished
  power : c.wingPower w = b.wingPower w
  posted : c.posted = b.posted
  flows : c.flows.map (·.id) = b.flows.map (·.id)
  passes : c.od' (arrayOd w) 1 = add64 (b.od' (arrayOd w) 1) 1
  runs : c.od' (arrayOd w) 2 = if (b.engine w).running then b.od' (arrayOd w) 2 else add64 (b.od' (arrayOd w) 2) 1

theorem engine_eq_of_sides {b c : Block} (hn : c.north = b.north) (hs : c.south = b.south) (w : Wing) :
    c.engine w = b.engine w := by
  cases w
  · exact hn
  · exact hs

theorem wingPower_eq_of_power {b c : Block} (h : c.power = b.power) (w : Wing) : c.wingPower w = b.wingPower w := by
  unfold wingPower
  rw [h]

/-- What moves tiles leaves the engines, the power interfaces and the arrays' counters. -/
theorem Begins.tilesMoved {b c d : Block} {w : Wing} {p : Pass} {rest : List Pass} (h : b.Begins c w p rest) (hm : c.TilesMoved d) :
    b.Begins d w p rest := by
  have ids := hm.ids
  obtain ⟨⟨_, _, _, _, _, same⟩, -, keep⟩ := hm
  have engine : d.engine w = c.engine w := engine_eq_of_sides (by rw [same]) (by rw [same]) w
  have power : d.wingPower w = c.wingPower w := wingPower_eq_of_power (by rw [same]) w
  have counter (j : Nat) (hj : j < 256) : d.od' (arrayOd w) j = c.od' (arrayOd w) j :=
    keep _ _ hj (by cases w <;> simp [arrayOd])
  exact ⟨by rw [engine]; exact h.ready, by rw [engine]; exact h.current, by rw [engine]; exact h.finished,
    power.trans h.power, by rw [same]; exact h.posted, ids.trans h.flows, (counter 1 (by decide)).trans h.passes,
    (counter 2 (by decide)).trans h.runs⟩

theorem consumePass_keeps (b : Block) (w : Wing) (f : Flow) (p : Pass) :
    (∃ slots, (b.consumePass w f p).engine w = { b.engine w with slots := slots }) ∧
      (b.consumePass w f p).power = b.power ∧ (b.consumePass w f p).posted = b.posted ∧
      (b.consumePass w f p).od = b.od ∧ (b.consumePass w f p).flows.map (·.id) = b.flows.map (·.id) := by
  have rows (c : Block) (l : List (Nat × Nat)) : (c.consumeRows f.id l).flows.map (·.id) = c.flows.map (·.id) :=
    (modFlow_tilesMoved c f.id 
      (g := fun f => { f with rows := f.rows.map fun c => if l.contains (c.window, c.row) then { c with used := true } else c })
      (fun _ => rfl)).ids
  unfold consumePass
  dsimp only
  split
  · refine ⟨⟨_, (engine_eq_of_sides rfl rfl w).trans (engine_setEngine ..)⟩, ?_, ?_, ?_, (rows ..).trans ?_⟩ <;> cases w <;> rfl
  · refine ⟨⟨_, engine_setEngine ..⟩, ?_, ?_, ?_, ?_⟩ <;> cases w <;> rfl

theorem beginPass_begins {b : Block} {w : Wing} {f : Flow} {p : Pass} {rest : List Pass}
    (h : (b.engine w).ready = p :: rest) : b.Begins (b.beginPass w f p) w p rest := by
  obtain ⟨⟨slots, engine⟩, power, posted, od, flows⟩ := consumePass_keeps b w f p
  unfold beginPass
  dsimp only
  generalize b.consumePass w f p = c at engine power posted od flows ⊢
  have odSame (i j : Nat) : c.od' i j = b.od' i j := od'_congr _ _ od i j
  have begun : b.Begins (if (c.engine w).running then
      (c.setEngine w { c.engine w with
        ready := (c.engine w).ready.erase p, current := some { p with b := p.b.map (fun x => { x with used := true }) },
        running := true }).count (arrayOd w) 1 1
    else ((c.setEngine w { c.engine w with
        ready := (c.engine w).ready.erase p, current := some { p with b := p.b.map (fun x => { x with used := true }) },
        running := true }).count (arrayOd w) 1 1).count (arrayOd w) 2 1) w p rest := by
    have running : (c.engine w).running = (b.engine w).running := by rw [engine]
    have left : (c.engine w).ready.erase p = rest := by rw [engine]; simp [h]
    have finished : (c.engine w).finished = (b.engine w).finished := by rw [engine]
    rw [left, running]
    generalize he : ({ c.engine w with ready := rest, current := some _, running := true } : WingEngine) = e
    have side : e.ready = rest ∧ (∃ q, e.current = some q ∧ q.flow = p.flow ∧ q.left = p.left) ∧
        e.finished = (b.engine w).finished := by
      subst he
      exact ⟨rfl, ⟨_, rfl, rfl, rfl⟩, finished⟩
    obtain ⟨ready, current, finished⟩ := side
    have passes : (((c.setEngine w e).count (arrayOd w) 1 1).od' (arrayOd w) 1) = add64 (b.od' (arrayOd w) 1) 1 := by
      rw [count_self, od_setEngine, odSame]
    have runs : (((c.setEngine w e).count (arrayOd w) 1 1).od' (arrayOd w) 2) = b.od' (arrayOd w) 2 := by
      rw [count_od'_of_ne _ _ (by decide) (by decide) (by simp) (by cases w <;> decide) (by cases w <;> decide), od_setEngine, odSame]
    have flowsNow : (c.setEngine w e).flows.map (·.id) = b.flows.map (·.id) := by rw [flows_setEngine, flows]
    have postedNow : (c.setEngine w e).posted = b.posted := by cases w <;> exact posted
    have powerNow : (c.setEngine w e).wingPower w = b.wingPower w := by rw [wingPower_setEngine, wingPower_eq_of_power power]
    split
    · next on =>
      refine ⟨?_, ?_, ?_, ?_, postedNow, flowsNow, passes, by rw [if_pos on, runs]⟩ <;> simp [ready, current, finished, powerNow]
    · next off =>
      have other : (((c.setEngine w e).count (arrayOd w) 1 1).count (arrayOd w) 2 1).od' (arrayOd w) 1 =
          ((c.setEngine w e).count (arrayOd w) 1 1).od' (arrayOd w) 1 :=
        count_od'_of_ne _ _ (by decide) (by decide) (by simp) (by cases w <;> decide) (by cases w <;> decide)
      refine ⟨?_, ?_, ?_, ?_, postedNow, flowsNow, other.trans passes, by rw [if_neg off, count_self, runs]⟩ <;>
        simp [ready, current, finished, powerNow]
  split
  · exact begun.tilesMoved (askGrant_tilesMoved ..)
  · exact begun

end Block
end Sys2Proof.Machine

namespace Sys2Proof.Machine
namespace Block

@[simp] theorem tileOf_flow (f : Flow) (p : Pass) : (tileOf f p).flow = f.id := by
  unfold tileOf
  split
  · rfl
  · split
    · split <;> rfl
    · rfl

theorem flow?_id {b : Block} {id : Nat} {f : Flow} (h : b.flow? id = some f) : f.id = id := by
  simpa using List.find?_some h

/-- Where one flow alone has ready passes, its oldest is granted. -/
theorem grantPass_one {b : Block} {w : Wing} {p : Pass} {rest : List Pass} {f : Flow} (hready : (b.engine w).ready = p :: rest)
    (hone : ∀ q ∈ rest, q.flow = p.flow) (hf : b.flow? p.flow = some f) :
    ∃ c, b.grantPass w = some (f, p, c) ∧ b.Granted c := by
  have alone : (rest.map (·.flow)).filter (fun x => !x == p.flow) = [] := by
    rw [List.filter_eq_nil_iff]
    intro x hx
    obtain ⟨q, hq, rfl⟩ := List.mem_map.1 hx
    simp [hone q hq]
  obtain ⟨c, granted, grants⟩ := b.grant_one (wingNo w) f
  refine ⟨c, ?_, grants⟩
  unfold grantPass
  simp only [hready, List.map_cons, List.eraseDups_cons, alone, List.eraseDups_nil, List.filterMap_cons, hf, List.filterMap_nil,
    granted, Option.bind_some, List.find?_cons, flow?_id hf, beq_self_eq_true, Option.map_some]

/-- A wing that holds the watts it needs asks for none. -/
theorem wantPass_none {b : Block} {w : Wing} (h : b.need w ≤ b.pass w) : b.wantPass w = b := by
  unfold wantPass
  simp [Nat.not_lt.2 h]

/-- A wing with a ready pass and too few watts asks for them. -/
theorem wantPass_asks {b : Block} {w : Wing} (hready : (b.engine w).ready ≠ []) (h : b.pass w < b.need w)
    (hnone : (b.wingPower w).asked = none) :
    ((b.wantPass w).power.out = b.power.out ++ [.request (w == .south) (b.need w)] ∧
      ((b.wantPass w).wingPower w).asked = some (b.need w, b.time)) ∧
    (b.wantPass w).engine w = b.engine w ∧ (b.wantPass w).flow? = b.flow? ∧
    ((b.wantPass w).wingPower w).steps = (b.wingPower w).steps ∧
    (b.wantPass w).od' 0x2900 5 = add64 (b.od' 0x2900 5) 1 ∧
    (∀ i j, j < 256 → (i, j) ∉ [(0x2900, 5)] → (b.wantPass w).od' i j = b.od' i j) ∧
    ∃ power od, b.wantPass w = { b with power := power, od := od } := by
  have asks : b.wantPass w = b.sendRequest w := by
    unfold wantPass
    simp [hready, h, hnone]
  rw [asks]
  unfold sendRequest
  dsimp only
  generalize hc : (b.sendPower (.request (w == .south) (b.need w))).setWingPower w _ = c
  have entries (i j : Nat) : c.od' i j = b.od' i j := by rw [← hc, od_setWingPower]; rfl
  refine ⟨⟨?_, ?_⟩, ?_, ?_, ?_, ?_, fun i j hj other => ?_, ?_⟩
  · rw [← hc]; cases w <;> rfl
  · rw [← hc]; cases w <;> rfl
  · rw [← hc]; cases w <;> rfl
  · rw [← hc]; cases w <;> rfl
  · rw [← hc]; cases w <;> rfl
  · rw [count_self, entries]
  · rw [count_od'_of_ne _ _ hj (by decide) (by simpa using other) (by decide) (by decide), entries]
  · rw [← hc]; cases w <;> exact ⟨_, _, rfl⟩

end Block
end Sys2Proof.Machine

namespace Sys2Proof.Machine

/-- Settles O40: the pass that has begun, the one that begins, and the window without a step. -/
theorem arraysTakeTheirSteps : Obligations.ArraysTakeTheirSteps := by
  intro s w p f hs hready hup hf e n
  obtain ⟨noWrite, unblocked, quiet, -⟩ := hs
  have exec_eq : exec (.arrayPass w) s = finish s (s.blk.arrayPass w) := rfl
  unfold Block.arrayPass at exec_eq
  simp only [hready, hup, Bool.not_true, Bool.or_self, Bool.false_eq_true, if_false] at exec_eq
  have landed : land s.mem s.blk.posted = s.mem := by rw [noWrite]; rfl
  refine ⟨fun watts cur => ?_, fun rest watts none waiting alone room left => ?_,
    fun rest watts unasked none waiting alone spent => ?_⟩
  · have cur' : (s.blk.engine w).current = some p := cur
    rw [Block.wantPass_none watts] at exec_eq
    simp only [cur'] at exec_eq
    obtain ⟨steps, other, ready, last, more, keep⟩ := Block.stepPass_takes cur' hf
    obtain ⟨od, north, south, power, same⟩ := s.blk.stepPass_stepped w
    generalize s.blk.stepPass w = c at exec_eq steps other ready last more keep same
    refine gives_of_endOf exec_eq (by rw [same]; exact quiet.1) (by rw [same]; exact quiet.2.1) fun t ends => ?_
    have engine (v : Wing) : t.blk.engine v = c.engine v := Block.engine_eq_of_sides ends.north ends.south v
    have watt : t.blk.wingPower w = c.wingPower w := Block.wingPower_eq_of_power ends.power w
    have mem : t.mem = s.mem := by rw [ends.mem, same]; exact landed
    refine ⟨by rw [watt]; exact steps, by rw [engine]; exact other, by rw [ends.flows, same], mem,
      by rw [engine]; exact ready, fun fits => ?_, fun short => ?_⟩
    · obtain ⟨gone, tile, entries⟩ := last fits
      exact ⟨by rw [engine]; exact gone, by rw [engine]; exact tile, ends.odOnly fun i j _ _ => entries i j⟩
    · obtain ⟨stays, tiles⟩ := more short
      exact ⟨by rw [engine]; exact stays, by rw [engine]; exact tiles, ends.odOnly keep⟩
  · have none' : (s.blk.engine w).current = Option.none := none
    obtain ⟨c, granted, ⟨⟨od, row, waits, same⟩, keep⟩⟩ := Block.grantPass_one waiting alone hf
    have engine : c.engine w = s.blk.engine w := Block.engine_eq_of_sides (by rw [same]) (by rw [same]) w
    have power : c.wingPower w = s.blk.wingPower w := Block.wingPower_eq_of_power (by rw [same]) w
    have steps : ((c.wingPower w).steps == 0) = false := by rw [power]; simpa using Nat.pos_iff_ne_zero.1 left
    have few : ¬ 2 ≤ (s.blk.engine w).finished.length := Nat.not_le.2 room
    rw [Block.wantPass_none watts] at exec_eq
    simp only [none', few, granted, steps, Bool.false_eq_true, if_false] at exec_eq
    have begins := Block.beginPass_begins (b := c) (w := w) (f := f) (p := p) (rest := rest) (by rw [engine]; exact waiting)
    generalize c.beginPass w f p = d at exec_eq begins
    obtain ⟨q, cur, flow, toGo⟩ := begins.current
    obtain ⟨g, found⟩ : ∃ g, d.flow? q.flow = some g := by
      rw [← Option.isSome_iff_exists, Option.isSome_iff_ne_none, Ne, Block.flow?_none_iff, begins.flows, flow, same,
        ← Block.flow?_none_iff]
      exact Option.ne_none_iff_isSome.2 (Option.isSome_iff_exists.2 ⟨f, hf⟩)
    obtain ⟨taken, -, ready, last, more, entries⟩ := Block.stepPass_takes cur found
    obtain ⟨_, _, _, _, after⟩ := d.stepPass_stepped w
    have watts' : (d.wingPower w).steps = n := by rw [begins.power, power]
    have tile : (Block.tileOf g q).flow = p.flow := by rw [Block.tileOf_flow, Block.flow?_id found, flow]
    have counter (j : Nat) (hj : j < 256) : (d.stepPass w).od' (Block.arrayOd w) j = d.od' (Block.arrayOd w) j :=
      entries _ _ hj (by cases w <;> simp [Block.arrayOd])
    have before (j : Nat) (hj : j < 256) : c.od' (Block.arrayOd w) j = s.blk.od' (Block.arrayOd w) j :=
      keep _ _ hj (by cases w <;> simp [Block.arrayOd])
    rw [watts', toGo] at taken last more
    refine ⟨d.stepPass w, exec_eq, ready.trans begins.ready, taken, ?_, ?_, ?_, fun fits => ?_, fun short => ?_⟩
    · rw [after]
      exact begins.posted.trans (by rw [same]; exact noWrite)
    · rw [counter 1 (by decide), begins.passes, before 1 (by decide)]
    · rw [counter 2 (by decide), begins.runs, engine, before 2 (by decide)]
    · obtain ⟨gone, finished, -⟩ := last fits
      exact ⟨gone, _, finished.trans (by rw [begins.finished, engine]), tile⟩
    · obtain ⟨stays, -⟩ := more short
      exact ⟨_, stays, flow, rfl⟩
  · have none' : (s.blk.engine w).current = Option.none := none
    obtain ⟨asks, engines, flows, steps, value, entries, ⟨power, od, same⟩⟩ := Block.wantPass_asks
      (by rw [show (s.blk.engine w).ready = _ from waiting]; simp) watts unasked
    generalize s.blk.wantPass w = b1 at exec_eq asks engines flows steps value entries same
    have engine1 : b1.engine w = s.blk.engine w := engines
    obtain ⟨c, granted, ⟨⟨od2, row, waits, same2⟩, keep⟩⟩ := Block.grantPass_one (b := b1) (w := w) (rest := rest) (p := p) (f := f)
      (by rw [engine1]; exact waiting) alone (by rw [flows]; exact hf)
    have zero : ((c.wingPower w).steps == 0) = true := by
      rw [Block.wingPower_eq_of_power (b := b1) (by rw [same2]) w, steps, show (s.blk.wingPower w).steps = 0 from spent]
      rfl
    simp only [engine1, none', granted, zero, if_true] at exec_eq
    obtain ⟨r, ends⟩ : ∃ r, exec (.arrayPass w) s = finish s (b1.setEngine w { s.blk.engine w with running := r }) := by
      split at exec_eq
      · refine ⟨(s.blk.engine w).running, exec_eq.trans (congrArg (finish s) ?_)⟩
        rw [← engine1]
        cases w <;> rfl
      · exact ⟨false, exec_eq.trans (by rw [← none'])⟩
    subst same
    refine gives_of_endOf ends (by cases w <;> exact quiet.1) (by cases w <;> exact quiet.2.1) fun t ends => ?_
    have power : t.blk.power = _ := ends.power
    have kept (b : Block) (x : WingEngine) : (b.setEngine w x).power = b.power ∧ (b.setEngine w x).posted = b.posted := by
      cases w <;> exact ⟨rfl, rfl⟩
    have od (i j : Nat) (other : odKey i j ≠ odKey 0x2202 0x0D) := (ends.od i j other).trans (Block.od_setEngine ..)
    obtain ⟨out, asked⟩ := asks
    refine ⟨by rw [power, (kept ..).1, out], ?_, ?_, (od _ _ (by decide)).trans value,
      ends.odOnly fun i j hj other => (Block.od_setEngine ..).trans (entries i j hj other), ?_⟩
    · rw [Block.wingPower_eq_of_power (power.trans (kept ..).1), asked]
    · rw [Block.engine_eq_of_sides ends.north ends.south, Block.engine_setEngine]
    · rw [ends.mem, (kept ..).2]
      exact landed

end Sys2Proof.Machine

/-! ### One flow changed in place -/

namespace Sys2Proof.Machine
namespace Block

section
variable {id : Nat} {g : Flow → Flow} (hg : ∀ f, (g f).id = f.id)
include hg

theorem find?_updFirst_id (l : List Flow) (k : Nat) :
    (updFirst (fun f => f.id == id) g l).find? (fun f => f.id == k) =
      if k = id then (l.find? (fun f => f.id == k)).map g else l.find? (fun f => f.id == k) := by
  induction l with
  | nil => simp [updFirst]
  | cons x xs ih =>
    unfold updFirst
    by_cases here : x.id = id
    · by_cases wanted : k = id
      · simp [here, wanted, hg]
      · simp [here, wanted, hg, Ne.symm wanted]
    · by_cases wanted : x.id = k
      · have other : k ≠ id := fun same => here (wanted.trans same)
        simp [wanted, other]
      · simp [here, wanted, ih]

theorem flow?_modFlow_self (b : Block) : (b.modFlow id g).flow? id = (b.flow? id).map g :=
  (find?_updFirst_id hg b.flows id).trans (if_pos rfl)

theorem flow?_modFlow_other (b : Block) {k : Nat} (h : k ≠ id) : (b.modFlow id g).flow? k = b.flow? k :=
  (find?_updFirst_id hg b.flows k).trans (if_neg h)

end

/-- How a flow that ends early is left (R155, R386). -/
def endedAs (f : Flow) (status : Nat) : Flow :=
  { f with stage := .closing, statuses := f.statuses ++ [status], remote := f.remote.filter (·.answered), arrived := false }

/-- What ending a flow early leaves of the block: the flow closing under its status, none of its arrivals, claims or
held-back requests. -/
theorem endFlow_ends (b : Block) (id status : Nat) :
    (b.endFlow id status).flow? id = (b.flow? id).map (endedAs · status) ∧
      (∀ k, k ≠ id → (b.endFlow id status).flow? k = b.flow? k) ∧
      (∀ x ∈ (b.endFlow id status).streams.bells, id ∉ x.arrivals) ∧
      (∀ c ∈ (b.endFlow id status).streams.claims, (c.tile.map (·.flow)) ≠ some id) := by
  unfold endFlow
  dsimp only
  generalize hb : (((b.withdraw id).freeSatchels id).endTurn id).dropWork id = c
  have flows (k : Nat) : c.flow? k = b.flow? k := by rw [← hb]; rfl
  have bells : ∀ x ∈ c.streams.bells, id ∉ x.arrivals := by
    rw [← hb]
    intro x hx
    obtain ⟨y, -, rfl⟩ := List.mem_map.1 (List.mem_of_mem_filter (show x ∈ List.filter _ (List.map _ _) from hx))
    simp
  have claims : ∀ x ∈ c.streams.claims, (x.tile.map (·.flow)) ≠ some id := by
    rw [← hb]
    intro x hx
    simpa using (List.mem_filter.1 (show x ∈ List.filter _ _ from hx)).2
  refine ⟨?_, fun k other => ?_, bells, claims⟩
  · exact (flow?_modFlow_self (g := (endedAs · status)) (fun _ => rfl) c).trans (by rw [flows])
  · exact (flow?_modFlow_other (g := (endedAs · status)) (fun _ => rfl) c other).trans (flows k)

/-- Ending a flow early leaves all but flows, streams and the wings' engines. -/
theorem endFlow_eq (b : Block) (id status : Nat) : ∃ flows streams north south,
    b.endFlow id status = { b with
      flows := flows, streams := streams, north := north, south := south,
      heldBack := b.heldBack.filter (fun r => r.flow != some id) } := by
  obtain ⟨_, withdrawn⟩ : ∃ streams, b.withdraw id = { b with streams := streams } := ⟨_, rfl⟩
  have freed (c : Block) : ∃ streams, c.freeSatchels id = { c with streams := streams } := ⟨_, rfl⟩
  have turned (c : Block) : ∃ streams, c.endTurn id = { c with streams := streams } := ⟨_, rfl⟩
  have emptied (c : Block) : ∃ north south, c.dropWork id = { c with north := north, south := south } := ⟨_, _, rfl⟩
  obtain ⟨_, free⟩ := freed (b.withdraw id)
  obtain ⟨_, turn⟩ := turned ((b.withdraw id).freeSatchels id)
  obtain ⟨_, _, empty⟩ := emptied (((b.withdraw id).freeSatchels id).endTurn id)
  unfold endFlow
  rw [empty, turn, free, withdrawn]
  exact ⟨_, _, _, _, rfl⟩

theorem endFlow_od (b : Block) (id status i j : Nat) : (b.endFlow id status).od' i j = b.od' i j := by
  obtain ⟨_, _, _, _, same⟩ := b.endFlow_eq id status
  rw [same]
  rfl

end Block

/-- The block with other entries. -/
def Block.withOd (b : Block) (od : NatMap) : Block := { b with od := od }

/-- The end of a flow for itself, at a time: what its timer's step leaves. -/
theorem gives_of_endFlow {c : Instr} {s : State} {id status time : Nat} {f : Flow} (hs : Settled s)
    (hf : s.blk.flow? id = some f) {b : Block}
    (hb : ∃ od, b = Block.withOd (Block.endFlow { s.blk with time := time } id status) od) {ks : List (Nat × Nat)}
    (hod : ∀ i j, j < 256 → (i, j) ∉ ks → b.od' i j = (Block.endFlow { s.blk with time := time } id status).od' i j)
    (hexec : exec c s = finish s b) {P : State → Prop}
    (hP : ∀ t, EndOf s b t → t.blk.time = time → t.mem = s.mem →
      (∃ g, t.blk.flow? id = some g ∧ g.stage = .closing ∧ g.statuses = f.statuses ++ [status] ∧ g.arrived = false) →
      (∀ x ∈ t.blk.streams.bells, id ∉ x.arrivals) → (∀ x ∈ t.blk.streams.claims, (x.tile.map (·.flow)) ≠ some id) →
      OdOnly s t ks → P t) : Gives c s P := by
  obtain ⟨noWrite, -, quiet, -⟩ := hs
  obtain ⟨flow, -, bells, claims⟩ := Block.endFlow_ends { s.blk with time := time } id status
  obtain ⟨flows, streams, north, south, same⟩ := Block.endFlow_eq { s.blk with time := time } id status
  obtain ⟨od, rfl⟩ := hb
  have noFault : (Block.endFlow { s.blk with time := time } id status).raised = [] := by rw [same]; exact quiet.1
  have noneHeld : (Block.endFlow { s.blk with time := time } id status).heldBack = [] := by
    rw [same]
    show s.blk.heldBack.filter _ = []
    rw [quiet.2.1]
    rfl
  have now : (Block.endFlow { s.blk with time := time } id status).time = time := by rw [same]
  have unwritten : (Block.endFlow { s.blk with time := time } id status).posted = s.blk.posted := by rw [same]
  refine gives_of_endOf hexec noFault noneHeld fun t ends => ?_
  refine hP t ends (ends.time.trans now) ?_ ⟨_, (ends.flow? id).trans (flow.trans (congrArg (Option.map _) hf)), rfl, rfl, rfl⟩
    (by rw [ends.streams]; exact bells) (by rw [ends.streams]; exact claims)
    (ends.odOnly fun i j hj other => (hod i j hj other).trans (Block.endFlow_od ..))
  rw [ends.mem]
  show land s.mem (Block.endFlow { s.blk with time := time } id status).posted = s.mem
  rw [unwritten, noWrite]
  rfl

/-- The flow of a timeout is the one that its opcode, stage and timeout make it. -/
theorem timedFlow_of {b : Block} {id op : Nat} {f : Flow} (hf : b.flow? id = some f) (hstream : f.stream = none)
    (hop : f.opcode = op) (htimeout : f.timeoutUs ≠ 0) (hstage : f.stage ≠ .closing) (hformed : f.formed = 0) :
    timedFlow b id op = some f := by
  unfold timedFlow
  rw [hf]
  simp [hstream, hop, htimeout, hstage, hformed]

/-- A wait that no other flow can end is the one that the abort takes (R377). -/
theorem stallAbort_self {b : Block} {w : Flow} {n : Nat} {leaves : Bool} (hstream : w.stream = none)
    (h : leaves = true ∨ ∀ g ∈ b.flows, g.id ≠ w.id → b.holdsSatchel n g = true → b.idle g = false) :
    b.stallAbort w n leaves = (b.endFlow w.id stStallCycle).count 0x2603 2 1 := by
  have alone : (if leaves then [] else b.flows.filter (fun f => f.id != w.id && b.holdsSatchel n f && b.idle f)) = [] := by
    split
    · rfl
    · next stays =>
      refine List.filter_eq_nil_iff.2 fun g hg => ?_
      have busy := h.resolve_left stays g hg
      by_cases other : g.id = w.id
      · simp [other]
      · cases holds : b.holdsSatchel n g
        · simp
        · simp [busy other holds]
  unfold Block.stallAbort
  simp [alone, hstream]

/-- Settles O45: each timer ends its own flow, at the end of its wait. -/
theorem timersEndWaits : Obligations.TimersEndWaits := by
  intro s id f hs hf hstream ended
  have number : f.id = id := Block.flow?_id hf
  refine ⟨fun timeout stage formed => ⟨fun op arrived => ?_, fun op running => ?_, fun op snapshot => ?_⟩, fun q c claim alone => ?_⟩
  · have timed := timedFlow_of hf hstream op timeout stage formed
    refine gives_of_endFlow (id := id) (status := stSyncTimeout) (ks := [])
      (b := Block.endFlow { s.blk with time := max s.blk.time (f.since + 1000 * f.timeoutUs) } id stSyncTimeout)
      hs hf ⟨_, rfl⟩ (fun _ _ _ _ => rfl) ?_
      fun t _ time mem flow bells _ entries => ⟨⟨time, mem, flow⟩, bells, entries⟩
    show execBellTimeout id s = _
    unfold execBellTimeout
    rw [timed]
    simp only [Option.filter_some, arrived, if_true]
    rw [← number]
    rfl
  · have timed := timedFlow_of hf hstream op timeout stage formed
    refine gives_of_endFlow (id := id) (status := stSyncTimeout) (ks := [])
      (b := Block.endFlow { s.blk with time := max s.blk.time (f.since + 1000 * f.timeoutUs) } id stSyncTimeout)
      hs hf ⟨_, rfl⟩ (fun _ _ _ _ => rfl) ?_
      fun t _ time mem flow _ _ entries => ⟨⟨time, mem, flow⟩, entries⟩
    show execWaitTimeout id s = _
    unfold execWaitTimeout
    rw [timed]
    simp only [Option.filter_some, Flow.running, running]
    rw [← number]
    rfl
  · have timed := timedFlow_of hf hstream op timeout stage formed
    refine gives_of_endFlow (id := id) (status := stSyncTimeout) (ks := [(0x2506, 6)])
      (b := (Block.endFlow { s.blk with time := max s.blk.time (f.start + 1000 * f.timeoutUs) } id stSyncTimeout).count 0x2506 6 1)
      hs hf ⟨_, rfl⟩ (fun i j hj other =>
      Block.count_od'_of_ne _ 1 hj (by decide) (by simpa using other) (by decide) (by decide)) ?_
      fun t ends time mem flow _ _ entries => ⟨⟨time, mem, flow⟩, ?_, entries⟩
    · show execFenceTimeout id s = _
      unfold execFenceTimeout
      rw [timed]
      simp only [snapshot, if_true]
      rw [← number]
      rfl
    · rw [ends.od _ _ (by decide)]
      exact (Block.count_self ..).trans (by rw [Block.endFlow_od]; rfl)
  · refine gives_of_endFlow (id := id) (status := stStallCycle) (ks := [(0x2603, 2)])
      (b := (Block.endFlow { s.blk with time := max s.blk.time (c.since + 100000) } id stStallCycle).count 0x2603 2 1)
      hs hf ⟨_, rfl⟩ (fun i j hj other =>
      Block.count_od'_of_ne _ 1 hj (by decide) (by simpa using other) (by decide) (by decide)) ?_
      fun t ends time mem flow _ claims entries => ⟨⟨time, mem, flow⟩, ?_, entries, claims⟩
    · show execStallCycle id q s = _
      unfold execStallCycle
      rw [claim, hf]
      dsimp only
      rw [stallAbort_self hstream (by rw [number]; exact alone), number]
    · rw [ends.od _ _ (by decide)]
      exact (Block.count_self ..).trans (by rw [Block.endFlow_od]; rfl)

end Sys2Proof.Machine

/-! ### A level 0 record that the collector closes (R507) -/

namespace Sys2Proof.Machine
namespace Block

/-- Closing an open record leaves one open record fewer. -/
theorem closeWith_openRecs {b : Block} {k w : Nat} (hk : k ∈ b.openRecs) (hw : recOpen w = false) :
    (b.setOd 0x2810 k w).openRecs.length + 1 = b.openRecs.length := by
  obtain ⟨below, -⟩ := mem_openRecs.1 hk
  have open' (j : Nat) (hj : j < 64) : recOpen ((b.setOd 0x2810 k w).slotRec j) = (j != k && recOpen (b.slotRec j)) := by
    by_cases same : j = k
    · subst same
      rw [slotRec, setOd_self, hw]
      simp
    · rw [slotRec, setOd_other _ _ _ _ _ _ (by unfold odKey; omega) (by unfold odKey; omega) (by unfold odKey; omega)]
      simp [same, slotRec]
  have others : (b.setOd 0x2810 k w).openRecs = b.openRecs.erase k := by
    have nodup : b.openRecs.Nodup := List.nodup_range.filter _
    rw [nodup.erase_eq_filter]
    unfold openRecs
    rw [List.filter_filter]
    exact List.filter_congr fun j hj => open' j (List.mem_range.1 hj)
  rw [others, List.length_erase_of_mem hk]
  have := List.length_pos_of_mem hk
  omega

/-- A record's closing touches the dictionary and the times of opening alone. -/
theorem closeWith_eq (b : Block) (k w : Nat) : ∃ od opened,
    b.closeWith k w = { b with od := od, faults := { b.faults with opened := opened } } := ⟨_, _, rfl⟩

/-- AUTO_ACK of an open record of level 0, the time of its closing being set. -/
theorem autoAck_closes {b : Block} {k : Nat} (hus : b.od' 0x2801 2 ≠ 0) (hk : k ∈ b.openRecs)
    (hlevel : bits (b.slotRec k) 41 40 = 0) : b.autoAck k =
      closeWith { b with time := max b.time (mapGet b.faults.opened 0 k + 1000 * b.od' 0x2801 2) } k (b.slotRec k - 2 ^ 44) := by
  have listed : b.openRecs.contains k = true := by simpa using hk
  unfold autoAck
  simp only [listed, hlevel, closeRecord_eq, beq_iff_eq, hus, bne_self_eq_false, Bool.not_true, Bool.or_false, if_false]
  rfl

theorem autoAck_stays {b : Block} {k : Nat} (h : b.od' 0x2801 2 = 0 ∨ bits (b.slotRec k) 41 40 ≠ 0) : b.autoAck k = b := by
  unfold autoAck
  obtain h | h := h <;> simp [h]

end Block

/-- Settles O56: an open record of level 0 loses its OPEN bit; any other stays. -/
theorem levelZeroRecordsCloseThemselves : Obligations.LevelZeroRecordsCloseThemselves := by
  refine ⟨by decide, fun s k hs hk isOpen => ⟨fun us level => ?_, fun stays => ?_⟩⟩
  · obtain ⟨noWrite, -, quiet, -⟩ := hs
    have listed : k ∈ s.blk.openRecs := Block.mem_openRecs.2 ⟨hk, isOpen⟩
    have exec_eq : exec (.autoAck k) s = finish s (s.blk.autoAck k) := rfl
    rw [Block.autoAck_closes us listed level] at exec_eq
    have big : s.blk.slotRec k - 2 ^ 44 + 2 ^ 44 = s.blk.slotRec k := by
      simp only [Block.recOpen, bit_eq, decide_eq_true_eq] at isOpen
      omega
    have closed : Block.recOpen (s.blk.slotRec k - 2 ^ 44) = false := Block.recOpen_sub isOpen
    generalize s.blk.slotRec k - 2 ^ 44 = w at exec_eq big closed
    generalize hb : ({ s.blk with time := max s.blk.time (mapGet s.blk.faults.opened 0 k + 1000 * s.blk.od' 0x2801 2) } : Block) = b
      at exec_eq
    have entries (i j : Nat) : b.od' i j = s.blk.od' i j := by rw [← hb]; rfl
    have slots : b.openRecs = s.blk.openRecs := by rw [← hb]; rfl
    obtain ⟨od, opened, same⟩ := b.closeWith_eq k w
    refine gives_of_endOf exec_eq (by rw [same, ← hb]; exact quiet.1) (by rw [same, ← hb]; exact quiet.2.1) fun t ends => ?_
    have word : t.blk.slotRec k = w := (ends.od _ _ (by unfold odKey; omega)).trans (b.closeWith_slotRec w (by omega))
    refine ⟨by rw [word]; exact big, by rw [word]; exact closed, ?_, ends.time.trans (by rw [same, ← hb]), ?_,
      ends.odOnly fun i j hj other => ?_⟩
    · rw [ends.od _ _ (by decide), Block.closeWith_od', Block.setOd_self, ← slots]
      exact Block.closeWith_openRecs (slots ▸ listed) closed
    · rw [ends.mem, Block.closeWith_posted, ← hb]
      show land s.mem s.blk.posted = s.mem
      rw [noWrite]
      rfl
    · simp only [List.mem_cons, List.not_mem_nil, or_false, not_or] at other
      rw [b.closeWith_other w (by omega) hj other.1 other.2, entries]
  · show finish s (s.blk.autoAck k) = _
    rw [Block.autoAck_stays stays]
    exact finish_quiet s s.blk hs.2.2.1

end Sys2Proof.Machine

/-! ### What an event leaves (R519, R523) -/

namespace Sys2Proof.Machine

/-- Entries that an event may write: the ring's own, and those of the writes that it makes. -/
def eventKeys : List (Nat × Nat) := (0x2800, 3) :: (0x2800, 5) :: (0x2202, 5) :: writeKeys

namespace Block

/-- c is b after events: their records written or waiting, faults of memory found on the way raised. -/
structure Noted (b c : Block) : Prop where
  blk : ∃ od posted raised k agents next phase seq, c = { b with
    od := od, posted := posted, raised := raised, freeCount := k, agents := agents,
    faults := { b.faults with eventNext := next, eventPhase := phase, eventSeq := seq } }
  od : ∀ i j, j < 256 → (i, j) ∉ eventKeys → c.od' i j = b.od' i j
  raised : ∃ more, c.raised = b.raised ++ more ∧ ∀ r ∈ more, r.1 = 1

theorem Noted.refl (b : Block) : b.Noted b :=
  ⟨⟨_, _, _, _, _, _, _, _, rfl⟩, fun _ _ _ _ => rfl, [], (List.append_nil _).symm, by simp⟩

theorem Noted.trans {b c d : Block} (h : b.Noted c) (h' : c.Noted d) : b.Noted d := by
  obtain ⟨⟨_, _, _, _, _, _, _, _, rfl⟩, keep, more, raised, kind⟩ := h
  obtain ⟨⟨_, _, _, _, _, _, _, _, rfl⟩, keep', more', raised', kind'⟩ := h'
  refine ⟨⟨_, _, _, _, _, _, _, _, rfl⟩, fun i j hj hij => (keep' i j hj hij).trans (keep i j hj hij), more ++ more', ?_, ?_⟩
  · rw [raised', raised, List.append_assoc]
  · intro r hr
    exact (List.mem_append.1 hr).elim (kind r) (kind' r)

theorem tierWrite_raised (b : Block) (a : Nat) (d : Bytes) :
    ∃ more, (b.tierWrite a d).raised = b.raised ++ more ∧ ∀ r ∈ more, r.1 = 1 := by
  have charged (c : Block) (x cost : Nat) : (c.charge x cost).raised = c.raised := by
    obtain ⟨_, _, same⟩ := charge_readFrom c x cost
    rw [same]
  have found : (b.reported a d.length).2.raised = b.raised := by
    obtain ⟨_, _, same⟩ := reported_readFrom b a d.length
    rw [same]
  have stored (us : List Nat) (c : Block) (hc : ∃ more, c.raised = b.raised ++ more ∧ ∀ r ∈ more, r.1 = 1) :
      ∃ more, (us.foldl (fun b u => (b.uncorrectable u).storePoisoned u) c).raised = b.raised ++ more ∧ ∀ r ∈ more, r.1 = 1 := by
    refine List.foldlRecOn (motive := fun x : Block => ∃ more, x.raised = b.raised ++ more ∧ ∀ r ∈ more, r.1 = 1) _ _ hc
      fun x ⟨more, same, kind⟩ u _ => ⟨more ++ [(1, 0x100 + agentOf u, u, false)], ?_, ?_⟩
    · show x.raised ++ [_] = _
      rw [same, List.append_assoc]
    · intro r hr
      rcases List.mem_append.1 hr with old | new
      · exact kind r old
      · rw [List.mem_singleton.1 new]
  unfold tierWrite
  dsimp only
  split_ifs
  · exact ⟨[], (List.append_nil _).symm, by simp⟩
  · exact ⟨[], (List.append_nil _).symm, by simp⟩
  · rw [charged]
    exact stored _ _ ⟨[], by rw [found, List.append_nil], by simp⟩

theorem ownPut_raised (b : Block) (a : Nat) (d : Bytes) (after : List After) :
    ∃ more, (b.ownPut a d after).1.raised = b.raised ++ more ∧ ∀ r ∈ more, r.1 = 1 := by
  unfold ownPut
  dsimp only
  split_ifs
  · exact ⟨[], (List.append_nil _).symm, by simp⟩
  · exact ⟨[], (List.append_nil _).symm, by simp⟩
  · exact ⟨[], (List.append_nil _).symm, by simp⟩
  · exact ⟨[], (List.append_nil _).symm, by simp⟩
  · exact tierWrite_raised ..

theorem ownPut_noted (b : Block) (a : Nat) (d : Bytes) (after : List After) : b.Noted (b.ownPut a d after).1 := by
  obtain ⟨⟨_, _, _, _, _, same⟩, keep⟩ := ownPut_wrote b a d after
  refine ⟨⟨_, _, _, _, _, _, _, _, same⟩, fun i j hj other => keep i j hj fun mem => other ?_, ownPut_raised b a d after⟩
  simp only [eventKeys, List.mem_cons]
  exact .inr (.inr (.inr mem))

theorem setOd_noted (b : Block) {i j : Nat} (v : Nat) (h : (i, j) ∈ eventKeys) : b.Noted (b.setOd i j v) := by
  have entry : j < 256 ∧ odKey i j ≠ odKey 0x1000 6 ∧ odKey i j ≠ odKey 0x2700 1 := by fin_cases h <;> decide
  exact ⟨⟨_, _, _, _, _, _, _, _, rfl⟩, fun i' j' hj' h' =>
    setOd_od'_of_ne _ _ hj' entry.1 (fun same => h' (same ▸ h)) entry.2.1 entry.2.2, [], (List.append_nil _).symm, by simp⟩

theorem runAfter_noted (b : Block) (x : After) : b.Noted (b.runAfter x) := by
  cases x with
  | interrupt ring len a d =>
    show b.Noted (b.interrupt ring len a d)
    unfold interrupt
    split
    · exact ⟨⟨_, _, _, _, _, _, _, _, rfl⟩, fun _ _ _ _ => rfl, [], (List.append_nil _).symm, by simp⟩
    · exact ownPut_noted ..
  | eventIndex => exact setOd_noted b _ (by decide)
  | orphanIndex => exact setOd_noted b _ (by decide)

theorem ownWrite_noted (b : Block) (a : Nat) (d : Bytes) (after : List After) : b.Noted (b.ownWrite a d after) := by
  have followed (xs : List After) (c : Block) : c.Noted (xs.foldl runAfter c) :=
    List.foldlRecOn (motive := c.Noted) _ _ (.refl c) fun _ noted _ _ => noted.trans (runAfter_noted ..)
  unfold ownWrite
  dsimp only
  split
  · exact (ownPut_noted ..).trans (followed ..)
  · exact ownPut_noted ..

theorem event_noted (b : Block) (ty payload : Nat) : b.Noted (b.event ty payload) := by
  have counters (c : Block) (next seq : Nat) (phase : Bool) : c.Noted
      { c with faults := { c.faults with eventNext := next, eventPhase := phase, eventSeq := seq } } :=
    ⟨⟨_, _, _, _, _, _, _, _, rfl⟩, fun _ _ _ _ => rfl, [], (List.append_nil _).symm, by simp⟩
  have written : b.Noted (b.eventWritten ty payload) := by
    unfold eventWritten
    exact (counters b _ b.faults.eventSeq _).trans (ownWrite_noted ..)
  unfold event
  dsimp only
  split
  · exact (setOd_noted b _ (by decide)).trans (counters ..)
  · exact written.trans (counters ..)

theorem fresh_noted (b : Block) : b.Noted b.fresh.2 :=
  ⟨⟨_, _, _, _, _, _, _, _, rfl⟩, fun _ _ _ _ => rfl, [], (List.append_nil _).symm, by simp⟩

theorem tokenEvent_noted (b : Block) (cause : Nat) : b.Noted (b.tokenEvent cause) :=
  (fresh_noted b).trans (event_noted ..)

theorem powerEvent_noted (b : Block) (kind domain fr dest : Nat) : b.Noted (b.powerEvent kind domain fr dest) :=
  (fresh_noted b).trans (event_noted ..)

end Block
end Sys2Proof.Machine

/-! ### The lease and its token (R515, R516) -/

namespace Sys2Proof.Machine
namespace Block

namespace Noted
variable {b c : Block} (h : b.Noted c)
include h

theorem time : c.time = b.time := by obtain ⟨⟨_, _, _, _, _, _, _, _, rfl⟩, -, -⟩ := h; rfl
theorem power : c.power = b.power := by obtain ⟨⟨_, _, _, _, _, _, _, _, rfl⟩, -, -⟩ := h; rfl
theorem renewed : c.faults.renewed = b.faults.renewed := by obtain ⟨⟨_, _, _, _, _, _, _, _, rfl⟩, -, -⟩ := h; rfl
theorem claim : c.faults.claim = b.faults.claim := by obtain ⟨⟨_, _, _, _, _, _, _, _, rfl⟩, -, -⟩ := h; rfl

/-- What was raised stays raised. -/
theorem raised_of_mem {r : Nat × Nat × Nat × Bool} (hr : r ∈ b.raised) : r ∈ c.raised := by
  obtain ⟨more, same, -⟩ := h.raised
  rw [same]
  exact List.mem_append_left _ hr

/-- An event raises faults of memory alone. -/
theorem mem_raised {r : Nat × Nat × Nat × Bool} (hkind : r.1 ≠ 1) : r ∈ c.raised ↔ r ∈ b.raised := by
  obtain ⟨more, same, kind⟩ := h.raised
  rw [same, List.mem_append]
  exact or_iff_left fun mem => hkind (kind r mem)

end Noted

theorem holderWing_of (b : Block) {w : Wing} (h : b.od' 0x2803 1 = wingNo w) : b.holderWing = w := by
  unfold holderWing holder
  rw [h]
  cases w <;> rfl

/-- The token given to a wing: the epoch raised, the lease anew. -/
theorem giveToken_gives (b : Block) (w : Wing) (cause : Nat) :
    (b.giveToken w cause).time = b.time ∧ (b.giveToken w cause).holderWing = w ∧
      (b.giveToken w cause).od' 0x2803 2 = add64 (b.od' 0x2803 2) 1 ∧ (b.giveToken w cause).faults.renewed = b.time ∧
      (b.giveToken w cause).faults.claim = false := by
  have epoch (c : Block) : ∃ n s, c.takeEpoch w = { c with faults := { c.faults with epochNorth := n, epochSouth := s } } := by
    cases w <;> exact ⟨_, _, rfl⟩
  unfold giveToken
  dsimp only
  generalize hb : ((b.setOd 0x2803 1 (wingNo w)).count 0x2803 2 1).count 0x2803 3 1 = c
  have holder : c.od' 0x2803 1 = wingNo w := by
    rw [← hb, count_od'_of_ne _ 1 (by decide) (by decide) (by decide) (by decide) (by decide),
      count_od'_of_ne _ 1 (by decide) (by decide) (by decide) (by decide) (by decide)]
    exact setOd_self ..
  have raised : c.od' 0x2803 2 = add64 (b.od' 0x2803 2) 1 := by
    rw [← hb, count_od'_of_ne _ 1 (by decide) (by decide) (by decide) (by decide) (by decide), count_self,
      setOd_od'_of_ne _ _ (by decide) (by decide) (by decide) (by decide) (by decide)]
  have time : c.time = b.time := by rw [← hb]; rfl
  obtain ⟨n, s, taken⟩ := epoch c
  rw [taken]
  have noted := tokenEvent_noted { c with faults := { c.faults with
    epochNorth := n, epochSouth := s, renewed := c.time, confirmed := c.time, claim := false, lapsed := false } } cause
  exact ⟨noted.time.trans time, holderWing_of _ ((noted.od _ _ (by decide) (by decide)).trans holder),
    (noted.od _ _ (by decide) (by decide)).trans raised, noted.renewed.trans time, noted.claim⟩

/-- The follower's uncontested claim: the token moves, and the wing that had it is reported. -/
theorem grantClaim_moves (b : Block) : b.grantClaim.time = b.time ∧ b.grantClaim.holderWing = b.follower ∧
    b.grantClaim.od' 0x2803 2 = add64 (b.od' 0x2803 2) 1 ∧ b.grantClaim.faults.renewed = b.time ∧
    b.grantClaim.faults.claim = false ∧ (0x0B, 0x20 + wingNo b.holderWing, 0, false) ∈ b.grantClaim.raised := by
  obtain ⟨time, holder, epoch, renewed, claim⟩ := b.giveToken_gives b.follower 0
  unfold grantClaim
  dsimp only
  generalize b.giveToken b.follower 0 = c at time holder epoch renewed claim ⊢
  exact ⟨time, holder, epoch, renewed, claim, List.mem_append_right _ (by simp)⟩

/-- A conflict: the higher epoch keeps the token, North on a tie, and the loser is reported. -/
theorem conflict_resolves (b : Block) :
    let winner := if b.faults.epochNorth < b.faults.epochSouth then Wing.south else Wing.north
    b.conflict.holderWing = winner ∧ b.conflict.od' 0x2803 2 = add64 (b.od' 0x2803 2) 1 ∧
      b.conflict.od' 0x2803 4 = add64 (b.od' 0x2803 4) 1 ∧
      (0x0B, 0x20 + wingNo (otherWing winner), 0, false) ∈ b.conflict.raised := by
  intro winner
  have epoch (c : Block) : ∃ n s, c.takeEpoch winner = { c with faults := { c.faults with epochNorth := n, epochSouth := s } } := by
    cases winner <;> exact ⟨_, _, rfl⟩
  unfold conflict
  dsimp only
  rw [show (if b.faults.epochNorth < b.faults.epochSouth then Wing.south else Wing.north) = winner from rfl]
  generalize hb : (((b.count 0x2803 4 1).count 0x2803 3 (b2n (b.holderWing != winner))).setOd 0x2803 1 (wingNo winner)).count
    0x2803 2 1 = c
  have holder : c.od' 0x2803 1 = wingNo winner := by
    rw [← hb, count_od'_of_ne _ 1 (by decide) (by decide) (by decide) (by decide) (by decide)]
    exact setOd_self ..
  have raised : c.od' 0x2803 2 = add64 (b.od' 0x2803 2) 1 := by
    rw [← hb, count_self, setOd_od'_of_ne _ _ (by decide) (by decide) (by decide) (by decide) (by decide),
      count_od'_of_ne _ _ (by decide) (by decide) (by decide) (by decide) (by decide),
      count_od'_of_ne _ _ (by decide) (by decide) (by decide) (by decide) (by decide)]
  have conflicts : c.od' 0x2803 4 = add64 (b.od' 0x2803 4) 1 := by
    rw [← hb, count_od'_of_ne _ _ (by decide) (by decide) (by decide) (by decide) (by decide),
      setOd_od'_of_ne _ _ (by decide) (by decide) (by decide) (by decide) (by decide),
      count_od'_of_ne _ _ (by decide) (by decide) (by decide) (by decide) (by decide), count_self]
  obtain ⟨n, s, taken⟩ := epoch c
  rw [taken]
  have noted := tokenEvent_noted { c with faults := { c.faults with
    epochNorth := n, epochSouth := s, renewed := c.time, claim := false, lapsed := false } } 1
  generalize tokenEvent _ 1 = d at noted ⊢
  exact ⟨holderWing_of _ ((noted.od _ _ (by decide) (by decide)).trans holder),
    (noted.od _ _ (by decide) (by decide)).trans raised, (noted.od _ _ (by decide) (by decide)).trans conflicts,
    List.mem_append_right _ (by simp)⟩

end Block

/-- With no injection armed the bridge carries every transfer. -/
theorem Block.bridgeBad_none {b : Block} (h : b.faults.injections = []) : b.bridgeBad = 0 := by
  unfold Block.bridgeBad
  rw [h]
  rfl

/-- A confirmation leaves all but the follower's epoch and the time of its confirmation. -/
theorem Block.confirm_confirms {b : Block} (h : b.faults.injections = []) :
    (∃ n s c, b.confirm = { b with faults := { b.faults with epochNorth := n, epochSouth := s, confirmed := c } }) ∧
      (b.followerUp = true → b.faults.bridgeFenced = false →
        b.confirm.faults.confirmed = b.time ∧ b.confirm.wingEpoch b.follower = b.od' 0x2803 2) := by
  have shape : b.confirm = if !b.followerUp || b.faults.bridgeFenced then b
      else { b.takeEpoch b.follower with faults := { (b.takeEpoch b.follower).faults with confirmed := b.time } } := by
    unfold Block.confirm
    simp only [Block.bridgeBad_none h, List.range_zero, List.foldl_nil, show ¬(5 ≤ 0) by decide, if_false]
    cases b.follower <;> rfl
  rw [shape]
  split
  · next stays =>
    refine ⟨⟨_, _, _, rfl⟩, fun up works => ?_⟩
    simp [up, works] at stays
  · cases b.follower <;> exact ⟨⟨_, _, _, rfl⟩, fun _ _ => ⟨rfl, rfl⟩⟩

section
variable {s : State} (hs : Settled s)
include hs

/-- A step of the lease that moves the timebase and its own notes alone. -/
theorem gives_of_leaseNotes {c : Instr} {b : Block} (hexec : exec c s = finish s b)
    (hb : ∃ time n k r x l m, b = { s.blk with
      time := time
      faults := { s.blk.faults with
        epochNorth := n, epochSouth := k, renewed := r, confirmed := x, lapsed := l, claim := m } }) {P : State → Prop}
    (hP : ∀ t, t = quietEnd s b → t.mem = s.mem → OdOnly s t [] → P t) : Gives c s P := by
  obtain ⟨noWrite, -, quiet, -⟩ := hs
  obtain ⟨_, _, _, _, _, _, _, rfl⟩ := hb
  refine gives_of_quietEnd hexec (.congr quiet rfl rfl rfl fun _ => rfl) fun t same ends =>
    hP t same (ends.mem.trans ?_) (ends.odOnly fun _ _ _ _ => rfl)
  show land s.mem s.blk.posted = s.mem
  rw [noWrite]
  rfl

end

section
variable {s : State} (hs : Settled s) (hruns : s.blk.leaseRuns = true)
include hs hruns

/-- The holder's renewal is accepted, and confirmed to the follower. -/
theorem leaseRenewal_gives (hinj : s.blk.faults.injections = []) (hup : s.blk.wingUp s.blk.holderWing = true)
    (hclaim : s.blk.faults.claim = false) : Gives .leaseRenewal s (fun t =>
      t.blk.faults.renewed = s.blk.time ∧ t.blk.faults.lapsed = false ∧ t.mem = s.mem ∧ OdOnly s t [] ∧
      (s.blk.followerUp = true → s.blk.faults.bridgeFenced = false → t.blk.faults.confirmed = s.blk.time ∧
        t.blk.wingEpoch s.blk.follower = s.blk.od' 0x2803 2)) := by
  have renews : s.blk.renewLease =
      Block.confirm { s.blk with faults := { s.blk.faults with renewed := s.blk.time, lapsed := false } } := by
    unfold Block.renewLease
    rw [hruns, hup]
    simp only [Block.injected_none hinj, hclaim]
    rfl
  have exec_eq : exec .leaseRenewal s = finish s s.blk.renewLease := rfl
  rw [renews] at exec_eq
  obtain ⟨⟨n, k, c, same⟩, confirmed⟩ := Block.confirm_confirms
    (b := { s.blk with faults := { s.blk.faults with renewed := s.blk.time, lapsed := false } }) hinj
  rw [same] at exec_eq confirmed
  refine gives_of_leaseNotes hs exec_eq ⟨_, _, _, _, _, _, _, rfl⟩ fun t ends mem only => ?_
  subst ends
  exact ⟨rfl, rfl, mem, only, fun up works => confirmed up works⟩

/-- A lapse without a claim is kept. -/
theorem leaseLapse_gives (hup : s.blk.followerUp = true) (hclaim : s.blk.faults.claim = false) :
    Gives .leaseLapse s (fun t => t.blk.faults.lapsed = true ∧
      t.blk.time = max s.blk.time (s.blk.faults.renewed + 14000) ∧ t.mem = s.mem ∧ OdOnly s t []) := by
  have exec_eq : exec .leaseLapse s = finish s s.blk.lapseLease := rfl
  have up (time : Nat) : Block.followerUp { s.blk with time := time } = true := hup
  unfold Block.lapseLease at exec_eq
  simp only [hruns, up, hclaim, Bool.not_true, Bool.false_eq_true, if_false] at exec_eq
  refine gives_of_leaseNotes hs exec_eq ⟨_, _, _, _, _, _, _, rfl⟩ fun t ends mem only => ?_
  subst ends
  exact ⟨rfl, rfl, mem, only⟩

end

/-- Settles O57: renewal, lapse and claim, by what stands against them. -/
theorem leaseMovesTheToken : Obligations.LeaseMovesTheToken := by
  intro s hs runs armed b0 lapseAt claimAt moved
  have follows (time : Nat) : Block.followerUp { s.blk with time := time } = s.blk.followerUp := rfl
  have lapses : exec .leaseLapse s = finish s s.blk.lapseLease := rfl
  have claims : exec .tokenClaim s = finish s s.blk.claimToken := rfl
  unfold Block.lapseLease at lapses
  unfold Block.claimToken at claims
  simp only [runs, follows, Bool.not_true, Bool.false_eq_true, if_false] at lapses claims
  refine ⟨fun up noClaim => leaseRenewal_gives hs runs armed up noClaim, fun up noClaim => leaseLapse_gives hs runs up noClaim,
    fun up claim => ?_, fun down first => ?_, fun up past => ⟨fun lapsed => ?_, fun current => ?_⟩, fun up current => ?_⟩
  · have up' : s.blk.followerUp = true := up
    have claim' : s.blk.faults.claim = true := claim
    simp only [up', claim', Bool.not_true, Bool.false_eq_true, if_false, if_true] at lapses
    exact works_of_finish lapses (Block.grantClaim_moves { s.blk with time := lapseAt })
  · have down' : s.blk.followerUp = false := down
    have first' : s.blk.faults.lapsed = false := first
    simp only [down', first', Bool.not_false, Bool.false_eq_true, if_false, if_true] at lapses
    refine works_of_finish lapses ⟨?_, rfl⟩
    show s.blk.raised ++ [_] = _
    rw [hs.2.2.1.1]
    rfl
  all_goals
    have up' : s.blk.followerUp = true := up
    simp only [up', Bool.not_true] at claims
  · have ran : Block.leaseOver { s.blk with time := claimAt } = true := decide_eq_true past
    have lapsed' : s.blk.faults.lapsed = true := lapsed
    refine works_of_finish (claims.trans (congrArg (finish s) ?_)) (Block.grantClaim_moves { s.blk with time := claimAt })
    rw [ran]
    simp only [lapsed']
    rfl
  · have ran : Block.leaseOver { s.blk with time := claimAt } = true := decide_eq_true past
    have current' : s.blk.faults.lapsed = false := current
    rw [ran] at claims
    simp only [current', Bool.not_true, Bool.false_eq_true, if_false] at claims
    refine gives_of_leaseNotes hs claims ⟨_, _, _, _, _, _, _, rfl⟩ fun t ends mem only => ?_
    subst ends
    exact ⟨rfl, rfl, mem, only⟩
  · have runsOn : Block.leaseOver { s.blk with time := claimAt } = false := decide_eq_false (Nat.not_le.2 current)
    refine works_of_finish (claims.trans (congrArg (finish s) ?_)) (Block.conflict_resolves { s.blk with time := claimAt })
    rw [runsOn]
    rfl

end Sys2Proof.Machine

/-! ### The hall pass (R528 to R532) -/

namespace Sys2Proof.Machine
namespace Block

@[simp] theorem wingPower_setWingPower_other (b : Block) (w : Wing) (p : WingPower) :
    (b.setWingPower w p).wingPower (otherWing w) = b.wingPower (otherWing w) := by cases w <;> rfl
@[simp] theorem wingPower_setOd (b : Block) (i j v : Nat) (w : Wing) : (b.setOd i j v).wingPower w = b.wingPower w := by
  cases w <;> rfl
@[simp] theorem power_out_setWingPower (b : Block) (w : Wing) (p : WingPower) :
    (b.setWingPower w p).power.out = b.power.out := by cases w <;> rfl
@[simp] theorem power_seq_setWingPower (b : Block) (w : Wing) (p : WingPower) :
    (b.setWingPower w p).power.seq = b.power.seq := by cases w <;> rfl
@[simp] theorem posted_setWingPower (b : Block) (w : Wing) (p : WingPower) : (b.setWingPower w p).posted = b.posted := by
  cases w <;> rfl
@[simp] theorem raised_setWingPower (b : Block) (w : Wing) (p : WingPower) : (b.setWingPower w p).raised = b.raised := by
  cases w <;> rfl
@[simp] theorem heldBack_setWingPower (b : Block) (w : Wing) (p : WingPower) : (b.setWingPower w p).heldBack = b.heldBack := by
  cases w <;> rfl
@[simp] theorem time_setWingPower (b : Block) (w : Wing) (p : WingPower) : (b.setWingPower w p).time = b.time := by
  cases w <;> rfl

/-- c is b with other entries and another state of the power interface. -/
def Powers (b c : Block) : Prop := ∃ od power, c = { b with od := od, power := power }

theorem Powers.trans {b c d : Block} (h : b.Powers c) (h' : c.Powers d) : b.Powers d := by
  obtain ⟨_, _, rfl⟩ := h
  obtain ⟨_, _, rfl⟩ := h'
  exact ⟨_, _, rfl⟩

theorem Powers.refl (b : Block) : b.Powers b := ⟨_, _, rfl⟩
theorem setWingPower_powers (b : Block) (w : Wing) (p : WingPower) : b.Powers (b.setWingPower w p) := by
  cases w <;> exact ⟨_, _, rfl⟩
theorem setOd_powers (b : Block) (i j v : Nat) : b.Powers (b.setOd i j v) := ⟨_, _, rfl⟩
theorem sendPower_powers (b : Block) (m : PowerMsg) : b.Powers (b.sendPower m) := ⟨_, _, rfl⟩

theorem returnPass_powers (b : Block) (w : Wing) : b.Powers (b.returnPass w) := by
  unfold returnPass
  split
  · exact .refl b
  · exact (setOd_powers ..).trans ((sendPower_powers ..).trans (setWingPower_powers ..))

end Block

/-- A step of the power interface that raises and writes nothing. -/
theorem gives_of_powers {c : Instr} {s : State} {b : Block} {P : State → Prop} (hs : Settled s) (hexec : exec c s = finish s b)
    (hb : s.blk.Powers b) (hP : ∀ t, EndOf s b t → t.mem = s.mem → t.blk.power = b.power →
      (∀ i j, odKey i j ≠ odKey 0x2202 0x0D → t.blk.od' i j = b.od' i j) → P t) : Gives c s P := by
  obtain ⟨noWrite, -, quiet, -⟩ := hs
  obtain ⟨od, power, rfl⟩ := hb
  refine gives_of_endOf hexec quiet.1 quiet.2.1 fun t ends => hP t ends (ends.mem.trans ?_) ends.power ends.od
  show land s.mem s.blk.posted = s.mem
  rw [noWrite]
  rfl

section
variable {s : State} (hs : Settled s) (w : Wing) (watts n : Nat)
include hs

theorem grant_stale (h : fresherSeq s.blk.power.seq n = false) :
    Ends (.powerGrant w watts n) s s.blk ∧ Ends (.revoke w watts n) s s.blk := by
  have same := finish_quiet s s.blk hs.2.2.1
  constructor
  · show finish s (s.blk.powerGrant w watts n) = _
    unfold Block.powerGrant
    simpa [h] using same
  · show finish s (s.blk.powerRevoke w watts n) = _
    unfold Block.powerRevoke
    simpa [h] using same

variable (hpowered : s.blk.powered = true) (h : fresherSeq s.blk.power.seq n = true)
include hpowered h

theorem grant_fresh : Gives (.powerGrant w watts n) s (fun t => t.blk.power.seq = some n ∧
    t.blk.power.out = s.blk.power.out ++ [.ack n] ∧
    t.blk.wingPower w = { s.blk.wingPower w with next := some watts, asked := none, silent := false } ∧
    t.blk.wingPower (otherWing w) = s.blk.wingPower (otherWing w) ∧ t.mem = s.mem ∧ OdOnly s t []) := by
  have exec_eq : exec (.powerGrant w watts n) s = finish s (s.blk.powerGrant w watts n) := rfl
  unfold Block.powerGrant at exec_eq
  simp only [h, hpowered, Bool.not_true, Bool.or_self, Bool.false_eq_true, if_false] at exec_eq
  have applied : s.blk.Powers (s.blk.applyPower n) := ⟨_, _, rfl⟩
  refine gives_of_powers hs exec_eq (applied.trans (Block.setWingPower_powers ..)) fun t ends mem power od => ?_
  have interface (v : Wing) := Block.wingPower_eq_of_power power v
  refine ⟨by rw [power]; simp [Block.applyPower, Block.sendPower], by rw [power]; simp [Block.applyPower, Block.sendPower],
    by rw [interface, Block.wingPower_setWingPower]; cases w <;> rfl,
    by rw [interface, Block.wingPower_setWingPower_other]; cases w <;> rfl, mem, ends.odOnly fun i j _ _ => ?_⟩
  rw [Block.od_setWingPower]
  rfl

omit hs in
theorem revoke_fresh : Works (.revoke w watts n) s (fun b => b.power.seq = some n ∧
    b.power.out = s.blk.power.out ++ [.ack n] ∧
    b.wingPower w = { s.blk.wingPower w with next := some (min ((s.blk.wingPower w).next.getD (s.blk.pass w)) watts) } ∧
    b.od' 0x2900 6 = add64 (s.blk.od' 0x2900 6) 1) := by
  have exec_eq : exec (.revoke w watts n) s = finish s (s.blk.powerRevoke w watts n) := rfl
  unfold Block.powerRevoke at exec_eq
  simp only [h, hpowered, Bool.not_true, Bool.or_self, Bool.false_eq_true, if_false] at exec_eq
  have pass : ((s.blk.applyPower n).count 0x2900 6 1).pass w = s.blk.pass w := by
    unfold Block.pass
    rw [Block.count_od'_of_ne _ _ (by cases w <;> decide) (by decide) (by cases w <;> decide) (by decide) (by decide)]
    rfl
  have interface : ((s.blk.applyPower n).count 0x2900 6 1).wingPower w = s.blk.wingPower w := by cases w <;> rfl
  rw [pass, interface] at exec_eq
  refine works_of_finish exec_eq ?_
  have noted := Block.event_noted
    (((s.blk.applyPower n).count 0x2900 6 1).setWingPower w
      { s.blk.wingPower w with next := some (min ((s.blk.wingPower w).next.getD (s.blk.pass w)) watts) }) 8
    (pack [(0, 0), (8, Block.wingNo w), (32, min ((s.blk.wingPower w).next.getD (s.blk.pass w)) watts),
      (48, ((s.blk.applyPower n).count 0x2900 6 1).domainTemp (Block.wingNo w)),
      (64, ((s.blk.applyPower n).count 0x2900 6 1).time), (128, ((s.blk.applyPower n).count 0x2900 6 1).railMv)])
  generalize Block.event _ 8 _ = c at noted ⊢
  refine ⟨by rw [noted.power, Block.power_seq_setWingPower]; rfl, by rw [noted.power, Block.power_out_setWingPower]; rfl, ?_, ?_⟩
  · rw [Block.wingPower_eq_of_power noted.power, Block.wingPower_setWingPower]
  · rw [noted.od _ _ (by decide) (by decide), Block.od_setWingPower, Block.count_self]
    rfl

end
end Sys2Proof.Machine

/-! ### Windows, returns and repeated requests -/

namespace Sys2Proof.Machine
namespace Block

/-- The steps of a window follow from the pass, the rail, the heat and the rate. -/
theorem windowSteps_congr {b c : Block} {w : Wing} (hpass : c.pass w = b.pass w) (hrail : c.railMv = b.railMv)
    (hheat : c.wingHeat w = b.wingHeat w) (hrate : (c.wingPower w).rate = (b.wingPower w).rate) :
    c.windowSteps w = b.windowSteps w := by
  unfold windowSteps stepRate
  rw [hpass, hrail, hheat, hrate]

/-- A wing gives its pass back. -/
theorem returnPass_gives (b : Block) (w : Wing) : (b.returnPass w).pass w = 0 ∧
    ((b.wingPower w).next = none → ((b.returnPass w).wingPower w).next = none) ∧
    ((b.returnPass w).wingPower w).rate = (b.wingPower w).rate ∧
    (b.returnPass w).wingPower (otherWing w) = b.wingPower (otherWing w) ∧
    (b.pass w ≠ 0 → (b.returnPass w).power.out = b.power.out ++ [.giveBack (w == .south)]) ∧
    ∀ i j, j < 256 → (i, j) ∉ [(0x2900, 1 + wingNo w)] → (b.returnPass w).od' i j = b.od' i j := by
  unfold returnPass
  split
  · next none =>
    have zero : b.pass w = 0 := by simp_all
    exact ⟨zero, id, rfl, rfl, fun some => absurd zero some, fun _ _ _ _ => rfl⟩
  · dsimp only
    have away : 1 + wingNo w < 256 := by cases w <;> decide
    generalize hc : (b.setOd 0x2900 (1 + wingNo w) 0).sendPower (.giveBack (w == .south)) = c
    have od (i j : Nat) : c.od' i j = (b.setOd 0x2900 (1 + wingNo w) 0).od' i j := by rw [← hc]; rfl
    have interface (v : Wing) : c.wingPower v = b.wingPower v := by rw [← hc]; cases v <;> rfl
    refine ⟨?_, fun _ => by simp, by simp [interface], by rw [wingPower_setWingPower_other, interface], fun _ => ?_, fun i j hj other => ?_⟩
    · unfold pass
      rw [od_setWingPower, od, setOd_self]
    · rw [power_out_setWingPower, ← hc]
      rfl
    · rw [od_setWingPower, od]
      exact setOd_od'_of_ne _ _ hj away (by simpa using other) (by cases w <;> decide) (by cases w <;> decide)

/-- A waiting grant comes into force. -/
def grantInForce (b : Block) (w : Wing) : Block :=
  match (b.wingPower w).next with
  | none => b
  | some watts => (b.setOd 0x2900 (1 + wingNo w) watts).setWingPower w { b.wingPower w with next := none }

theorem grantInForce_takes (b : Block) (w : Wing) : (b.grantInForce w).pass w = (b.wingPower w).next.getD (b.pass w) ∧
    ((b.grantInForce w).wingPower w).next = none ∧ ((b.grantInForce w).wingPower w).rate = (b.wingPower w).rate ∧
    (b.grantInForce w).wingPower (otherWing w) = b.wingPower (otherWing w) ∧ b.Powers (b.grantInForce w) ∧
    ∀ i j, j < 256 → (i, j) ∉ [(0x2900, 1 + wingNo w)] → (b.grantInForce w).od' i j = b.od' i j := by
  unfold grantInForce
  split
  · next none => exact ⟨by rw [none]; rfl, none, rfl, rfl, .refl b, fun _ _ _ _ => rfl⟩
  · next watts some =>
    refine ⟨?_, by simp, by simp, by simp, (setOd_powers ..).trans (setWingPower_powers ..), fun i j hj other => ?_⟩
    · unfold pass
      rw [od_setWingPower, setOd_self, some]
      rfl
    · rw [od_setWingPower]
      exact setOd_od'_of_ne _ _ hj (by cases w <;> decide) (by simpa using other) (by cases w <;> decide) (by cases w <;> decide)

/-- A wing's pass at the beginning of a window, before its steps are counted. -/
structure Opening (b c : Block) (w : Wing) : Prop where
  powers : b.Powers c
  pass : c.pass w = if b.wingUp w = true ∧ b.engineState ≠ 3 ∧ b.engineState ≠ 5 then (b.wingPower w).next.getD (b.pass w) else 0
  next : (c.wingPower w).next = none
  other : c.wingPower (otherWing w) = b.wingPower (otherWing w)
  od : ∀ i j, j < 256 → (i, j) ∉ [(0x2900, 1 + wingNo w)] → c.od' i j = b.od' i j

/-- What a new window of a wing leaves (R529, R531, R532). -/
structure Opened (b c : Block) (w : Wing) : Prop where
  powers : b.Powers c
  pass : c.pass w = if b.wingUp w = true ∧ b.engineState ≠ 3 ∧ b.engineState ≠ 5 then (b.wingPower w).next.getD (b.pass w) else 0
  next : (c.wingPower w).next = none
  steps : (c.wingPower w).steps = c.windowSteps w
  other : c.wingPower (otherWing w) = b.wingPower (otherWing w)
  od : ∀ i j, j < 256 → (i, j) ∉ [(0x2900, 1 + wingNo w)] → c.od' i j = b.od' i j

theorem openWindow_opened (b : Block) (w : Wing) : b.Opened (b.openWindow w) w := by
  obtain ⟨pass, next, rate, other, powers, od⟩ := b.grantInForce_takes w
  have shape : b.openWindow w =
      let b1 := b.grantInForce w
      let b2 := if !b1.wingUp w || b1.engineState == 3 || b1.engineState == 5 then b1.returnPass w else b1
      b2.setWingPower w { b2.wingPower w with steps := b2.windowSteps w } := rfl
  rw [shape]
  dsimp only
  generalize b.grantInForce w = b1 at pass next rate other powers od ⊢
  have state : b1.engineState = b.engineState := od _ _ (by decide) (by simp)
  have up : b1.wingUp w = b.wingUp w := by
    unfold wingUp wingEnabled wingFenced
    rw [od _ _ (by decide) (by simp), od _ _ (by decide) (by simp)]
  have chosen : b.Opening (if !b1.wingUp w || b1.engineState == 3 || b1.engineState == 5 then b1.returnPass w else b1) w := by
    rw [state, up]
    split
    · next returns =>
      obtain ⟨zero, next', rate', other', -, od'⟩ := b1.returnPass_gives w
      have none : ¬(b.wingUp w = true ∧ b.engineState ≠ 3 ∧ b.engineState ≠ 5) := by
        rintro ⟨in_, notStopped, notReset⟩
        simp [in_, notStopped, notReset] at returns
      exact ⟨powers.trans (b1.returnPass_powers w), by rw [if_neg none]; exact zero, next' next, other'.trans other,
        fun i j hj away => (od' i j hj away).trans (od i j hj away)⟩
    · next holds =>
      have keeps : b.wingUp w = true ∧ b.engineState ≠ 3 ∧ b.engineState ≠ 5 := by simpa [and_assoc] using holds
      exact ⟨powers, by rw [if_pos keeps]; exact pass, next, other, od⟩
  generalize (if !b1.wingUp w || b1.engineState == 3 || b1.engineState == 5 then b1.returnPass w else b1) = b2 at chosen ⊢
  obtain ⟨powers, pass, next, other, od⟩ := chosen
  refine ⟨powers.trans (setWingPower_powers ..), ?_, by simpa using next, ?_, by simpa using other, fun i j hj away => ?_⟩
  · rw [← pass]
    exact od_setWingPower ..
  · rw [wingPower_setWingPower]
    exact (windowSteps_congr (od_setWingPower ..) (od_setWingPower ..) (od_setWingPower ..) (by simp)).symm
  · rw [od_setWingPower, od i j hj away]

/-- The two wings' windows open apart from each other. -/
theorem passWindow_opens {b : Block} (h : b.powered = true) : b.Powers b.passWindow ∧
    (∀ i j, j < 256 → (i, j) ∉ [(0x2900, 1), (0x2900, 2)] → b.passWindow.od' i j = b.od' i j) ∧
    ∀ w, (b.passWindow.wingPower w).next = none ∧ (b.passWindow.wingPower w).steps = b.passWindow.windowSteps w ∧
      b.passWindow.pass w = if b.wingUp w = true ∧ b.engineState ≠ 3 ∧ b.engineState ≠ 5 then
        (b.wingPower w).next.getD (b.pass w) else 0 := by
  have shape : b.passWindow = (b.openWindow .north).openWindow .south := if_pos h
  have north := b.openWindow_opened .north
  have south := (b.openWindow .north).openWindow_opened .south
  rw [shape]
  generalize b.openWindow .north = c at north south ⊢
  generalize c.openWindow .south = d at south ⊢
  have kept (i j : Nat) (hj : j < 256) (h : (i, j) ≠ (0x2900, 2)) : d.od' i j = c.od' i j := south.od i j hj (by simpa [wingNo] using h)
  have before (i j : Nat) (hj : j < 256) (h : (i, j) ≠ (0x2900, 1)) : c.od' i j = b.od' i j := north.od i j hj (by simpa [wingNo] using h)
  have pass : d.pass .north = c.pass .north := kept _ _ (by decide) (by decide)
  have same : d.wingPower .north = c.wingPower .north := south.other
  refine ⟨north.powers.trans south.powers, fun i j hj other => ?_, fun w => ?_⟩
  · simp only [List.mem_cons, List.not_mem_nil, or_false, not_or] at other
    rw [kept i j hj other.2, before i j hj other.1]
  · cases w with
    | north =>
      refine ⟨by rw [same, north.next], ?_, by rw [pass, north.pass]⟩
      rw [same, north.steps]
      exact (windowSteps_congr pass (kept _ _ (by decide) (by decide)) (kept _ _ (by decide) (by decide)) (by rw [same])).symm
    | south =>
      have state : c.engineState = b.engineState := before _ _ (by decide) (by decide)
      have up : c.wingUp .south = b.wingUp .south := by
        unfold wingUp wingEnabled wingFenced
        rw [before _ _ (by decide) (by decide), before _ _ (by decide) (by decide)]
      have first : c.wingPower .south = b.wingPower .south := north.other
      have held : c.pass .south = b.pass .south := before _ _ (by decide) (by decide)
      refine ⟨south.next, south.steps, ?_⟩
      rw [south.pass, state, up, first, held]

end Block
end Sys2Proof.Machine

namespace Sys2Proof.Machine

section
variable {s : State} (hs : Settled s) (hpowered : s.blk.powered = true)
include hs hpowered

theorem hallPassWindow_gives : Gives .hallPassWindow s (fun t => t.mem = s.mem ∧ OdOnly s t [(0x2900, 1), (0x2900, 2)] ∧
    ∀ w, (t.blk.wingPower w).next = none ∧ (t.blk.wingPower w).steps = t.blk.windowSteps w ∧
      t.blk.pass w = if s.blk.wingUp w = true ∧ s.blk.engineState ≠ 3 ∧ s.blk.engineState ≠ 5 then
        (s.blk.wingPower w).next.getD (s.blk.pass w) else 0) := by
  obtain ⟨powers, od, opens⟩ := Block.passWindow_opens hpowered
  have exec_eq : exec .hallPassWindow s = finish s s.blk.passWindow := rfl
  generalize s.blk.passWindow = b at exec_eq powers od opens
  refine gives_of_powers hs exec_eq powers fun t ends mem power entries => ⟨mem, ends.odOnly od, fun w => ?_⟩
  obtain ⟨next, steps, pass⟩ := opens w
  have interface := Block.wingPower_eq_of_power power w
  have shown : t.blk.pass w = b.pass w := entries _ _ (by cases w <;> decide)
  refine ⟨by rw [interface, next], ?_, by rw [shown, pass]⟩
  rw [interface, steps]
  exact (Block.windowSteps_congr shown (entries _ _ (by decide)) (entries _ _ (by cases w <;> decide)) (by rw [interface])).symm

omit hpowered in
theorem hallReturn_gives {w : Wing} (hpass : s.blk.pass w ≠ 0) (hcurrent : (s.blk.engine w).current = none)
    (hready : (s.blk.engine w).ready = []) : Gives (.hallReturn w) s (fun t => t.blk.pass w = 0 ∧
      t.blk.power.out = s.blk.power.out ++ [.giveBack (w == .south)] ∧ t.mem = s.mem ∧
      OdOnly s t [(0x2900, 1 + Block.wingNo w)]) := by
  have exec_eq : exec (.hallReturn w) s = finish s (s.blk.idleReturn w) := rfl
  have rests : s.blk.stepsOn w = false := by
    unfold Block.stepsOn
    simp [hcurrent, hready]
  unfold Block.idleReturn at exec_eq
  simp only [beq_iff_eq, hpass, rests, Bool.or_false, if_false] at exec_eq
  generalize hb : ({ s.blk with time := _ } : Block) = b at exec_eq
  obtain ⟨noWrite, -, quiet, -⟩ := hs
  obtain ⟨zero, -, -, -, out, od⟩ := b.returnPass_gives w
  obtain ⟨_, _, same⟩ := b.returnPass_powers w
  generalize b.returnPass w = c at exec_eq zero out od same
  refine gives_of_endOf exec_eq (by rw [same, ← hb]; exact quiet.1) (by rw [same, ← hb]; exact quiet.2.1) fun t ends => ?_
  refine ⟨(ends.od _ _ (by cases w <;> decide)).trans zero, ?_, ?_, ends.odOnly fun i j hj other => ?_⟩
  · rw [ends.power, out (by rw [← hb]; exact hpass), ← hb]
  · rw [ends.mem, same, ← hb]
    show land s.mem s.blk.posted = s.mem
    rw [noWrite]
    rfl
  · rw [od i j hj other, ← hb]
    rfl

omit hs hpowered in
theorem passSilent_works {w : Wing} {q t0 : Nat} (h : (s.blk.wingPower w).asked = some (q, t0)) :
    Works (.passSilent w) s (fun b => b.time = max s.blk.time (t0 + 100000) ∧ (b.wingPower w).silent = true ∧
      (b.wingPower w).asked = some (s.blk.need w, b.time) ∧
      b.power.out = s.blk.power.out ++ [.request (w == .south) (s.blk.need w)]) := by
  have exec_eq : exec (.passSilent w) s = finish s (s.blk.passSilent w) := rfl
  unfold Block.passSilent at exec_eq
  simp only [h] at exec_eq
  generalize hb : ({ s.blk with time := max s.blk.time (t0 + 100000) } : Block) = b at exec_eq
  have asked : (b.sendRequest w).time = b.time ∧ ((b.sendRequest w).wingPower w).asked = some (b.need w, b.time) ∧
      (b.sendRequest w).power.out = b.power.out ++ [.request (w == .south) (b.need w)] := by
    unfold Block.sendRequest
    cases w <;> exact ⟨rfl, rfl, rfl⟩
  have noted : (b.sendRequest w).Noted
      (if (s.blk.wingPower w).silent then b.sendRequest w else (b.sendRequest w).powerEvent 1 (Block.wingNo w) 0 0) := by
    split
    · exact .refl _
    · exact Block.powerEvent_noted ..
  generalize (if (s.blk.wingPower w).silent then b.sendRequest w else (b.sendRequest w).powerEvent 1 (Block.wingNo w) 0 0) = c
    at noted exec_eq
  obtain ⟨time, asked, out⟩ := asked
  have need : b.need w = s.blk.need w := by rw [← hb]; cases w <;> rfl
  have now : c.time = max s.blk.time (t0 + 100000) := by rw [noted.time, time, ← hb]
  refine works_of_finish exec_eq ⟨(Block.time_setWingPower ..).trans now, by simp, ?_, ?_⟩
  · rw [Block.wingPower_setWingPower, Block.time_setWingPower, Block.wingPower_eq_of_power noted.power, asked, need,
      noted.time, time]
  · rw [Block.power_out_setWingPower, noted.power, out, need, ← hb]

/-! ### Voltage and rates (R535, R536) -/

theorem voltageChange_gives (mv : Nat) :
    Gives (.voltageChange mv) s (fun t => t.blk.od' 0x2901 1 = mv ∧ t.mem = s.mem ∧ OdOnly s t [(0x2901, 1)]) := by
  have exec_eq : exec (.voltageChange mv) s = finish s (s.blk.voltage mv) := rfl
  unfold Block.voltage at exec_eq
  simp only [hpowered, Bool.not_true, Bool.false_eq_true, if_false] at exec_eq
  refine gives_of_powers hs exec_eq (((Block.setWingPower_powers ..).trans (Block.setWingPower_powers ..)).trans
    (Block.setOd_powers ..)) fun t ends mem _ od => ⟨?_, mem, ends.odOnly fun i j hj other => ?_⟩
  · rw [od _ _ (by decide), Block.setOd_self]
  · rw [Block.setOd_od'_of_ne _ _ hj (by decide) (by simpa using other) (by decide) (by decide), Block.od_setWingPower,
      Block.od_setWingPower]

theorem stepRateMeasure_gives (n k : Nat) : Gives (.stepRateMeasure n k) s (fun t =>
    t.blk.power.north.rate = n ∧ t.blk.power.south.rate = k ∧ t.mem = s.mem ∧ (s.blk.samples = false → OdOnly s t []) ∧
    (s.blk.samples = true → t.blk.od' 0x2901 2 = n ∧ t.blk.od' 0x2901 3 = k ∧ OdOnly s t [(0x2901, 2), (0x2901, 3)])) := by
  have exec_eq : exec (.stepRateMeasure n k) s = finish s (s.blk.measureRates n k) := rfl
  unfold Block.measureRates at exec_eq
  simp only [hpowered, Bool.not_true, Bool.false_eq_true, if_false] at exec_eq
  generalize hb : (s.blk.setWingPower .north _).setWingPower .south _ = b at exec_eq
  have powers : s.blk.Powers b := hb ▸ (Block.setWingPower_powers ..).trans (Block.setWingPower_powers ..)
  have entries (i j : Nat) : b.od' i j = s.blk.od' i j := by rw [← hb, Block.od_setWingPower, Block.od_setWingPower]
  have rates : b.power.north.rate = n ∧ b.power.south.rate = k := by rw [← hb]; exact ⟨rfl, rfl⟩
  have sampled : b.samples = s.blk.samples := by rw [← hb]; rfl
  rw [sampled] at exec_eq
  cases on : s.blk.samples with
  | false =>
    simp only [on, Bool.false_eq_true, if_false] at exec_eq
    refine gives_of_powers hs exec_eq powers fun t ends mem power od => ?_
    exact ⟨by rw [power]; exact rates.1, by rw [power]; exact rates.2, mem, fun _ => ends.odOnly fun i j _ _ => entries i j,
      nofun⟩
  | true =>
    simp only [on, if_true] at exec_eq
    refine gives_of_powers hs exec_eq (powers.trans ((Block.setOd_powers ..).trans (Block.setOd_powers ..)))
      fun t ends mem power od => ?_
    refine ⟨by rw [power]; exact rates.1, by rw [power]; exact rates.2, mem, nofun,
      fun _ => ⟨?_, ?_, ends.odOnly fun i j hj other => ?_⟩⟩
    · rw [od _ _ (by decide), Block.setOd_od'_of_ne _ _ (by decide) (by decide) (by decide) (by decide) (by decide),
        Block.setOd_self]
    · rw [od _ _ (by decide), Block.setOd_self]
    · simp only [List.mem_cons, List.not_mem_nil, or_false, not_or] at other
      rw [Block.setOd_od'_of_ne _ _ hj (by decide) other.2 (by decide) (by decide),
        Block.setOd_od'_of_ne _ _ hj (by decide) other.1 (by decide) (by decide), entries]

end
end Sys2Proof.Machine

/-! ### Heat in the stacks (R343 to R345) -/

namespace Sys2Proof.Machine

/-- How many of three rising thresholds a reading reaches. -/
theorem reached_count {a b c t : Nat} (hab : a ≤ b) (hbc : b ≤ c) :
    let up := (([a, b, c] : List Nat).filter (· ≤ t)).length
    up = 3 ∧ c ≤ t ∨ up = 2 ∧ t < c ∧ b ≤ t ∨ up = 1 ∧ t < b ∧ a ≤ t ∨ up = 0 ∧ t < a := by
  by_cases hc : c ≤ t
  · simp [hc, hbc.trans hc, (hab.trans hbc).trans hc]
  · by_cases hb : b ≤ t
    · simp [hc, hb, hab.trans hb]
      omega
    · by_cases ha : a ≤ t
      · simp [hc, hb, ha]
        omega
      · simp [hc, hb, ha]
        omega

/-- The state that a reading gives, threshold by threshold. -/
theorem thermalNext_cases {a b c hys old t : Nat} (hab : a ≤ b) (hbc : b ≤ c) (hold : old ≤ 3) :
    let new := thermalNext [a, b, c] hys old t
    new ≤ 3 ∧ ((a ≤ t → 1 ≤ new) ∧ (b ≤ t → 2 ≤ new) ∧ (c ≤ t → 3 ≤ new)) ∧
      ((old < 1 → 1 ≤ new → a ≤ t) ∧ (old < 2 → 2 ≤ new → b ≤ t) ∧ (old < 3 → 3 ≤ new → c ≤ t)) ∧
      ((new < 1 → 1 ≤ old → t + hys < a) ∧ (new < 2 → 2 ≤ old → t + hys < b) ∧ (new < 3 → 3 ≤ old → t + hys < c)) ∧
      (new ≤ old → (new = 1 → a ≤ t + hys) ∧ (new = 2 → b ≤ t + hys) ∧ (new = 3 → c ≤ t + hys)) := by
  intro new
  have value : thermalNext [a, b, c] hys old t = new := rfl
  unfold thermalNext at value
  simp only [List.getD_cons_zero, List.getD_cons_succ, Bool.and_eq_true, decide_eq_true_eq, beq_iff_eq] at value
  have reached := reached_count (t := t) hab hbc
  generalize (([a, b, c] : List Nat).filter (· ≤ t)).length = up at value reached
  split_ifs at value <;>
    refine ⟨?_, ⟨?_, ?_, ?_⟩, ⟨?_, ?_, ?_⟩, ⟨?_, ?_, ?_⟩, fun _ => ⟨?_, ?_, ?_⟩⟩ <;> intros <;> omega

/-- Three facts are those of every state from 1 to 3. -/
theorem forall_state {P : Nat → Prop} (h1 : P 1) (h2 : P 2) (h3 : P 3) (i : Nat) (low : 1 ≤ i) (high : i ≤ 3) : P i := by
  obtain rfl | rfl | rfl : i = 1 ∨ i = 2 ∨ i = 3 := by omega
  · exact h1
  · exact h2
  · exact h3

/-- The state that a reading gives, against rising thresholds: it rises with those reached and falls only through states
left below their threshold by more than the hysteresis. -/
theorem thermalNext_bounds {thr : Nat → Nat} {hys old t : Nat} (hab : thr 1 ≤ thr 2) (hbc : thr 2 ≤ thr 3) (hold : old ≤ 3) :
    let new := thermalNext [thr 1, thr 2, thr 3] hys old t
    new ≤ 3 ∧ (∀ i, 1 ≤ i → i ≤ 3 → thr i ≤ t → i ≤ new) ∧ (∀ i, old < i → i ≤ new → thr i ≤ t) ∧
      (∀ i, new < i → i ≤ old → t + hys < thr i) ∧ (1 ≤ new → new ≤ old → thr new ≤ t + hys) := by
  intro new
  obtain ⟨small, ⟨r1, r2, r3⟩, ⟨u1, u2, u3⟩, ⟨d1, d2, d3⟩, stays⟩ := thermalNext_cases (hys := hys) (t := t) hab hbc hold
  refine ⟨small, forall_state r1 r2 r3, fun i low high => ?_, fun i low high => ?_, fun low high => ?_⟩
  · exact forall_state (P := fun i => old < i → i ≤ new → thr i ≤ t) u1 u2 u3 i (by omega) (by omega) low high
  · exact forall_state (P := fun i => new < i → i ≤ old → t + hys < thr i) d1 d2 d3 i (by omega) (by omega) low high
  · obtain ⟨s1, s2, s3⟩ := stays high
    exact forall_state (P := fun i => new = i → thr i ≤ t + hys) s1 s2 s3 new low small rfl

end Sys2Proof.Machine

namespace Sys2Proof.Machine
namespace Block

/-- The state of a stack that a reading gives. -/
def stackState (b : Block) (k temp : Nat) : Nat :=
  thermalNext [b.od' 0x2501 1, b.od' 0x2501 2, b.od' 0x2501 3] (b.od' 0x2501 4) (b.od' 0x2502 (0x11 + k)) temp

theorem stackState_congr {b c : Block} {k : Nat} (hthr : ∀ j, j < 5 → c.od' 0x2501 j = b.od' 0x2501 j)
    (hold : c.od' 0x2502 (0x11 + k) = b.od' 0x2502 (0x11 + k)) (temp : Nat) : c.stackState k temp = b.stackState k temp := by
  unfold stackState
  rw [hthr 1 (by decide), hthr 2 (by decide), hthr 3 (by decide), hthr 4 (by decide), hold]

/-- The reading of one stack is shown, with the state that it gives; thresholds and other stacks stand. -/
theorem stackReading_reads (b : Block) {k : Nat} (hk : k < 8) (temp : Nat) :
    (b.stackReading k temp).od' 0x2502 (k + 1) = temp ∧ (b.stackReading k temp).od' 0x2502 (0x11 + k) = b.stackState k temp ∧
      (∀ i, i < 8 → i ≠ k → (b.stackReading k temp).od' 0x2502 (i + 1) = b.od' 0x2502 (i + 1) ∧
        (b.stackReading k temp).od' 0x2502 (0x11 + i) = b.od' 0x2502 (0x11 + i)) ∧
      ∀ j, j < 5 → (b.stackReading k temp).od' 0x2501 j = b.od' 0x2501 j := by
  have shape : b.stackReading k temp =
      let b1 := (b.setOd 0x2502 (k + 1) temp).setOd 0x2502 (0x11 + k) (b.stackState k temp)
      if b.stackState k temp == b.od' 0x2502 (0x11 + k) then b1
      else b1.event 5 (pack [(0, k), (8, temp), (16, b.od' 0x2502 (0x11 + k)), (18, b.stackState k temp), (32, b.time)]) := rfl
  rw [shape]
  dsimp only
  generalize hc : (b.setOd 0x2502 (k + 1) temp).setOd 0x2502 (0x11 + k) (b.stackState k temp) = c
  have away (i j v : Nat) (c : Block) (h : (0x2502, j) ≠ (0x2502, i)) (hi : i < 256) (hj : j < 256) :
      (c.setOd 0x2502 i v).od' 0x2502 j = c.od' 0x2502 j :=
    setOd_od'_of_ne c v hj hi h (by unfold odKey; omega) (by unfold odKey; omega)
  have noted : c.Noted (if b.stackState k temp == b.od' 0x2502 (0x11 + k) then c
      else c.event 5 (pack [(0, k), (8, temp), (16, b.od' 0x2502 (0x11 + k)), (18, b.stackState k temp), (32, b.time)])) := by
    split
    · exact .refl c
    · exact event_noted ..
  have shown (i j : Nat) (hi : i = 0x2501 ∨ i = 0x2502) (hj : j < 256) := noted.od i j hj (by
    rcases hi with rfl | rfl <;> simp [eventKeys, writeKeys, readKeys])
  refine ⟨?_, ?_, fun i hi other => ⟨?_, ?_⟩, fun j hj => ?_⟩
  · rw [shown _ _ (.inr rfl) (by omega), ← hc, away _ _ _ _ (by simp; omega) (by omega) (by omega), setOd_self]
  · rw [shown _ _ (.inr rfl) (by omega), ← hc, setOd_self]
  · rw [shown _ _ (.inr rfl) (by omega), ← hc, away _ _ _ _ (by simp; omega) (by omega) (by omega),
      away _ _ _ _ (by simpa using other) (by omega) (by omega)]
  · rw [shown _ _ (.inr rfl) (by omega), ← hc, away _ _ _ _ (by simpa using other) (by omega) (by omega),
      away _ _ _ _ (by simp; omega) (by omega) (by omega)]
  · rw [shown _ _ (.inl rfl) (by omega), ← hc,
      setOd_od'_of_ne _ _ (by omega) (by omega) (by simp) (by unfold odKey; omega) (by unfold odKey; omega),
      setOd_od'_of_ne _ _ (by omega) (by omega) (by simp) (by unfold odKey; omega) (by unfold odKey; omega)]

/-- One stack of a round of readings: read where a reading is there for it. -/
def readStack (temps : List Nat) (b : Block) (k : Nat) : Block :=
  match temps[k]? with
  | none => b
  | some t => b.stackReading k t

/-- The first n stacks read: those from n on, and the thresholds, stand; one below shows its reading and its state. -/
theorem readStack_foldl (b : Block) (temps : List Nat) {n : Nat} (hn : n ≤ 8) :
    (∀ j, j < 5 → ((List.range n).foldl (readStack temps) b).od' 0x2501 j = b.od' 0x2501 j) ∧
      (∀ i, n ≤ i → i < 8 → ((List.range n).foldl (readStack temps) b).od' 0x2502 (0x11 + i) = b.od' 0x2502 (0x11 + i)) ∧
      ∀ k temp, k < n → temps[k]? = some temp → ((List.range n).foldl (readStack temps) b).od' 0x2502 (k + 1) = temp ∧
        ((List.range n).foldl (readStack temps) b).od' 0x2502 (0x11 + k) = b.stackState k temp := by
  induction n with
  | zero => exact ⟨fun _ _ => rfl, fun _ _ _ => rfl, fun k _ below => absurd below (Nat.not_lt_zero k)⟩
  | succ n ih =>
    obtain ⟨thr, later, earlier⟩ := ih (by omega)
    rw [List.range_succ, List.foldl_append, List.foldl_cons, List.foldl_nil]
    generalize (List.range n).foldl (readStack temps) b = c at thr later earlier ⊢
    unfold readStack
    cases read : temps[n]? with
    | none =>
      refine ⟨thr, fun i low high => later i (by omega) high, fun k temp below found => ?_⟩
      have : k ≠ n := by rintro rfl; rw [read] at found; cases found
      exact earlier k temp (by omega) found
    | some t =>
      obtain ⟨shown, state, others, still⟩ := c.stackReading_reads (k := n) (by omega) t
      refine ⟨fun j hj => (still j hj).trans (thr j hj), fun i low high => ((others i high (by omega)).2).trans (later i (by omega) high),
        fun k temp below found => ?_⟩
      by_cases this : k = n
      · subst this
        obtain rfl : t = temp := Option.some.inj (read.symm.trans found)
        exact ⟨shown, state.trans (stackState_congr thr (later k (Nat.le_refl k) (by omega)) t)⟩
      · obtain ⟨first, second⟩ := others k (by omega) this
        obtain ⟨shown', state'⟩ := earlier k temp (by omega) found
        exact ⟨first.trans shown', second.trans state'⟩

end Block

theorem stackTemperatureRead_works {s : State} (hpowered : s.blk.powered = true) {temps : List Nat} {k temp : Nat}
    (hstate : s.blk.engineState ≠ 4) (hn : s.blk.od' 0x2500 2 ≤ 8) (hk : k < s.blk.od' 0x2500 2) (htemp : temps[k]? = some temp)
    (h12 : s.blk.od' 0x2501 1 ≤ s.blk.od' 0x2501 2) (h23 : s.blk.od' 0x2501 2 ≤ s.blk.od' 0x2501 3)
    (hold : s.blk.od' 0x2502 (0x11 + k) ≤ 3) : Works (.stackTemperatureRead temps) s (fun b =>
      let old := s.blk.od' 0x2502 (0x11 + k)
      let new := b.od' 0x2502 (0x11 + k)
      b.od' 0x2502 (k + 1) = temp ∧ new ≤ 3 ∧
      (∀ i, 1 ≤ i → i ≤ 3 → s.blk.od' 0x2501 i ≤ temp → i ≤ new) ∧
      (∀ i, old < i → i ≤ new → s.blk.od' 0x2501 i ≤ temp) ∧
      (∀ i, new < i → i ≤ old → temp + s.blk.od' 0x2501 4 < s.blk.od' 0x2501 i) ∧
      (1 ≤ new → new ≤ old → s.blk.od' 0x2501 new ≤ temp + s.blk.od' 0x2501 4)) := by
  have exec_eq : exec (.stackTemperatureRead temps) s = finish s (s.blk.readStacks temps) := rfl
  have shape : s.blk.readStacks temps = (List.range (s.blk.od' 0x2500 2)).foldl (Block.readStack temps) s.blk := by
    unfold Block.readStacks
    simp only [hpowered, beq_iff_eq, hstate, Bool.not_true, Bool.false_or, if_false]
    rfl
  obtain ⟨-, -, reads⟩ := s.blk.readStack_foldl temps hn
  obtain ⟨shown, state⟩ := reads k temp hk htemp
  rw [shape] at exec_eq
  refine works_of_finish exec_eq ?_
  rw [state]
  exact ⟨shown, thermalNext_bounds (thr := fun i => s.blk.od' 0x2501 i) h12 h23 hold⟩

end Sys2Proof.Machine

/-! ### Junctions (R537 to R540) -/

namespace Sys2Proof.Machine
namespace Block

/-- Entries that showing a wing's thermal state may change. -/
def heatKeys : List (Nat × Nat) := (0x2902, 0x21) :: (0x2902, 0x22) :: eventKeys

/-- c is b with other thermal states, and the events that say so. -/
structure Heated (b c : Block) : Prop where
  od : ∀ i j, j < 256 → (i, j) ∉ heatKeys → c.od' i j = b.od' i j
  failed : c.power.failed = b.power.failed
  raised : ∀ r : Nat × Nat × Nat × Bool, r.1 ≠ 1 → (r ∈ c.raised ↔ r ∈ b.raised)

theorem Heated.trans {b c d : Block} (h : b.Heated c) (h' : c.Heated d) : b.Heated d :=
  ⟨fun i j hj away => (h'.od i j hj away).trans (h.od i j hj away), h'.failed.trans h.failed,
    fun r kind => (h'.raised r kind).trans (h.raised r kind)⟩

theorem Heated.refl (b : Block) : b.Heated b := ⟨fun _ _ _ _ => rfl, rfl, fun _ _ => Iff.rfl⟩

theorem Noted.heated {b c : Block} (h : b.Noted c) : b.Heated c :=
  ⟨fun i j hj away => h.od i j hj fun mem => away (List.mem_cons_of_mem _ (List.mem_cons_of_mem _ mem)),
    by rw [h.power], fun _ kind => h.mem_raised kind⟩

theorem stepHeat_heated (b : Block) (d : Nat) : b.Heated (b.stepHeat d) := ⟨fun _ _ _ _ => rfl, rfl, fun _ _ => Iff.rfl⟩

theorem setHeat_heated (b : Block) (w : Wing) (v : Nat) : b.Heated (b.setOd 0x2902 (0x21 + wingNo w) v) := by
  refine ⟨fun i j hj away => setOd_od'_of_ne _ _ hj ?_ (fun same => away ?_) ?_ ?_, rfl, fun _ _ => Iff.rfl⟩
  · cases w <;> decide
  · rw [same]
    cases w <;> decide
  · cases w <;> decide
  · cases w <;> decide

theorem showHeat_heated (b : Block) (w : Wing) : b.Heated (b.showHeat w) := by
  unfold showHeat
  dsimp only
  split
  · exact .refl b
  · exact (setHeat_heated ..).trans (powerEvent_noted ..).heated

/-- Every domain's state stepped, and shown at both wings. -/
def heatShown (b : Block) : Block := ((((b.stepHeat 0).stepHeat 1).stepHeat 2).showHeat .north).showHeat .south

theorem heatShown_heated (b : Block) : b.Heated b.heatShown :=
  (stepHeat_heated ..).trans ((stepHeat_heated ..).trans
    ((stepHeat_heated ..).trans ((showHeat_heated ..).trans (showHeat_heated ..))))

/-- A wing shows the higher of its own state and the shared domain's. -/
theorem showHeat_shows (b : Block) (w : Wing) :
    (b.showHeat w).wingHeat w = max (b.heatOf (wingNo w)) (b.heatOf 2) := by
  unfold showHeat
  dsimp only
  split
  next same => exact (beq_iff_eq.1 same).symm
  next =>
    unfold wingHeat
    rw [(powerEvent_noted ..).od _ _ (by cases w <;> decide) (by cases w <;> decide), setOd_self]

/-- Another wing's showing leaves a wing's thermal state. -/
theorem showHeat_other (b : Block) (w : Wing) : (b.showHeat (otherWing w)).wingHeat w = b.wingHeat w := by
  unfold showHeat wingHeat
  dsimp only
  split
  · rfl
  · rw [(powerEvent_noted ..).od _ _ (by cases w <;> decide) (by cases w <;> decide)]
    exact setOd_od'_of_ne _ _ (by cases w <;> decide) (by cases w <;> decide) (by cases w <;> decide)
      (by cases w <;> decide) (by cases w <;> decide)

/-- A domain with a failed sensor is SEVERE. -/
theorem heatOf_of_failed {b : Block} {i : Nat} (h : i ∈ b.power.failed) : b.heatOf (islandDomain i) = 3 := by
  unfold heatOf
  have failed : b.power.failed.any (fun k => islandDomain k == islandDomain i) = true :=
    List.any_eq_true.2 ⟨i, h, beq_self_eq_true _⟩
  rw [if_pos failed]

/-- The reading of one island, where one is there for it. -/
def readIsland (temps : List Nat) (b : Block) (i : Nat) : Block :=
  match temps[i]? with
  | none => b
  | some t =>
    let b1 := b.setOd 0x2902 (i + 1) t
    { b1 with power := { b1.power with readAt := mapSet b1.power.readAt (2 ^ 64) i b1.time,
                                       failed := b1.power.failed.filter (· != i) } }

/-- What the readings of the first n islands leave. -/
structure ReadIslands (b c : Block) (temps : List Nat) (n : Nat) : Prop where
  failed : ∀ i, i ∈ c.power.failed ↔ i ∈ b.power.failed ∧ (n ≤ i ∨ temps.length ≤ i)
  shown : ∀ i, i < n → c.od' 0x2902 (i + 1) = temps.getD i (b.od' 0x2902 (i + 1))
  later : ∀ i, n ≤ i → i < 18 → c.od' 0x2902 (i + 1) = b.od' 0x2902 (i + 1)
  wings : c.od' 0x1000 9 = b.od' 0x1000 9
  raised : c.raised = b.raised

theorem readIsland_reads {b c : Block} {temps : List Nat} {n : Nat} (h : b.ReadIslands c temps n) (hn : n < 18) :
    b.ReadIslands (c.readIsland temps n) temps (n + 1) := by
  obtain ⟨failed, shown, later, wings, raised⟩ := h
  unfold readIsland
  cases read : temps[n]? with
  | none =>
    have short : temps.length ≤ n := List.getElem?_eq_none_iff.1 read
    refine ⟨fun i => (failed i).trans (and_congr_right fun _ => by omega), fun i below => ?_,
      fun i low high => later i (by omega) high, wings, raised⟩
    obtain earlier | rfl := Nat.lt_succ_iff_lt_or_eq.1 below
    · exact shown i earlier
    · rw [List.getD_eq_getElem?_getD, read]
      exact later i (Nat.le_refl i) hn
  | some t =>
    obtain ⟨long, -⟩ := List.getElem?_eq_some_iff.1 read
    have others (i : Nat) (hi : i < 18) (other : i ≠ n) (u : Nat) :
        (c.setOd 0x2902 (n + 1) u).od' 0x2902 (i + 1) = c.od' 0x2902 (i + 1) :=
      setOd_od'_of_ne _ _ (by omega) (by omega) (by simpa using other) (by unfold odKey; omega) (by unfold odKey; omega)
    refine ⟨fun i => ?_, fun i below => ?_, fun i low high => (others i high (by omega) t).trans (later i (by omega) high), ?_, raised⟩
    · simp only [List.mem_filter, setOd_power, bne_iff_ne, ne_eq, failed i]
      constructor
      · rintro ⟨⟨mem, place⟩, other⟩
        exact ⟨mem, by omega⟩
      · rintro ⟨mem, place⟩
        exact ⟨⟨mem, by omega⟩, by omega⟩
    · obtain earlier | rfl := Nat.lt_succ_iff_lt_or_eq.1 below
      · exact (others i (by omega) (by omega) t).trans (shown i earlier)
      · rw [List.getD_eq_getElem?_getD, read]
        exact setOd_self ..
    · exact (setOd_od'_of_ne c t (by decide) (by omega) (by simp) (by unfold odKey; omega) (by unfold odKey; omega)).trans wings

theorem readIslands (b : Block) (temps : List Nat) {n : Nat} (hn : n ≤ 18) :
    b.ReadIslands ((List.range n).foldl (readIsland temps) b) temps n := by
  induction n with
  | zero => exact ⟨fun i => by simp, fun i below => absurd below (Nat.not_lt_zero i), fun _ _ _ => rfl, rfl, rfl⟩
  | succ n ih =>
    rw [List.range_succ, List.foldl_append]
    exact readIsland_reads (ih (by omega)) (by omega)

/-- A domain reaches a temperature when one of its islands does. -/
theorem le_domainTemp {b : Block} {d t : Nat} (ht : 0 < t) :
    t ≤ b.domainTemp d ↔ ∃ i, i < 18 ∧ islandDomain i = d ∧ t ≤ b.od' 0x2902 (i + 1) := by
  have reach (l : List Nat) (m : Nat) : t ≤ l.foldl max m ↔ t ≤ m ∨ ∃ x ∈ l, t ≤ x := by
    induction l generalizing m with
    | nil => simp
    | cons x l ih =>
      rw [List.foldl_cons, ih]
      simp only [List.mem_cons, exists_eq_or_imp, le_max_iff, or_assoc]
  unfold domainTemp
  rw [reach]
  simp only [List.mem_map, List.mem_filter, List.mem_range, beq_iff_eq, exists_exists_and_eq_and]
  constructor
  · rintro (none | ⟨i, ⟨hi, hd⟩, reads⟩)
    · omega
    · exact ⟨i, hi, hd, reads⟩
  · rintro ⟨i, hi, hd, reads⟩
    exact .inr ⟨i, ⟨hi, hd⟩, reads⟩

/-- The trips of both wings, reported. -/
def tripWings (b : Block) : Block :=
  let b5 := if b.trips .north then b.found 0x40 0x20 0 false else b
  if b5.trips .south then b5.found 0x40 0x21 0 false else b5

theorem tripWings_raised (b : Block) : b.tripWings.raised = b.raised ++
    ((if b.trips .north then [(0x40, 0x20, 0, false)] else []) ++ if b.trips .south then [(0x40, 0x21, 0, false)] else []) := by
  have south : (b.found 0x40 0x20 0 false).trips .south = b.trips .south := rfl
  unfold tripWings
  dsimp only
  by_cases north : b.trips .north = true
  · rw [if_pos north, if_pos north, south]
    split
    · exact List.append_assoc ..
    · rw [List.append_nil]
      rfl
  · rw [if_neg north, if_neg north]
    split
    · rfl
    · exact (List.append_nil _).symm

/-- A wing's trip is reported exactly when it takes one. -/
theorem mem_tripWings_raised (b : Block) (w : Wing) (none : ∀ r ∈ b.raised, r.1 ≠ 0x40) :
    (0x40, 0x20 + wingNo w, 0, false) ∈ b.tripWings.raised ↔ b.trips w = true := by
  have old (u : Nat) : ((0x40, u, 0, false) : Nat × Nat × Nat × Bool) ∉ b.raised := fun mem => none _ mem rfl
  rw [tripWings_raised, List.mem_append, or_iff_right (old _), List.mem_append]
  cases w
  · by_cases north : b.trips .north = true <;> simp [north, wingNo]
  · by_cases south : b.trips .south = true <;> simp [south, wingNo]

end Block
end Sys2Proof.Machine

/-! ### O58 -/

namespace Sys2Proof.Machine

theorem tripWings_od (b : Block) (i j : Nat) : b.tripWings.od' i j = b.od' i j := by
  unfold Block.tripWings
  dsimp only
  split <;> split <;> exact Block.od'_congr _ _ rfl _ _

theorem tripWings_power (b : Block) : b.tripWings.power = b.power := by
  unfold Block.tripWings
  dsimp only
  split <;> split <;> rfl

/-- What the thermal states shown leave of the readings that stand before them. -/
theorem tripWings_of_heated {b c : Block} (heated : b.Heated c) (none : b.raised = []) :
    c.tripWings.power.failed = b.power.failed ∧
      (∀ i, i < 18 → c.tripWings.od' 0x2902 (i + 1) = b.od' 0x2902 (i + 1)) ∧
      ∀ w, b.wingEnabled w = true → ((0x40, 0x20 + Block.wingNo w, 0, false) ∈ c.tripWings.raised ↔
        ∃ i, i < 18 ∧ (islandDomain i = Block.wingNo w ∨ islandDomain i = 2) ∧ 110 ≤ c.tripWings.od' 0x2902 (i + 1)) := by
  have clear : ∀ r ∈ c.raised, r.1 ≠ 0x40 := by
    intro r mem kind
    have earlier := (heated.raised r (by rw [kind]; decide)).1 mem
    rw [none] at earlier
    cases earlier
  refine ⟨by rw [tripWings_power, heated.failed], fun i hi => ?_, fun w on => ?_⟩
  · rw [tripWings_od]
    exact heated.od _ _ (by omega) (by simp [Block.heatKeys, eventKeys, writeKeys, readKeys]; omega)
  · have enabled : c.wingEnabled w = true := by
      unfold Block.wingEnabled at on ⊢
      rwa [heated.od _ _ (by decide) (by decide)]
    rw [Block.mem_tripWings_raised _ _ clear]
    unfold Block.trips
    rw [enabled, Bool.true_and, Bool.or_eq_true, decide_eq_true_iff, decide_eq_true_iff,
      Block.le_domainTemp (by decide), Block.le_domainTemp (by decide)]
    simp only [tripWings_od, ← exists_or, ← and_or_left, ← or_and_right]

end Sys2Proof.Machine

namespace Sys2Proof.Machine

section
variable {s : State} (hs : Settled s) (hpowered : s.blk.powered = true)
include hs hpowered

theorem junctionRead_works (temps : List Nat) : Works (.junctionRead temps) s (fun b =>
      (∀ i, i ∈ b.power.failed ↔ i ∈ s.blk.power.failed ∧ (18 ≤ i ∨ temps.length ≤ i)) ∧
      (∀ i, i < 18 → b.od' 0x2902 (i + 1) = temps.getD i (s.blk.od' 0x2902 (i + 1))) ∧
      ∀ w, s.blk.wingEnabled w = true → ((0x40, 0x20 + Block.wingNo w, 0, false) ∈ b.raised ↔
        ∃ i, i < 18 ∧ (islandDomain i = Block.wingNo w ∨ islandDomain i = 2) ∧ 110 ≤ b.od' 0x2902 (i + 1))) := by
  have nothing : s.blk.raised = [] := hs.2.2.1.1
  have exec_eq : exec (.junctionRead temps) s =
      finish s ((List.range 18).foldl (Block.readIsland temps) s.blk).heatShown.tripWings := by
    show finish s (s.blk.junctions temps) = _
    unfold Block.junctions
    rw [hpowered]
    rfl
  obtain ⟨failed, shown, -, wings, raised⟩ := s.blk.readIslands temps (Nat.le_refl 18)
  generalize (List.range 18).foldl (Block.readIsland temps) s.blk = c at *
  obtain ⟨same, temperature, trips⟩ := tripWings_of_heated c.heatShown_heated (raised.trans nothing)
  refine works_of_finish exec_eq ⟨fun i => ?_, fun i hi => ?_, fun w on => trips w ?_⟩
  · rw [same]
    exact failed i
  · rw [temperature i hi]
    exact shown i hi
  · unfold Block.wingEnabled at on ⊢
    rwa [wings]

omit hs in
theorem sensorFail_works {i : Nat} (hi : i < 12) (sound : s.blk.power.failed.contains i = false) :
    Works (.sensorFail i) s (fun b => b.power.failed = s.blk.power.failed ++ [i] ∧
      3 ≤ b.od' 0x2902 (0x21 + islandDomain i) ∧ (0x42, 0x20 + islandDomain i, 0, false) ∈ b.raised) := by
  have domain : islandDomain i = i % 2 := if_pos hi
  let b1 : Block := { s.blk with
    time := max s.blk.time (mapGet s.blk.power.readAt 0 i + 100000)
    power := { s.blk.power with failed := s.blk.power.failed ++ [i] } }
  let b2 := b1.fresh.2.found 0x42 (0x20 + islandDomain i) 0 false
  have exec_eq : exec (.sensorFail i) s = finish s ((b2.showHeat .north).showHeat .south) := by
    show finish s (s.blk.sensorFail i) = _
    unfold Block.sensorFail
    rw [hpowered, sound, domain]
    dsimp only
    rw [if_pos (show i % 2 < 2 by omega)]
    show finish s (((b1.fresh.2.found 0x42 (0x20 + i % 2) 0 false).showHeat .north).showHeat .south) = _
    rw [← domain]
  have severe (c : Block) (failed : c.power.failed = s.blk.power.failed ++ [i]) : c.heatOf (islandDomain i) = 3 :=
    Block.heatOf_of_failed (by rw [failed]; exact List.mem_append_right _ (List.mem_singleton_self i))
  have first := Block.showHeat_heated b2 .north
  have second := Block.showHeat_heated (b2.showHeat .north) .south
  refine works_of_finish exec_eq ⟨(first.trans second).failed, ?_, ((first.trans second).raised _ (show 0x42 ≠ 1 by decide)).2 ?_⟩
  · obtain north | south : i % 2 = 0 ∨ i % 2 = 1 := by omega
    · rw [domain, north]
      refine (?_ : 3 ≤ (b2.showHeat .north).wingHeat .north).trans_eq (Block.showHeat_other _ .north).symm
      rw [Block.showHeat_shows]
      exact Nat.le_trans (severe b2 rfl ▸ by rw [domain, north]; exact Nat.le_refl _) (Nat.le_max_left _ _)
    · rw [domain, south]
      show 3 ≤ Block.wingHeat _ .south
      rw [Block.showHeat_shows]
      exact Nat.le_trans (severe (b2.showHeat .north) first.failed ▸ by rw [domain, south]; exact Nat.le_refl _) (Nat.le_max_left _ _)
  · exact List.mem_append_right _ (List.mem_singleton_self _)

omit hs in
theorem railLow_works : Works .railLow s (fun b => ∃ u, (0x41, u, 0, false) ∈ b.raised) := by
  let n := s.blk.fresh
  let unit := (Config.freeFaultDetail n.1).toNat % 65536
  have exec_eq : exec .railLow s = finish s ((n.2.found 0x41 unit 0 false).powerEvent 3 2 0 0) := by
    show finish s s.blk.railLow = _
    unfold Block.railLow
    rw [hpowered]
    rfl
  exact works_of_finish exec_eq ⟨unit, (Block.powerEvent_noted ..).raised_of_mem
    (List.mem_append_right _ (List.mem_singleton_self _))⟩

end

/-- Settles O58, by one lemma per command. -/
theorem powerAndHeatAreHeld : Obligations.PowerAndHeatAreHeld := by
  unfold Obligations.PowerAndHeatAreHeld
  intro s hs powered
  refine ⟨fun w watts n => ⟨?_, fun fresher => ⟨?_, ?_⟩⟩, ?_, ?_, ?_, ?_, ?_, ?_, ?_, ?_, ?_⟩
  · exact grant_stale hs w watts n
  · exact grant_fresh hs w watts n powered fresher
  · exact revoke_fresh w watts n powered fresher
  · exact hallPassWindow_gives hs powered
  · exact fun w pass current ready => hallReturn_gives hs pass current ready
  · exact fun w q t0 asked => passSilent_works asked
  · exact fun mv => voltageChange_gives hs powered mv
  · exact fun n k => stepRateMeasure_gives hs powered n k
  · exact fun temps k temp => stackTemperatureRead_works powered
  · exact fun temps => junctionRead_works hs powered temps
  · exact fun i hi sound => sensorFail_works powered hi sound
  · exact railLow_works powered

end Sys2Proof.Machine

/-! ### Start-up's own state

Nothing that a step does as it ends, whatever faults it found, touches the fields of start-up. -/

namespace Sys2Proof.Machine
namespace Block

theorem foldl_startUp {α : Type} {f : Block → α → Block} (xs : List α) (b : Block)
    (h : ∀ c x, (f c x).startUp = c.startUp) : (xs.foldl f b).startUp = b.startUp :=
  List.foldlRecOn (motive := fun c => c.startUp = b.startUp) _ _ rfl fun c same x _ => (h c x).trans same

theorem FlowsEnd.startUp {b c : Block} (h : b.FlowsEnd c) : c.startUp = b.startUp := by
  obtain ⟨_, _, _, _, _, _, _, rfl⟩ := h
  rfl

theorem Sends.startUp {b c : Block} (h : b.Sends c) : c.startUp = b.startUp := by
  obtain ⟨⟨_, _, _, rfl⟩, -⟩ := h
  rfl

theorem SentFrom.startUp {b c : Block} (h : b.SentFrom c) : c.startUp = b.startUp := h.sends.startUp

theorem Noted.startUp {b c : Block} (h : b.Noted c) : c.startUp = b.startUp := by
  obtain ⟨_, _, _, _, _, _, _, _, rfl⟩ := h.blk
  rfl

theorem Refetched.startUp {b c : Block} (h : b.Refetched c) : c.startUp = b.startUp := by
  obtain ⟨⟨_, _, _, _, _, _, _, _, rfl⟩, -⟩ := h
  rfl

/-! Ports -/

@[simp] theorem event_startUp (b : Block) (ty payload : Nat) : (b.event ty payload).startUp = b.startUp :=
  (event_noted ..).startUp
@[simp] theorem seryoEvent_startUp (b : Block) (kind peer port fr dest bitmap epoch : Nat) :
    (b.seryoEvent kind peer port fr dest bitmap epoch).startUp = b.startUp := event_startUp ..
@[simp] theorem sendOn_startUp (b : Block) (n cls : Nat) (msg : Bytes) : (b.sendOn n cls msg).startUp = b.startUp :=
  (sendOn_sends ..).startUp
@[simp] theorem launch_startUp (b : Block) (n hdr : Nat) (d : Bytes) : (b.launch n hdr d).startUp = b.startUp :=
  (launch_sentFrom ..).startUp
@[simp] theorem idleFill_startUp (b : Block) (n : Nat) : (b.idleFill n).startUp = b.startUp :=
  (idleOut_sentFrom ..).startUp

@[simp] theorem setPortState_startUp (b : Block) (n dest : Nat) : (b.setPortState n dest).startUp = b.startUp := by
  unfold setPortState
  dsimp only
  split
  · rfl
  · split
    · simp
    · split <;> simp [sendIdle]

@[simp] theorem flap_startUp (b : Block) (n : Nat) : (b.flap n).startUp = b.startUp := by
  unfold flap
  dsimp only
  split <;> rfl

@[simp] theorem refuseMsg_startUp (b : Block) (p : Nat) (s : SentMsg) : (b.refuseMsg p s).startUp = b.startUp := by
  unfold refuseMsg
  split <;> rfl

theorem resendOne_startUp (b : Block) (p : Nat) (s : SentMsg) : (b.resendOne p s).startUp = b.startUp := by
  unfold resendOne
  split
  · simp
  · split <;> simp

@[simp] theorem resend_startUp (b : Block) (lost : Nat → SentMsg → Bool) : (b.resend lost).startUp = b.startUp :=
  foldl_startUp _ _ fun c _ => foldl_startUp _ c fun d s => resendOne_startUp d _ s

@[simp] theorem showPeers_startUp (b : Block) : b.showPeers.startUp = b.startUp := by
  unfold showPeers
  simp only [setOd_startUp]

@[simp] theorem setMismatch_startUp (b : Block) (map epoch : Nat) : (b.setMismatch map epoch).startUp = b.startUp := by
  unfold setMismatch
  split <;> simp

theorem depart_startUp (b : Block) (p : Nat) : (b.depart p).startUp = b.startUp := by
  unfold depart
  split
  · rfl
  · dsimp only
    rw [showPeers_startUp, setMismatch_startUp, event_startUp, count_startUp, count_startUp]

@[simp] theorem routesChanged_startUp (b : Block) (old : Nat) : (b.routesChanged old).startUp = b.startUp := by
  have lost (c : Block) : c.departLost.startUp = c.startUp := foldl_startUp _ c fun d p => depart_startUp d p.number
  have told (c : Block) (x y : Nat) : (c.sendRoutes x y).startUp = c.startUp := foldl_startUp _ c fun d n => sendOn_startUp ..
  unfold routesChanged
  dsimp only
  rw [lost, showPeers_startUp]
  split
  · rfl
  · exact told ..

@[simp] theorem leavePort_startUp (b : Block) (n dest : Nat) : (b.leavePort n dest).startUp = b.startUp := by
  unfold leavePort
  dsimp only
  split
  · split <;> simp
  · simp

@[simp] theorem goodbyePort_startUp (b : Block) (n dest : Nat) : (b.goodbyePort n dest).startUp = b.startUp := by
  unfold goodbyePort
  split <;> simp [sendGoodbye, sendLink]

@[simp] theorem goodbyeAll_startUp (b : Block) : b.goodbyeAll.startUp = b.startUp :=
  foldl_startUp _ b fun c n => by split <;> simp

/-! Units in detention -/

@[simp] theorem setBit_startUp (b : Block) (index sub i : Nat) (v : Bool) : (b.setBit index sub i v).startUp = b.startUp := by
  unfold setBit
  dsimp only
  split <;> simp

@[simp] theorem endGen_startUp (b : Block) (n status : Nat) : (b.endGen n status).startUp = b.startUp :=
  (endGen_flowsEnd ..).startUp
@[simp] theorem endFlow_startUp (b : Block) (id status : Nat) : (b.endFlow id status).startUp = b.startUp :=
  (endFlow_flowsEnd ..).startUp
@[simp] theorem dropPending_startUp (b : Block) (n status : Nat) : (b.dropPending n status).startUp = b.startUp :=
  (dropPending_flowsEnd ..).startUp

@[simp] theorem fenceSu_startUp (b : Block) (su : Nat) : (b.fenceSu su).startUp = b.startUp := by
  have ended (c : Block) : (c.endSuFlows su).startUp = c.startUp :=
    (foldl_startUp _ _ fun d f => endFlow_startUp ..).trans (foldl_startUp _ c fun d n => by simp)
  exact (ended _).trans (setBit_startUp ..)

theorem dropRequest_startUp (b : Block) (r : AgentReq) : (b.dropRequest r).startUp = b.startUp := by
  have replied (c : Block) (n p mtype status txn : Nat) (body : Bytes) :
      (c.reply n p mtype status txn body).startUp = c.startUp := by
    unfold reply
    dsimp only
    split <;> simp
  unfold dropRequest
  split
  · dsimp only
    split <;> simp [poisonOnly]
  · exact (foldl_startUp _ _ fun d x => (runAfter_noted d x).startUp).trans (count_startUp ..)
  · dsimp only
    split <;> split <;> simp [addPoison, replied]

@[simp] theorem dropRequests_startUp (b : Block) (p : AgentReq → Bool) : (b.dropRequests p).startUp = b.startUp :=
  foldl_startUp _ _ dropRequest_startUp

@[simp] theorem fenceAgent_startUp (b : Block) (a : Nat) : (b.fenceAgent a).startUp = b.startUp :=
  (dropRequests_startUp ..).trans (setBit_startUp ..)

theorem evict_startUp (b : Block) (l : Line) : (b.evict l).startUp = b.startUp := by
  have dropped (c : Block) : (c.dropLine l).startUp = c.startUp := by
    unfold dropLine
    dsimp only
    split <;> rfl
  unfold evict
  rw [dropped]
  split
  · exact (sendBack_refetched ..).startUp
  · rfl

@[simp] theorem dropHalf_startUp (b : Block) (south : Bool) : (b.dropHalf south).startUp = b.startUp :=
  foldl_startUp (f := evict) _ b evict_startUp

@[simp] theorem fenceWay_startUp (b : Block) (south : Bool) (way : Nat) : (b.fenceWay south way).startUp = b.startUp :=
  foldl_startUp (f := evict) _ b evict_startUp

@[simp] theorem fenceQueues_startUp (b : Block) (w : Wing) : (b.fenceQueues w).startUp = b.startUp :=
  foldl_startUp _ b fun c f => by
    split
    · simp
    · split <;> simp

@[simp] theorem setEngine_startUp (b : Block) (w : Wing) (e : WingEngine) : (b.setEngine w e).startUp = b.startUp := by
  cases w <;> rfl

@[simp] theorem returnPass_startUp (b : Block) (w : Wing) : (b.returnPass w).startUp = b.startUp := by
  obtain ⟨_, _, same⟩ := returnPass_powers b w
  rw [same]

@[simp] theorem giveToken_startUp (b : Block) (w : Wing) (cause : Nat) : (b.giveToken w cause).startUp = b.startUp := by
  have noted (c : Block) : (c.tokenEvent cause).startUp = c.startUp := (tokenEvent_noted ..).startUp
  have taken (c : Block) : (c.takeEpoch w).startUp = c.startUp := by cases w <;> rfl
  unfold giveToken
  dsimp only
  rw [noted]
  exact (taken _).trans (by simp)

@[simp] theorem fenceWing_startUp (b : Block) (w : Wing) (bridge : Bool) : (b.fenceWing w bridge).startUp = b.startUp := by
  have units (c : Block) (l : List Nat) : (l.foldl (fun b su => if b.suFenced su then b else b.fenceSu su) c).startUp =
      c.startUp := foldl_startUp _ c fun d su => by split <;> simp
  unfold fenceWing
  dsimp only
  split <;> split <;> simp [units]

@[simp] theorem fenceBridge_startUp (b : Block) : b.fenceBridge.startUp = b.startUp := by
  unfold fenceBridge
  dsimp only
  split
  · simp
  · split <;> simp

theorem fenceUnit_startUp (b : Block) (u : Nat) : (b.fenceUnit u).startUp = b.startUp := by
  unfold fenceUnit
  repeat' split
  all_goals simp

/-! A block stop -/

theorem blockStop_startUp (b : Block) : b.blockStop.startUp = b.startUp := by
  have emptied (c : Block) : c.abandon.startUp = c.startUp := foldl_startUp _ c fun d x => setOd_startUp ..
  have dropped (c : Block) : c.dropStagings.startUp = c.startUp := foldl_startUp _ _ fun d x => setOd_startUp ..
  have lost (c : Block) : (c.loseRequests isWriteBack).startUp = c.startUp := count_startUp ..
  unfold blockStop
  split
  · rfl
  · simp [emptied, dropped, lost]

theorem react_startUp (b : Block) (cls unit lvl : Nat) : (b.react cls unit lvl).startUp = b.startUp := by
  unfold react
  repeat' split
  all_goals simp [fenceUnit_startUp, blockStop_startUp]

theorem openRecord_startUp (b : Block) (word : Nat) : (b.openRecord word).startUp = b.startUp := by
  unfold openRecord
  split
  · rfl
  next k _ => exact (setOd_startUp ..).trans (setOd_startUp b 0x2810 k (word + 2 ^ 44))

theorem raiseFault_startUp (b : Block) (cls unit addr detail : Nat) (inj : Bool) :
    (b.raiseFault cls unit addr detail inj).startUp = b.startUp := by
  have numbered (c : Block) (no : Nat) : ({ c with faults := { c.faults with lastNo := no } } : Block).startUp = c.startUp := rfl
  unfold raiseFault
  split
  · rfl
  · dsimp only
    rw [event_startUp, react_startUp]
    split
    · rw [numbered, count_startUp, count_startUp, count_startUp]
    · rw [openRecord_startUp, numbered, count_startUp, count_startUp, count_startUp]

/-- The end of a step leaves start-up's own state. -/
theorem settle_startUp (b : Block) : b.settle.startUp = b.startUp := by
  have raised : (b.raised.foldl (fun (b : Block) e =>
      let n := b.fresh
      n.2.raiseFault e.1 e.2.1 e.2.2.1 (Config.freeFaultDetail n.1).toNat e.2.2.2) { b with raised := [] }).startUp = b.startUp :=
    foldl_startUp _ _ fun c e => raiseFault_startUp c.fresh.2 ..
  have released (c : Block) : c.releaseBack.startUp = c.startUp := by
    unfold releaseBack
    split
    · rfl
    · exact foldl_startUp _ _ fun d r => enqueue_startUp d r
  unfold settle
  exact (idleAll_sentFrom _).startUp.trans ((released _).trans raised)

end Block

/-- What a command that works shows of start-up is what its work left. -/
theorem works_startUp {α : Type} {c : Instr} {s : State} {P : Block → Prop} {f : StartUp → α} {x : α} (h : Works c s P)
    (shown : shows (exec c s) (fun t => f t.blk.startUp) = some x) : ∃ b, f b.startUp = x ∧ P b := by
  obtain ⟨b, ran, holds⟩ := h
  rw [ran] at shown
  have ended : (landed s b.settle).blk.startUp = b.startUp := Block.settle_startUp b
  exact ⟨b, by rw [← ended]; exact Option.some.inj shown, holds⟩

end Sys2Proof.Machine

/-! ### A generation that starts as a hold expires -/

namespace Sys2Proof.Machine

set_option maxRecDepth 100000 in
/-- Refutes O60: a hold expires on the current generation of a stream that has another queued. The held one is cut off
and ends, the queued one starts under the next flow number, and only then are the flows counted as issued before the
hold's end. -/
theorem not_hostLinkKeepsItsEpoch : ¬ Obligations.HostLinkKeepsItsEpoch := by
  intro h
  let generation : Flow := { Flow.blank 0 0 0 0 0 0 0 0 none with stream := some 0, held := true }
  let slot : StreamSlot := { Block.blankSlot 0 with gen := some 0, pendingGen := some 0 }
  let s : State := { State.reset with blk := { Block.reset with
    od := [(odKey 0x1000 9, 1), (odKey 0x2202 2, 2)]
    flows := [generation]
    nextFlow := 1
    streams := { Block.reset.streams with slots := [slot] } } }
  obtain ⟨-, -, -, -, expires, -⟩ := h s (by decide)
  obtain ⟨b, started, holds⟩ := works_startUp (f := StartUp.expiredBelow) (x := 2) (expires (by decide)) (by decide)
  obtain ⟨-, -, -, before, -⟩ := holds rfl
  rw [started] at before
  exact absurd before (by decide)

end Sys2Proof.Machine

/-! ### A count of nothing

U64 counters wrap at 2^64, so that a counter which a settled state holds at 2^64 or above, as no rule forbids, changes
even where nothing is counted. A command that begins counts its acquire, or nothing, in OD 0x2506.01 (R402, R413). -/

namespace Sys2Proof.Machine

/-- READY with North alone enabled, the count of acquires at 2^64, and one command that waits for its stream unit. -/
def wrappedState (f : Flow) : State :=
  { State.reset with blk := { Block.reset with
    od := [(odKey 0x1000 9, 1), (odKey 0x2000 4, 2), (odKey 0x2506 1, 18446744073709551616)]
    flows := [f]
    nextFlow := 1 } }

/-- That command, under an entry. -/
def waitingFlow (entry : Nat) : Flow := Flow.blank 0 0 0 0 entry 0 0 0 none

theorem wrappedState_acquires (f : Flow) : (wrappedState f).blk.od' 0x2506 1 ≠ 0 := by
  have found : (wrappedState f).blk.od' 0x2506 1 = Option.getD (some 18446744073709551616) 0 := rfl
  rw [found, Option.getD_some]
  omega

/-- A command that begins and acquires nothing wraps the count. -/
theorem not_gives_of_wrapped {c : Instr} {f : Flow} {P : State → Prop} {ks : List (Nat × Nat)}
    (hc : shows (exec c (wrappedState f)) (fun t => t.blk.od' 0x2506 1) = some 0) (hP : ∀ t, P t → OdOnly (wrappedState f) t ks)
    (hks : (0x2506, 1) ∉ ks) : ¬ Gives c (wrappedState f) P := by
  intro gives
  obtain ⟨t, nothing, holds⟩ := gives_shows gives hc
  have stands := hP t holds 0x2506 1 (by decide) hks (by decide)
  exact wrappedState_acquires f (stands.symm.trans nothing)

set_option maxRecDepth 100000 in
/-- Refutes O47: a NOP begins, which wraps the count of acquires. -/
theorem not_fencesAndFlushes : ¬ Obligations.FencesAndFlushes := by
  intro h
  let f := waitingFlow opNop
  let running : Flow := { f with stage := .running }
  let s := wrappedState f
  have begins : Begun s (isOp opNop) 0 (s.blk.begun f) running := ⟨f, by decide, rfl, by decide, by decide⟩
  obtain ⟨nop, -⟩ := h s 0 (s.blk.begun f) running (by decide)
  exact not_gives_of_wrapped (by decide) (fun t holds => holds.2.2) (by decide) (nop begins (by decide)).2

set_option maxRecDepth 100000 in
/-- Refutes O46: a WAIT whose comparison holds begins, which wraps the count of acquires. -/
theorem not_bellsAndSignals : ¬ Obligations.BellsAndSignals := by
  intro h
  let f := waitingFlow opWait
  let running : Flow := { f with stage := .running }
  let s := wrappedState f
  have begins : Begun s (isOp opWait) 0 (s.blk.begun f) running := ⟨f, by decide, rfl, by decide, by decide⟩
  obtain ⟨-, -, wait⟩ := h s 0 (s.blk.begun f) running (by decide) (by decide)
  obtain ⟨holds, -⟩ := wait begins (by decide)
  exact not_gives_of_wrapped (by decide) (fun t holds => holds.2.2) (by decide) (holds (by decide))

set_option maxRecDepth 100000 in
/-- Refutes O42: a WRITE of a stream begins, which wraps the count of acquires. -/
theorem not_streamActions : ¬ Obligations.StreamActions := by
  intro h
  let f := waitingFlow opArm
  let running : Flow := { f with stage := .running }
  let s := wrappedState f
  have begins : Begun s (fun g => isOp opArm g && isArm 0 g) 0 (s.blk.begun f) running :=
    ⟨f, by decide, rfl, by decide, by decide⟩
  obtain ⟨write, -⟩ := h s 0 (s.blk.begun f) running (by decide) (by decide)
  exact not_gives_of_wrapped (by decide) (fun t holds => by obtain ⟨-, -, -, -, -, -, only⟩ := holds; exact only) (by decide)
    (write begins)

end Sys2Proof.Machine

/-! ### The commit point of a set (R463, R466, R468, R473) -/

namespace Sys2Proof.Machine

/-- The key is a member of a commit set. -/
def IsMember (key : Nat) : Prop := ∃ r, odFind key = some r ∧ r.acc = .rwc

/-- Entries that a commit point changes besides the members. -/
def commitKeys : List (Nat × Nat) := (0x2301, 2) :: (0x2301, 3) :: (0x2504, 0x0A) :: (0x2600, 5) :: (0x2600, 6) :: (0x2202, 5) ::
  (0x2202, 6) :: (0x2800, 3) :: (0x2800, 4) :: (0x2702, 2) :: (0x2704, 1) :: (readKeys ++ Block.refetchKeys)

/-- Those, and the entries of every step and of a commit's result. -/
def ownKeys : List (Nat × Nat) := (0x1F00, 2) :: (0x1F00, 3) :: (0x2702, 3) :: (0x2202, 0x0D) :: (0x1000, 6) :: (0x2700, 1) ::
    (commitKeys ++ (List.range 11).map (fun n => (0x1F00, 0x20 + n)))

theorem mem_ownKeys_of_commitKeys {e : Nat × Nat} (h : e ∈ commitKeys) : e ∈ ownKeys := by
  simp only [ownKeys, List.mem_cons, List.mem_append]
  tauto

theorem mem_ownKeys_of_set {n : Nat} (hn : n ≤ 10) : (0x1F00, 0x20 + n) ∈ ownKeys := by
  simp only [ownKeys, List.mem_cons, List.mem_append, List.mem_map, List.mem_range]
  exact .inr (.inr (.inr (.inr (.inr (.inr (.inr ⟨n, by omega, rfl⟩))))))

set_option maxRecDepth 10000 in
theorem ownKeys_read_only : ∀ e ∈ ownKeys,
    (odFind (odKey e.1 e.2)).all (fun r => r.acc != .rwc) = true := by decide

theorem commitKeys_short : ∀ e ∈ commitKeys, e.2 < 256 ∧ odKey e.1 e.2 ≠ odKey 0x1000 6 ∧ odKey e.1 e.2 ≠ odKey 0x2700 1 := by decide

/-- No entry that a commit point writes of its own is a member. -/
theorem IsMember.ne {key i j : Nat} (h : IsMember key) (hij : (i, j) ∈ ownKeys) : key ≠ odKey i j := by
  rintro rfl
  obtain ⟨r, row, member⟩ := h
  have shut := ownKeys_read_only _ hij
  rw [row, Option.all_some, member] at shut
  exact absurd shut (by decide)

namespace Block

/-- c is b but for the entries listed, with the same stagings. -/
structure SetsKept (ks : List (Nat × Nat)) (b c : Block) : Prop where
  staging : c.dict.staging = b.dict.staging
  od : ∀ i j, j < 256 → (i, j) ∉ ks → c.od' i j = b.od' i j

namespace SetsKept
variable {ks : List (Nat × Nat)} {b c d : Block}

theorem refl (b : Block) : SetsKept ks b b := ⟨rfl, fun _ _ _ _ => rfl⟩

theorem trans (h : SetsKept ks b c) (h' : SetsKept ks c d) : SetsKept ks b d :=
  ⟨h'.staging.trans h.staging, fun i j hj out => (h'.od i j hj out).trans (h.od i j hj out)⟩

/-- A change that touches neither entries nor stagings. -/
theorem of_eq (hd : c.dict = b.dict) (ho : c.od = b.od) : SetsKept ks b c :=
  ⟨by rw [hd], fun i j _ _ => od'_congr _ _ ho i j⟩

theorem foldl {α : Type} {f : Block → α → Block} (xs : List α) (b : Block) (h : ∀ c x, SetsKept ks c (f c x)) :
    SetsKept ks b (xs.foldl f b) :=
  List.foldlRecOn (motive := SetsKept ks b) _ _ (refl b) fun c kept x _ => kept.trans (h c x)

theorem staging? (h : SetsKept ks b c) (n : Nat) : c.staging? n = b.staging? n := by
  unfold Block.staging?
  rw [h.staging]

end SetsKept

theorem setOd_setsKept {ks : List (Nat × Nat)} (b : Block) {i j : Nat} (v : Nat) (h : (i, j) ∈ ks)
    (short : j < 256 ∧ odKey i j ≠ odKey 0x1000 6 ∧ odKey i j ≠ odKey 0x2700 1) : SetsKept ks b (b.setOd i j v) :=
  ⟨rfl, fun _ _ hj out => setOd_od'_of_ne _ _ hj short.1 (fun same => out (same ▸ h)) short.2.1 short.2.2⟩

/-- An entry of the commit point's own set. -/
theorem setOd_committed (b : Block) {i j : Nat} (v : Nat) (h : (i, j) ∈ commitKeys) : SetsKept commitKeys b (b.setOd i j v) :=
  setOd_setsKept b v h (commitKeys_short _ h)

theorem ReadBy.setsKept {b c : Block} (h : b.ReadBy c) : SetsKept commitKeys b c := by
  obtain ⟨⟨_, _, _, _, rfl⟩, keep⟩ := h
  exact ⟨rfl, fun i j hj out => keep i j hj fun mem => out (by simp [commitKeys, mem])⟩

theorem Refetched.setsKept {b c : Block} (h : b.Refetched c) : SetsKept commitKeys b c := by
  obtain ⟨⟨_, _, _, _, _, _, _, _, rfl⟩, keep⟩ := h
  exact ⟨rfl, fun i j hj out => keep i j hj fun mem => out (by simp [commitKeys, mem])⟩

theorem Sends.setsKept {b c : Block} (h : b.Sends c) : SetsKept commitKeys b c := by
  obtain ⟨⟨_, _, _, rfl⟩, keep⟩ := h
  exact ⟨rfl, fun i j hj out => keep i j hj fun same => out (by simp [commitKeys, same])⟩

/-! What a set's commit does beyond its members' values -/

theorem readOwn_setsKept (m : Memory) (b : Block) (a len : Nat) : SetsKept commitKeys b (readOwn m b a len).2.2 := by
  by_cases goes : (readOwn m b a len).2.2.blocked = false
  · exact (readOwn_readBy m goes).setsKept
  · unfold readOwn
    split
    · exact .refl b
    · unfold tierRead
      split_ifs
      · exact .refl b
      · exact .of_eq rfl rfl
      · exact ((ReadFrom.readBy ⟨_, _, rfl⟩).trans (count_readBy _ 1 (by decide))).setsKept
      · exact .of_eq rfl rfl
      · exact ((reported_readFrom b a len).readBy.trans ((foldl_uncorrectable_readBy _ _).trans
          (charge_readFrom _ _ _).readBy)).setsKept

theorem readSatchels_setsKept (m : Memory) (b : Block) (base count : Nat) :
    SetsKept commitKeys b (readSatchels m b base count).2.2 := by
  unfold readSatchels
  refine List.foldlRecOn (motive := fun (x : List (Nat × Nat) × Bool × Block) => SetsKept commitKeys b x.2.2) _ _ (.refl b)
    fun x kept q _ => ?_
  dsimp only
  split
  · exact kept.trans (readOwn_setsKept ..)
  · split <;> exact kept.trans (readOwn_setsKept ..)

theorem countBoard_setsKept (b : Block) : SetsKept commitKeys b b.countBoard := setOd_committed b _ (by decide)

theorem evict_setsKept (b : Block) (l : Line) : SetsKept commitKeys b (b.evict l) := by
  have dropped (c : Block) : SetsKept commitKeys c (c.dropLine l) := by
    unfold dropLine
    dsimp only
    split
    · exact SetsKept.trans (c := c.setLines (c.cache.lines.filter (fun x => !x.same l))) (.of_eq rfl rfl) (countBoard_setsKept _)
    · exact .of_eq rfl rfl
  unfold evict
  refine SetsKept.trans ?_ (dropped _)
  split
  · exact (sendBack_refetched ..).setsKept
  · exact .refl b

/-- A commit of the blackboard's ways changes no member but OD 0x2301.01, which takes them. -/
theorem boardCommit_setsKept (b : Block) (ways : Nat) :
    SetsKept ((0x2301, 1) :: commitKeys) b (b.boardCommit ways) ∧ (b.boardCommit ways).od' 0x2301 1 = ways := by
  have wider {c d : Block} (h : SetsKept commitKeys c d) : SetsKept ((0x2301, 1) :: commitKeys) c d :=
    ⟨h.staging, fun i j hj out => h.od i j hj fun mem => out (List.mem_cons_of_mem _ mem)⟩
  have evicted (c : Block) (l : Line) : SetsKept commitKeys c ((if l.dirty then c.count 0x2504 0x0A 1 else c).evict l) := by
    refine SetsKept.trans ?_ (evict_setsKept ..)
    split
    · exact setOd_committed c _ (by decide)
    · exact .refl c
  have shown (c : Block) : SetsKept commitKeys (c.setOd 0x2301 1 ways) ((c.setOd 0x2301 1 ways).countBoard.count32 0x2301 2 1) :=
    (countBoard_setsKept _).trans (setOd_committed _ _ (by decide))
  have released (c : Block) : SetsKept ((0x2301, 1) :: commitKeys) c (c.setOd 0x2301 1 ways) :=
    setOd_setsKept c _ (by decide) (by decide)
  unfold boardCommit
  dsimp only
  generalize begun : List.foldl _ b _ = c
  generalize left : List.foldl release c _ = d
  have kept : SetsKept ((0x2301, 1) :: commitKeys) b d :=
    wider (((begun ▸ SetsKept.foldl _ b evicted)).trans (left ▸ SetsKept.foldl (f := release) _ c evict_setsKept))
  generalize again : ({ d.setLines _ with cache := _ } : Block) = e
  have same : SetsKept ((0x2301, 1) :: commitKeys) d e := again ▸ .of_eq rfl rfl
  refine ⟨kept.trans (same.trans ((released e).trans (wider (shown e)))), ?_⟩
  rw [(shown e).od _ _ (by decide) (by decide), setOd_self]

theorem renewDigest_setsKept (b : Block) : SetsKept commitKeys b b.renewDigest := by
  have beacons (c : Block) : SetsKept commitKeys c c.sendBeacons :=
    SetsKept.foldl _ c fun d n => (sendOn_sends d n 0 _).setsKept
  have wide (v : Nat) : SetsKept commitKeys b (b.setWide 3 0x2702 2 v) := by
    unfold setWide
    split
    · exact .refl b
    · let c : Block := { b with dict := { b.dict with wideSeq := mapSet b.dict.wideSeq 0 3 (add64 (mapGet b.dict.wideSeq 0 3) 2) } }
      have moved : SetsKept commitKeys b c := ⟨rfl, fun _ _ _ _ => rfl⟩
      exact moved.trans (setOd_committed (i := 0x2702) (j := 2) c v (by decide))
  unfold renewDigest
  dsimp only
  split
  · exact .refl b
  · exact (wide _).trans (beacons _)

end Block
end Sys2Proof.Machine

namespace Sys2Proof.Machine
namespace Block

theorem odKey_parts (key : Nat) : odKey (key / 256) (key % 256) = key := by
  unfold odKey
  omega

/-- Members staged one after the other: each holds its value at the end, and no other entry changes. -/
theorem foldl_staged (copy : List (Nat × Nat)) (b : Block) (once : (copy.map (·.1)).Nodup) (members : ∀ e ∈ copy, IsMember e.1) :
    (∃ od, copy.foldl (fun b e => b.setOd (e.1 / 256) (e.1 % 256) e.2) b = { b with od := od }) ∧
      (∀ e ∈ copy, (copy.foldl (fun b e => b.setOd (e.1 / 256) (e.1 % 256) e.2) b).od' (e.1 / 256) (e.1 % 256) = e.2) ∧
      ∀ i j, odKey i j ∉ copy.map (·.1) →
        (copy.foldl (fun b e => b.setOd (e.1 / 256) (e.1 % 256) e.2) b).od' i j = b.od' i j := by
  induction copy generalizing b with
  | nil => exact ⟨⟨_, rfl⟩, by simp, fun _ _ _ => rfl⟩
  | cons e copy ih =>
    obtain ⟨fresh, once⟩ := List.nodup_cons.1 once
    have member := members e (List.mem_cons_self ..)
    have set (i j : Nat) (other : odKey i j ≠ e.1) : (b.setOd (e.1 / 256) (e.1 % 256) e.2).od' i j = b.od' i j :=
      setOd_other b _ _ _ i j (by rwa [odKey_parts]) (by rw [odKey_parts]; exact member.ne (by decide))
        (by rw [odKey_parts]; exact member.ne (by decide))
    obtain ⟨⟨od, form⟩, values, others⟩ := ih (b.setOd (e.1 / 256) (e.1 % 256) e.2) once
      (fun e' he' => members e' (List.mem_cons_of_mem _ he'))
    refine ⟨⟨od, form⟩, fun e' he' => ?_, fun i j out => ?_⟩
    · obtain rfl | later := List.mem_cons.1 he'
      · exact (others _ _ (by rwa [odKey_parts])).trans (setOd_self ..)
      · exact values e' later
    · rw [List.map_cons, List.mem_cons, not_or] at out
      exact (others i j out.2).trans (set i j out.1)

/-- Set 2 has one member. -/
theorem boardMember {key : Nat} (set : odSet key = 2) (member : IsMember key) : key = odKey 0x2301 1 := by
  obtain ⟨r, row, acc⟩ := member
  have index : key / 256 = 0x2301 := by
    unfold odSet at set
    split at set <;> omega
  unfold odFind at row
  have found := List.find?_some row
  have rows : r ∈ odRows.filter (fun r => r.index == 0x2301) := by
    refine List.mem_filter.2 ⟨List.mem_of_find?_eq_some row, ?_⟩
    rw [index] at found
    simp only [Bool.and_eq_true] at found
    exact found.1.1
  have only : odRows.filter (fun r => r.index == 0x2301) = [⟨0x2301, 1, 1, .u8, .rwc, 0, 0, 12⟩, roRow 0x2301 2 4 .u32] := by decide
  rw [only] at rows
  obtain rfl | rfl : r = _ ∨ r = _ := by simpa using rows
  · simp only [Bool.and_eq_true, decide_eq_true_eq] at found
    unfold odKey
    omega
  · cases acc

/-- Beyond its members' values the commit of another set changes no member. -/
theorem applySet_setsKept (m : Memory) {b : Block} {x : Staging} (h : x.set ≠ 2) : SetsKept commitKeys b (applySet m b x) := by
  unfold applySet
  split
  next set => exact absurd set h
  next =>
    dsimp only
    generalize read : readSatchels m b (b.od' 0x2600 1) (b.od' 0x2600 2) = r
    have kept : SetsKept commitKeys b r.2.2 := read ▸ readSatchels_setsKept ..
    let c : Block := { r.2.2 with streams := { r.2.2.streams with queues := r.1.map (fun q => newQueue q.1 q.2) } }
    have moved : SetsKept commitKeys r.2.2 c := .of_eq rfl rfl
    exact kept.trans (moved.trans ((setOd_committed (i := 0x2600) (j := 5) c _ (by decide)).trans
      (setOd_committed (i := 0x2600) (j := 6) _ _ (by decide))))
  next =>
    have moved : SetsKept commitKeys b { b with orphanNext := 0 } := .of_eq rfl rfl
    exact moved.trans ((setOd_committed (i := 0x2202) (j := 5) _ _ (by decide)).trans
      (setOd_committed (i := 0x2202) (j := 6) _ _ (by decide)))
  next =>
    dsimp only
    exact ((setOd_committed (i := 0x2800) (j := 3) b 0 (by decide)).trans
      (setOd_committed (i := 0x2800) (j := 4) _ 0 (by decide))).trans (.of_eq rfl rfl)
  next => exact .refl b

section
variable {b : Block} {x : Staging} (once : (x.copy.map (·.1)).Nodup)
include once

theorem staged_of_mem {e : Nat × Nat} (he : e ∈ x.copy) {i j : Nat} (hkey : e.1 = odKey i j) : b.staged x i j = e.2 := by
  unfold staged
  cases found : x.copy.find? (fun e => e.1 == odKey i j) with
  | none => exact absurd (beq_iff_eq.2 hkey) (List.find?_eq_none.1 found e he)
  | some e' =>
    have hit := List.find?_some found
    have same : e'.1 = e.1 := (beq_iff_eq.1 hit).trans hkey.symm
    rw [List.inj_on_of_nodup_map once (List.mem_of_find?_eq_some found) he same]
    rfl

variable (members : ∀ e ∈ x.copy, odSet e.1 = x.set ∧ IsMember e.1)
include members

/-- The members' values taken, and what the set's commit does beyond them. -/
theorem applySet_takeStaged (m : Memory) :
    (∀ e ∈ x.copy, (applySet m (b.takeStaged x) x).od' (e.1 / 256) (e.1 % 256) = e.2) ∧
      ∀ i j, j < 256 → (i, j) ∉ commitKeys → ¬ IsMember (odKey i j) → (applySet m (b.takeStaged x) x).od' i j = b.od' i j := by
  by_cases two : x.set = 2
  · have form : applySet m (b.takeStaged x) x = b.boardCommit (b.staged x 0x2301 1) := by
      unfold applySet takeStaged
      rw [two]
      rfl
    obtain ⟨kept, ways⟩ := b.boardCommit_setsKept (b.staged x 0x2301 1)
    rw [form]
    refine ⟨fun e he => ?_, fun i j hj out other => kept.od i j hj ?_⟩
    · obtain ⟨set, member⟩ := members e he
      have key : e.1 = odKey 0x2301 1 := boardMember (set.trans two) member
      rw [key]
      exact ways.trans (staged_of_mem once he key)
    · rw [List.mem_cons, not_or]
      refine ⟨?_, out⟩
      rintro ⟨rfl, rfl⟩
      exact other ⟨⟨0x2301, 1, 1, .u8, .rwc, 0, 0, 12⟩, by decide, rfl⟩
  · have form : b.takeStaged x = x.copy.foldl (fun b e => b.setOd (e.1 / 256) (e.1 % 256) e.2) b :=
      if_neg (by simpa using two)
    obtain ⟨-, values, others⟩ := foldl_staged x.copy b once fun e he => (members e he).2
    rw [← form] at values others
    have kept : SetsKept commitKeys (b.takeStaged x) (applySet m (b.takeStaged x) x) :=
      applySet_setsKept m two
    refine ⟨fun e he => ?_, fun i j hj out other => ?_⟩
    · have away : (e.1 / 256, e.1 % 256) ∉ commitKeys := fun mem =>
        (members e he).2.ne (mem_ownKeys_of_commitKeys mem) (odKey_parts e.1).symm
      exact (kept.od _ _ (Nat.mod_lt _ (by decide)) away).trans (values e he)
    · refine (kept.od i j hj out).trans (others i j fun mem => other ?_)
      obtain ⟨e, he, key⟩ := List.mem_map.1 mem
      rw [← key]
      exact (members e he).2

/-- What a commit point shows: the set IDLE, its members at their values, both counts moved on, and the result. -/
structure Commits (b c : Block) (x : Staging) : Prop where
  idle : c.staging? x.set = none
  values : ∀ e ∈ x.copy, c.od' (e.1 / 256) (e.1 % 256) = e.2
  commits : c.od' 0x1F00 3 = add64 (b.od' 0x1F00 3) 1
  epoch : c.od' 0x2702 3 = add64 (b.od' 0x2702 3) 1
  result : c.od' 0x1F00 2 = x.set * 2 ^ 16

/-- The set IDLE again, the commit counted and told. -/
def endCommit (b : Block) (n : Nat) : Block :=
  (((b.dropStaging n).count 0x1F00 3 1).count 0x2702 3 1).commitResult accOk n 0

omit once members in
theorem endCommit_od' {n : Nat} (hn : n ≤ 10) {i j : Nat} (hj : j < 256)
    (out : (i, j) ∉ [(0x1F00, 0x20 + n), (0x1F00, 3), (0x2702, 3), (0x1F00, 2)]) : (b.endCommit n).od' i j = b.od' i j := by
  simp only [List.mem_cons, List.not_mem_nil, or_false, not_or] at out
  obtain ⟨set, commits, epoch, result⟩ := out
  unfold endCommit
  rw [commitResult_od'_of_ne _ _ _ _ hj result, count_od'_of_ne _ _ hj (by decide) epoch (by decide) (by decide),
    count_od'_of_ne _ _ hj (by decide) commits (by decide) (by decide), dropStaging_od'_of_ne hn _ hj set]

omit once members in
theorem endCommit_shows {n : Nat} (hn : n ≤ 10) : (b.endCommit n).staging? n = none ∧
    (b.endCommit n).od' 0x1F00 3 = add64 (b.od' 0x1F00 3) 1 ∧ (b.endCommit n).od' 0x2702 3 = add64 (b.od' 0x2702 3) 1 ∧
    (b.endCommit n).od' 0x1F00 2 = n * 2 ^ 16 := by
  unfold endCommit
  refine ⟨?_, ?_, ?_, commitResult_accOk ..⟩
  · rw [commitResult_staging?]
    exact dropStaging_staging? b n
  · rw [commitResult_od'_of_ne _ _ _ _ (by decide) (by decide),
      count_od'_of_ne _ _ (by decide) (by decide) (by decide) (by decide) (by decide), count_self ..,
      dropStaging_od'_of_ne hn _ (by decide) (by simp; omega)]
  · rw [commitResult_od'_of_ne _ _ _ _ (by decide) (by decide), count_self ..,
      count_od'_of_ne _ _ (by decide) (by decide) (by decide) (by decide) (by decide),
      dropStaging_od'_of_ne hn _ (by decide) (by simp)]

theorem commitNow_commits (m : Memory) (hn : x.set ≤ 10) : b.Commits (commitNow m b x) x := by
  have left : (b.leaveRing x).od = b.od := by
    unfold leaveRing
    split <;> rfl
  have form : commitNow m b x =
      let c := (applySet m ((b.leaveRing x).takeStaged x) x).endCommit x.set
      if x.set == 1 || x.set == 7 then c.renewDigest else c := rfl
  obtain ⟨values, others⟩ := applySet_takeStaged (b := b.leaveRing x) once members m
  generalize applySet m ((b.leaveRing x).takeStaged x) x = c at form values others
  obtain ⟨idle, commits, epoch, result⟩ := endCommit_shows (b := c) hn
  have kept : SetsKept commitKeys (c.endCommit x.set) (commitNow m b x) := by
    rw [form]
    dsimp only
    split
    · exact renewDigest_setsKept _
    · exact .refl _
  have same (i j : Nat) (hj : j < 256) (out : (i, j) ∉ commitKeys) (other : ¬ IsMember (odKey i j)) : c.od' i j = b.od' i j :=
    (others i j hj out other).trans (od'_congr _ _ left i j)
  refine ⟨(kept.staging? _).trans idle, fun e he => ?_, ?_, ?_, ?_⟩
  · obtain ⟨-, member⟩ := members e he
    have away {i j : Nat} (hij : (i, j) ∈ ownKeys) : (e.1 / 256, e.1 % 256) ≠ (i, j) := fun eq => by
      obtain ⟨rfl, rfl⟩ := Prod.mk.inj eq
      exact member.ne hij (odKey_parts e.1).symm
    have short : e.1 % 256 < 256 := Nat.mod_lt _ (by decide)
    rw [kept.od _ _ short fun mem => away (mem_ownKeys_of_commitKeys mem) rfl, endCommit_od' hn short]
    · exact values e he
    · simp only [List.mem_cons, List.not_mem_nil, or_false, not_or]
      exact ⟨away (mem_ownKeys_of_set hn), away (by decide), away (by decide), away (by decide)⟩
  · rw [kept.od _ _ (by decide) (by decide), commits, same _ _ (by decide) (by decide) fun member => member.ne (by decide) rfl]
  · rw [kept.od _ _ (by decide) (by decide), epoch, same _ _ (by decide) (by decide) fun member => member.ne (by decide) rfl]
  · rw [kept.od _ _ (by decide) (by decide), result]

end

end Block
end Sys2Proof.Machine

namespace Sys2Proof.Machine
namespace Block

/-- c is b with other entries and another state of the dictionary's accesses. -/
def Entries (b c : Block) : Prop := ∃ od dict, c = { b with od := od, dict := dict }

theorem Entries.trans {b c d : Block} (h : b.Entries c) (h' : c.Entries d) : b.Entries d := by
  obtain ⟨_, _, rfl⟩ := h
  obtain ⟨_, _, rfl⟩ := h'
  exact ⟨_, _, rfl⟩

theorem setOd_entries (b : Block) (i j v : Nat) : b.Entries (b.setOd i j v) := ⟨_, _, rfl⟩
theorem dropStaging_entries (b : Block) (n : Nat) : b.Entries (b.dropStaging n) :=
  Entries.trans (c := b.withoutStaging n) ⟨_, _, rfl⟩ (setOd_entries ..)
theorem putStaging_entries (b : Block) (x : Staging) : b.Entries (b.putStaging x) :=
  Entries.trans (c := b.withStaging x) ⟨_, _, rfl⟩ (setOd_entries ..)

theorem endCommit_entries (b : Block) (n : Nat) : b.Entries (b.endCommit n) :=
  (((dropStaging_entries b n).trans (setOd_entries ..)).trans (setOd_entries ..)).trans (setOd_entries ..)

theorem refuseCommit_entries (b : Block) (x : Staging) (k : Nat) : b.Entries (b.refuseCommit x k) :=
  ((putStaging_entries b _).trans (setOd_entries ..)).trans (setOd_entries ..)

/-- The checks of a set count at most what they read. -/
theorem commitFault_setsKept (m : Memory) (b : Block) (x : Staging) : SetsKept commitKeys b (commitFault m b x).2 := by
  unfold commitFault
  dsimp only
  split <;> try exact .refl b
  next => exact readSatchels_setsKept ..
  next => split <;> exact .refl b

/-- A commit that reaches no unit but the dictionary. -/
theorem commitNow_form (m : Memory) (b : Block) (x : Staging) (h : x.set ∈ [3, 4, 5, 8, 9, 10]) :
    ∃ od dict next queue faults, commitNow m b x = { b with
      od := od, dict := dict, orphanNext := next, agents := { b.agents with queue := queue }, faults := faults } := by
  have staged (c : Block) : ∃ od, c.takeStaged x = { c with od := od } := by
    unfold takeStaged
    split
    · exact ⟨_, rfl⟩
    · exact List.foldlRecOn (motive := fun d : Block => ∃ od, d = { c with od := od }) _ _ ⟨_, rfl⟩ fun d form e _ => by
        obtain ⟨_, rfl⟩ := form
        exact ⟨_, rfl⟩
  have left : ∃ queue, b.leaveRing x = { b with agents := { b.agents with queue := queue } } := by
    unfold leaveRing
    split <;> exact ⟨_, rfl⟩
  have applied (c : Block) : ∃ od next faults, applySet m c x = { c with od := od, orphanNext := next, faults := faults } := by
    unfold applySet
    split
    next two => rw [two] at h; exact absurd h (by decide)
    next six => rw [six] at h; exact absurd h (by decide)
    · exact ⟨_, _, _, rfl⟩
    · exact ⟨_, _, _, rfl⟩
    · exact ⟨_, _, _, rfl⟩
  have quiet : (x.set == 1 || x.set == 7) = false := by
    simp only [List.mem_cons, List.not_mem_nil, or_false] at h
    obtain set | set | set | set | set | set := h <;> rw [set] <;> rfl
  obtain ⟨queue, first⟩ := left
  obtain ⟨od1, second⟩ := staged (b.leaveRing x)
  obtain ⟨od2, next, faults, third⟩ := applied ((b.leaveRing x).takeStaged x)
  obtain ⟨od3, dict, fourth⟩   := endCommit_entries (applySet m ((b.leaveRing x).takeStaged x) x) x.set
  have form : commitNow m b x = (applySet m ((b.leaveRing x).takeStaged x) x).endCommit x.set := by
    show (if x.set == 1 || x.set == 7 then _ else _) = _
    rw [quiet]
    rfl
  rw [form, fourth, third, second, first]
  exact ⟨_, _, _, _, _, rfl⟩

section
variable {b : Block} {x : Staging} {n : Nat} (hx : b.staging? n = some x) (set : x.set = n) (hcommit : x.committing = true)
  (state : b.engineState = 1 ∨ b.engineState = 2)
include hx hcommit state

/-- The commit point of a COMMITTING set. -/
theorem commitPoint_runs (m : Memory) (load : n = 2 → b.loadUnderWay = false) : commitPoint m b n =
    match (commitFault m b x).1 with
    | some member => (commitFault m b x).2.refuseCommit x member
    | none => commitNow m (commitFault m b x).2 x := by
  have runs : (!b.ready && b.engineState != 1) = false := by
    unfold ready
    obtain h | h := state <;> rw [h] <;> rfl
  have loaded : (!x.committing || (n == 2 && b.loadUnderWay)) = false := by
    rw [hcommit]
    by_cases two : n = 2
    · rw [load two, Bool.and_false]
      rfl
    · rw [beq_eq_false_iff_ne.2 two]
      rfl
  unfold commitPoint
  rw [hx]
  dsimp only
  refine (if_neg (by rw [runs]; decide)).trans ((if_neg (by rw [loaded]; decide)).trans ?_)
  generalize commitFault m b x = r
  obtain ⟨_ | k, c⟩ := r <;> rfl

end

/-- A refused commit: STAGING again, with its result, and counted. -/
theorem refuseCommit_od' {b : Block} {x : Staging} (hn : x.set ≤ 10) (k : Nat) {i j : Nat} (hj : j < 256)
    (out : (i, j) ∉ [(0x1F00, 0x20 + x.set), (0x1F00, 2), (0x1F00, 4)]) : (b.refuseCommit x k).od' i j = b.od' i j := by
  simp only [List.mem_cons, List.not_mem_nil, or_false, not_or] at out
  obtain ⟨state, result, refused⟩ := out
  unfold refuseCommit
  rw [commitResult_od'_of_ne _ _ _ _ hj result, count_od'_of_ne _ _ hj (by decide) refused (by decide) (by decide),
    putStaging_od'_of_ne hn b { x with committing := false } rfl hj state]

theorem refuseCommit_shows {b : Block} {x : Staging} (hn : x.set ≤ 10) (k : Nat) :
    (b.refuseCommit x k).staging? x.set = some { x with committing := false } ∧
      (b.refuseCommit x k).od' 0x1F00 2 = pack [(0, 0x0808), (16, x.set), (24, k)] ∧
      (b.refuseCommit x k).od' 0x1F00 4 = add64 (b.od' 0x1F00 4) 1 := by
  unfold refuseCommit
  refine ⟨?_, setOd_self .., ?_⟩
  · rw [commitResult_staging?]
    exact putStaging_staging? b { x with committing := false }
  · rw [commitResult_od'_of_ne _ _ _ _ (by decide) (by decide), count_self, putStaging_od'_of_ne hn b { x with committing := false } rfl (by decide)]
    simp
    omega

end Block

section
variable {s : State} {n : Nat} {x : Staging} (hs : Settled s) (hpos : 1 ≤ n) (hn : n ≤ 10) (hx : s.blk.staging? n = some x)
  (set : x.set = n)
include hs hpos hn hx set

omit set in
/-- A COMMIT word that finds its set STAGING does what the checks say. -/
theorem gives_of_commitWord {ks : List (Nat × Nat)} {c : Block} {P : State → Prop} (hopen : WindowOpen s) (ho : x.owner < 0xFFFF)
    (staging : x.committing = false) (hc : s.blk.Entries c)
    (done : (match (Block.commitFault s.mem s.blk x) with
      | (some k, _) => s.blk.refuseCommit x k
      | (none, _) => s.blk.putStaging { x with committing := true }) = c) (stands : (Block.commitFault s.mem s.blk x).2 = s.blk)
    (hod : ∀ i j, j < 256 → (i, j) ∉ ks → c.od' i j = s.blk.od' i j) (hks : ∀ e ∈ ks, e ∉ windowKeys)
    (hP : ∀ t, WordEnd s c 0x1F00 1 ks t → t.mem = s.mem → P t) : Gives (.setCommit n x.owner) s P := by
  obtain ⟨noWrite, unblocked, ⟨noFault, noneHeld, -⟩, -⟩ := hs
  have work : Block.writeEntry s.mem s.blk (odKey 0x1F00 1) (setWord n 2 x.owner) = (accOk, c) := by
    rw [Block.writeEntry_setWord, Block.commitControl_setWord _ _ hpos hn (by decide) (by decide) (by omega) (.inl (by omega)), hx]
    have accepted : (x.committing || x.owner != x.owner) = false := by rw [staging, bne_self_eq_false, Bool.or_self]
    simp only [accepted, Bool.false_eq_true, if_false]
    rw [stands, unblocked, if_neg Bool.false_ne_true, ← done]
    generalize Block.commitFault s.mem s.blk x = r
    obtain ⟨_ | k, d⟩ := r <;> rfl
  obtain ⟨od, dict, rfl⟩ := hc
  refine gives_of_word hopen rfl (takesWord_control _ (by decide) (setWord_lt hn (by decide) (by omega))) work unblocked noFault noneHeld
    hod hks fun t ht => hP t ht ?_
  rw [ht.mem]
  show land s.mem s.blk.posted = _
  rw [noWrite]
  rfl

end
end Sys2Proof.Machine

namespace Sys2Proof.Machine

section
variable {s : State} {n : Nat} {x : Staging} (hs : Settled s) (hpos : 1 ≤ n) (hn : n ≤ 10) (hx : s.blk.staging? n = some x)
  (set : x.set = n)
include hs hpos hn hx set

theorem setCommit_passes (hopen : WindowOpen s) (ho : x.owner < 0xFFFF) (staging : x.committing = false)
    (passes : Block.commitFault s.mem s.blk x = (none, s.blk)) : Gives (.setCommit n x.owner) s (fun t =>
        t.blk.staging? n = some { x with committing := true } ∧ Recorded s t 0 0x1F00 1 ∧
        OdOnly s t ((0x1F00, 0x20 + n) :: windowKeys) ∧ t.mem = s.mem) := by
  refine gives_of_commitWord (c := s.blk.putStaging { x with committing := true }) (ks := [(0x1F00, 0x20 + n)]) hs hpos hn hx hopen
    ho staging (s.blk.putStaging_entries _) (by rw [passes]) (by rw [passes]) (fun i j hj out => ?_) (by simp [windowKeys])
    fun t ends memory => ⟨?_, ends.recorded, ends.odOnly, memory⟩
  · exact Block.putStaging_od'_of_ne hn _ { x with committing := true } set hj (by simpa using out)
  · rw [ends.staging?, ← set]
    exact Block.putStaging_staging? s.blk { x with committing := true }

theorem setCommit_refused (hopen : WindowOpen s) (ho : x.owner < 0xFFFF) (staging : x.committing = false) {k : Nat}
    (fails : Block.commitFault s.mem s.blk x = (some k, s.blk)) : Gives (.setCommit n x.owner) s (fun t =>
        (t.blk.staging? n = some { x with committing := false } ∧ t.blk.od' 0x1F00 2 = pack [(0, 0x0808), (16, n), (24, k)] ∧
          t.blk.od' 0x1F00 4 = add64 (s.blk.od' 0x1F00 4) 1 ∧ t.mem = s.mem) ∧
        Recorded s t 0 0x1F00 1 ∧ OdOnly s t ((0x1F00, 0x20 + n) :: (0x1F00, 2) :: (0x1F00, 4) :: windowKeys)) := by
  subst set
  obtain ⟨idle, result, refused⟩ := Block.refuseCommit_shows (b := s.blk) (x := x) hn k
  refine gives_of_commitWord (c := s.blk.refuseCommit x k) (ks := [(0x1F00, 0x20 + x.set), (0x1F00, 2), (0x1F00, 4)]) hs hpos hn hx
    hopen ho staging (s.blk.refuseCommit_entries x k) (by rw [fails]) (by rw [fails])
    (fun i j hj out => Block.refuseCommit_od' hn k hj out) (by simp [windowKeys]) fun t ends memory =>
    ⟨⟨(ends.staging? _).trans idle, ?_, ?_, memory⟩, ends.recorded, ends.odOnly⟩
  · rw [ends.od _ _ (by decide) (by decide) (by decide), result]
  · rw [ends.od _ _ (by decide) (by decide) (by decide), refused]

variable (hcommit : x.committing = true) (state : s.blk.engineState = 1 ∨ s.blk.engineState = 2)
include hcommit state

theorem commitPoint_refused {k : Nat} (fails : Block.commitFault s.mem s.blk x = (some k, s.blk)) :
    Gives (.commitPoint n) s (fun t =>
        (t.blk.staging? n = some { x with committing := false } ∧ t.blk.od' 0x1F00 2 = pack [(0, 0x0808), (16, n), (24, k)] ∧
          t.blk.od' 0x1F00 4 = add64 (s.blk.od' 0x1F00 4) 1 ∧ t.mem = s.mem) ∧
        OdOnly s t [(0x1F00, 0x20 + n), (0x1F00, 2), (0x1F00, 4)]) := by
  subst set
  obtain ⟨noWrite, unblocked, ⟨noFault, noneHeld, -⟩, -⟩ := hs
  have notBoard : x.set ≠ 2 := by
    intro two
    unfold Block.commitFault at fails
    rw [two] at fails
    cases fails
  have exec_eq : exec (.commitPoint x.set) s = finishRead s (s.blk.refuseCommit x k) := by
    show finishRead s (Block.commitPoint s.mem s.blk x.set) = _
    rw [Block.commitPoint_runs hx hcommit state s.mem fun two => absurd two notBoard, fails]
  obtain ⟨idle, result, refused⟩ := Block.refuseCommit_shows (b := s.blk) (x := x) hn k
  have others {i j : Nat} (hj : j < 256) (out) := Block.refuseCommit_od' (b := s.blk) (i := i) hn k hj out
  obtain ⟨od, dict, form⟩ := s.blk.refuseCommit_entries x k
  rw [form] at exec_eq idle result refused others
  refine gives_of_endOf_read exec_eq unblocked noFault noneHeld fun t ends => ⟨⟨?_, ?_, ?_, ?_⟩, ends.odOnly fun i j hj out => others hj out⟩
  · rw [← idle]
    unfold Block.staging?
    rw [ends.dict]
  · rw [ends.od _ _ (by decide), result]
  · rw [ends.od _ _ (by decide), refused]
  · rw [ends.mem]
    show land s.mem s.blk.posted = _
    rw [noWrite]
    rfl

omit hpos in
theorem commitPoint_commits (plain : n ∈ [3, 4, 5, 8, 9, 10]) (passes : Block.commitFault s.mem s.blk x = (none, s.blk))
    (once : (x.copy.map (·.1)).Nodup) (members : ∀ e ∈ x.copy, odSet e.1 = n ∧ ∃ r, odFind e.1 = some r ∧ r.acc = .rwc) :
    Gives (.commitPoint n) s (fun t =>
        t.blk.staging? n = none ∧ (∀ e ∈ x.copy, t.blk.od' (e.1 / 256) (e.1 % 256) = e.2) ∧
        t.blk.od' 0x1F00 3 = add64 (s.blk.od' 0x1F00 3) 1 ∧ t.blk.od' 0x2702 3 = add64 (s.blk.od' 0x2702 3) 1 ∧
        t.blk.od' 0x1F00 2 = n * 2 ^ 16 ∧ t.mem = s.mem) := by
  subst set
  obtain ⟨noWrite, unblocked, ⟨noFault, noneHeld, -⟩, -⟩ := hs
  have exec_eq : exec (.commitPoint x.set) s = finishRead s (Block.commitNow s.mem s.blk x) := by
    show finishRead s (Block.commitPoint s.mem s.blk x.set) = _
    rw [Block.commitPoint_runs hx hcommit state s.mem fun two => absurd (two ▸ plain) (by decide), passes]
  obtain ⟨idle, values, commits, epoch, result⟩ := Block.commitNow_commits once members s.mem hn
  obtain ⟨od, dict, next, queue, faults, form⟩ := Block.commitNow_form s.mem s.blk x plain
  rw [form] at exec_eq idle values commits epoch result
  refine gives_of_endOf_read exec_eq unblocked noFault noneHeld fun t ends => ⟨?_, fun e he => ?_, ?_, ?_, ?_, ?_⟩
  · rw [← idle]
    unfold Block.staging?
    rw [ends.dict]
  · have member : IsMember e.1 := (members e he).2
    rw [ends.od _ _ (by rw [Block.odKey_parts]; exact member.ne (by decide)), values e he]
  · rw [ends.od _ _ (by decide), commits]
  · rw [ends.od _ _ (by decide), epoch]
  · rw [ends.od _ _ (by decide), result]
  · rw [ends.mem]
    show land s.mem s.blk.posted = _
    rw [noWrite]
    rfl

omit hs hpos in
theorem commitPoint_works (load : n = 2 → s.blk.loadUnderWay = false) (passes : (Block.commitFault s.mem s.blk x).1 = none)
    (goes : (Block.commitPoint s.mem s.blk n).blocked = false) (once : (x.copy.map (·.1)).Nodup)
    (members : ∀ e ∈ x.copy, odSet e.1 = n ∧ ∃ r, odFind e.1 = some r ∧ r.acc = .rwc) :
    Works (.commitPoint n) s (fun b =>
        b.staging? n = none ∧ (∀ e ∈ x.copy, b.od' (e.1 / 256) (e.1 % 256) = e.2) ∧
        b.od' 0x1F00 3 = add64 (s.blk.od' 0x1F00 3) 1 ∧ b.od' 0x2702 3 = add64 (s.blk.od' 0x2702 3) 1 ∧
        b.od' 0x1F00 2 = n * 2 ^ 16) := by
  subst set
  have runs : Block.commitPoint s.mem s.blk x.set = Block.commitNow s.mem (Block.commitFault s.mem s.blk x).2 x := by
    rw [Block.commitPoint_runs hx hcommit state s.mem load, passes]
  have kept := Block.commitFault_setsKept s.mem s.blk x
  obtain ⟨idle, values, commits, epoch, result⟩ := Block.commitNow_commits (b := (Block.commitFault s.mem s.blk x).2) once members
    s.mem hn
  rw [kept.od _ _ (by decide) (by decide)] at commits epoch
  exact works_of_finishRead (show exec (.commitPoint x.set) s = finishRead s (Block.commitPoint s.mem s.blk x.set) from rfl) goes
    (by rw [runs]; exact ⟨idle, values, commits, epoch, result⟩)

end

/-- Settles O19, by what the word and the commit point do with a set whose checks pass and with one whose checks fail. -/
theorem commitSetTakesEffect : Obligations.CommitSetTakesEffect := by
  unfold Obligations.CommitSetTakesEffect
  intro s n x hs hpos hn hx set
  refine ⟨?_, ?_, ?_, fun k fails => ⟨?_, ?_⟩⟩
  · exact fun hopen ho staging passes => setCommit_passes hs hpos hn hx set hopen ho staging passes
  · exact fun plain hcommit state passes once members => commitPoint_commits hs hn hx set hcommit state plain passes once members
  · exact fun _ hcommit state load passes goes once members => commitPoint_works hn hx set hcommit state load passes goes once members
  · exact fun hopen ho staging => setCommit_refused hs hpos hn hx set hopen ho staging fails
  · exact fun hcommit state => commitPoint_refused hs hpos hn hx set hcommit state fails

end Sys2Proof.Machine

/-! ### Effects that stay held back (R399), and work that makes no access (R324, R378) -/

namespace Sys2Proof.Machine
namespace Block

/-- Where every request that is held back is one that its flow still holds, nothing is let go. -/
theorem releaseBack_held (b : Block) (h : ∀ r ∈ b.heldBack, (r.flow.map b.holdsBack).getD false = true) : b.releaseBack = b := by
  unfold releaseBack
  split
  · rfl
  · have none : b.heldBack.filter (fun r => !(r.flow.map b.holdsBack).getD false) = [] := by
      refine List.filter_eq_nil_iff.2 fun r hr => ?_
      rw [h r hr]
      decide
    have all : b.heldBack.filter (fun r => (r.flow.map b.holdsBack).getD false) = b.heldBack := List.filter_eq_self.2 h
    dsimp only
    rw [none, all]
    rfl

theorem settle_stillHeld {b : Block} (hr : b.raised = []) (hh : b.releaseBack = b) :
    ({ b.setOd 0x2202 0x0D b.oldFlows with blocked := false } : Block).SentFrom b.settle := by
  have unraised : { b with raised := [] } = b := by cases b; cases hr; rfl
  obtain ⟨sy, inj, sent⟩ := (b.setOd 0x2202 0x0D b.oldFlows).idleAll_sentFrom
  refine ⟨sy, inj, ?_⟩
  unfold settle
  rw [hr, List.foldl_nil, unraised, hh]
  change { (b.setOd 0x2202 0x0D b.oldFlows).idleAll with blocked := false } = _
  rw [sent]

/-- No share key moved: the access has its turn. -/
theorem shareTurns_of_moved {b c : Block} (h : c.agents.moved = b.agents.moved) (id : Nat) : b.shareTurns c id =
    .ok { c with agents := { c.agents with shareWaits := c.agents.shareWaits.filter (fun w => w.2 != id) } } := by
  have none : b.movedKeys c = [] := by
    unfold movedKeys
    rw [h]
    simp
  unfold shareTurns
  rw [none]
  rfl

/-- b with more requests, held back or in the agents' queues. -/
def asking (b : Block) (held : Bool) (rs : List AgentReq) : Block :=
  { b with heldBack := if held then b.heldBack ++ rs else b.heldBack,
           agents := { b.agents with queue := if held then b.agents.queue else b.agents.queue ++ rs } }

theorem asking_nil (b : Block) (held : Bool) : b.asking held [] = b := by cases b; cases held <;> simp [asking]

theorem asking_asking (b : Block) (held : Bool) (rs qs : List AgentReq) :
    (b.asking held rs).asking held qs = b.asking held (rs ++ qs) := by cases held <;> simp [asking]

theorem asking_holdsBack (b : Block) (held : Bool) (rs : List AgentReq) (id : Nat) : (b.asking held rs).holdsBack id = b.holdsBack id :=
  rfl

/-- A block write that a flow asks of the owner of its address. -/
abbrev writeAsked (id a : Nat) (data : Bytes) (crc : Option (Nat × Nat)) : AgentReq :=
  { port := agentOf a, flow := some id, op := .blockWrite a data crc, remote := none }

theorem requestWrite_asking (b : Block) (id a : Nat) (data : Bytes) (crc : Option (Nat × Nat)) :
    b.requestWrite (some id) a data crc = b.asking (b.holdsBack id) [writeAsked id a data crc] := by
  show (if b.holdsBack id then _ else _) = _
  cases b.holdsBack id <;> rfl

/-- A run of bytes written for a flow is asked of the owners of its units. -/
theorem writeOut_asking (b : Block) (id a : Nat) (data : Bytes) : b.writeOut id a data =
    b.asking (b.holdsBack id) ((cutPages a data.length).map (fun p => writeAsked id p.1 (slice data (p.1 - a) p.2) none)) := by
  unfold writeOut
  generalize cutPages a data.length = ps
  suffices run : ∀ rs, ps.foldl (fun b p => b.requestWrite (some id) p.1 (slice data (p.1 - a) p.2) none) (b.asking (b.holdsBack id) rs) =
      b.asking (b.holdsBack id) (rs ++ ps.map (fun p => writeAsked id p.1 (slice data (p.1 - a) p.2) none)) by
    have all := run []
    rwa [asking_nil, List.nil_append] at all
  induction ps with
  | nil => intro rs; simp
  | cons p ps ih =>
    intro rs
    rw [List.foldl_cons, requestWrite_asking, asking_holdsBack, asking_asking, ih, List.append_assoc, List.map_cons,
      List.singleton_append]

end Block

theorem landed_endOf_held {s : State} {b : Block} (hr : b.raised = [])
    (hh : ∀ r ∈ b.heldBack, (r.flow.map b.holdsBack).getD false = true) : EndOf s b (landed s b.settle) := by
  obtain ⟨sy, inj, settled⟩ := Block.settle_stillHeld hr (b.releaseBack_held hh)
  refine ⟨by rw [settled]; rfl, fun i j hij => ?_, ?_⟩
  · have shown : (landed s b.settle).blk.od' i j = (b.setOd 0x2202 0x0D b.oldFlows).od' i j := by
      rw [settled]; exact Block.od'_congr _ _ rfl i j
    rw [shown, Block.setOd_other _ _ _ _ _ _ hij (by decide) (by decide)]
  · rw [settled]
    exact ⟨_, _, _, rfl⟩

/-- A command whose work finds no fault, and whose effects are still held where it holds any back. -/
theorem gives_of_endOf_held {c : Instr} {s : State} {b : Block} {P : State → Prop} (h : exec c s = finish s b)
    (hr : b.raised = []) (hh : ∀ r ∈ b.heldBack, (r.flow.map b.holdsBack).getD false = true) (hP : ∀ t, EndOf s b t → P t) :
    Gives c s P :=
  ⟨_, h, rfl, hP _ (landed_endOf_held hr hh)⟩

/-- A step of a flow's work that makes no access and does not cut the flow off. -/
theorem workStep_goesOn {s : State} {id : Nat} {c e : Block} (hb : c.blocked = false)
    (hcut : ∀ f, c.flow? id = some f → f.cut = true → ((s.blk.flow? id).map (·.cut)).getD false = true)
    (hmoved : c.agents.moved = s.blk.agents.moved) : workStep s id c e = finish s (c.wentOn id) := by
  have notCut : (((c.flow? id).map (·.cut)).getD (((s.blk.flow? id).map (·.cut)).getD false) &&
      !((s.blk.flow? id).map (·.cut)).getD false) = false := by
    cases here : c.flow? id with
    | none => simp
    | some f =>
      cases cut : f.cut with
      | false => simp [cut]
      | true => simp [hcut f here cut]
  unfold workStep
  dsimp only
  rw [hb, if_neg Bool.false_ne_true, notCut, if_neg Bool.false_ne_true, Block.shareTurns_of_moved hmoved]
  rfl

/-- A command that its stream unit works on makes one step of its work. -/
theorem flowStep_begun {s : State} {is : Flow → Bool} {id : Nat} {b : Block} {f : Flow} (h : Begun s is id b f)
    (work : Memory → Block → Flow → Block) :
    flowStep s id is work = workStep s id (work s.mem b f) ((b.cutFlow id).endFlow id stOrphaned) := by
  obtain ⟨g, starts, rfl, works, here⟩ := h
  unfold flowStep
  rw [starts]
  dsimp only
  rw [works, if_pos rfl, here]

end Sys2Proof.Machine

/-! ### What holding back turns on: a flow's number, ring, stream and entry (R357, R399) -/

namespace Sys2Proof.Machine
namespace Block

/-- What decides whether the effects of a flow are held. -/
def holdKey (f : Flow) : Nat × Nat × Option Nat × Nat := (f.id, f.ring, f.stream, f.entry)

/-- Flows in flight and the slots that the effects of generations go by are as they were. -/
structure HoldsAlike (b c : Block) : Prop where
  keys : c.flows.map holdKey = b.flows.map holdKey
  arms : ∀ n, (c.streams.slots.find? (fun s => s.number == n)).map (·.arm) = (b.streams.slots.find? (fun s => s.number == n)).map (·.arm)

theorem HoldsAlike.trans {b c d : Block} (h : b.HoldsAlike c) (h' : c.HoldsAlike d) : b.HoldsAlike d :=
  ⟨h'.keys.trans h.keys, fun n => (h'.arms n).trans (h.arms n)⟩

theorem modFlow_holdsAlike (b : Block) (id : Nat) {g : Flow → Flow} (hg : ∀ f, holdKey (g f) = holdKey f) :
    b.HoldsAlike (b.modFlow id g) := ⟨map_updFirst_of_eq holdKey _ _ hg _, fun _ => rfl⟩

theorem asking_holdsAlike (b : Block) (held : Bool) (rs : List AgentReq) : b.HoldsAlike (b.asking held rs) := ⟨rfl, fun _ => rfl⟩

theorem wentOn_holdsAlike (b : Block) (id : Nat) : b.HoldsAlike (b.wentOn id) :=
  ⟨map_updFirst_of_eq holdKey _ (fun f => { f with waitsOn := none }) (fun _ => rfl) _, fun _ => rfl⟩

theorem map_flow? (b : Block) (id : Nat) : (b.flow? id).map holdKey = (b.flows.map holdKey).find? (fun k => k.1 == id) := by
  unfold flow?
  rw [List.find?_map]
  rfl

theorem earlier_isEmpty (b : Block) (f : Flow) : (b.earlier f).isEmpty =
    !(b.flows.map holdKey).any (fun k => k.2.2.1.isNone && k.2.1 == f.ring && decide (k.1 < f.id)) := by
  unfold earlier inFlight
  rw [List.filter_filter, List.any_map, Bool.eq_iff_iff]
  simp [holdKey]
  grind

theorem HoldsAlike.commandOf {b c : Block} (h : b.HoldsAlike c) {f g : Flow} (hfg : holdKey g = holdKey f) :
    (c.commandOf g).map holdKey = (b.commandOf f).map holdKey := by
  have stream : g.stream = f.stream := congrArg (·.2.2.1) hfg
  unfold Block.commandOf
  rw [stream]
  cases f.stream with
  | none => exact congrArg some hfg
  | some n =>
    have arms := h.arms n
    dsimp only
    generalize c.streams.slots.find? (fun s => s.number == n) = x at arms ⊢
    generalize b.streams.slots.find? (fun s => s.number == n) = y at arms ⊢
    have through (z : Option StreamSlot) (d : Block) :
        (z.bind (fun s => d.flow? s.arm)).map holdKey = (z.map (·.arm)).bind (fun a => (d.flows.map holdKey).find? (fun k => k.1 == a)) := by
      cases z with
      | none => rfl
      | some s => exact map_flow? d s.arm
    rw [through, through, arms, h.keys]

theorem alike_cases {x y : Option Flow} (h : x.map holdKey = y.map holdKey) :
    (x = none ∧ y = none) ∨ ∃ f g, x = some f ∧ y = some g ∧ holdKey f = holdKey g := by
  cases x <;> cases y <;> simp at h ⊢
  exact h

/-- Effects are held alike. -/
theorem HoldsAlike.effectsHeld {b c : Block} (h : b.HoldsAlike c) {f g : Flow} (hfg : holdKey g = holdKey f) :
    c.effectsHeld g = b.effectsHeld f := by
  have command := h.commandOf hfg
  unfold Block.effectsHeld
  obtain ⟨none, none'⟩ | ⟨x, y, this, that, key⟩ := alike_cases command
  · rw [none, none']
  · simp only [holdKey, Prod.mk.injEq] at key
    obtain ⟨number, ring, stream, entry⟩ := key
    rw [this, that]
    dsimp only
    rw [earlier_isEmpty, earlier_isEmpty, h.keys, number, ring, stream, entry]

theorem HoldsAlike.holdsBack {b c : Block} (h : b.HoldsAlike c) (id : Nat) : c.holdsBack id = b.holdsBack id := by
  have same : (c.flow? id).map holdKey = (b.flow? id).map holdKey := by rw [map_flow?, map_flow?, h.keys]
  unfold Block.holdsBack
  obtain ⟨none, none'⟩ | ⟨x, y, this, that, key⟩ := alike_cases same
  · rw [none, none']
    rfl
  · rw [this, that]
    exact h.effectsHeld key

end Block
end Sys2Proof.Machine

/-! ### A command that has begun (R130, R139, R383), and an inline COPY (R197, R198) -/

namespace Sys2Proof.Machine

theorem flow?_id_eq {b : Block} {id : Nat} {f : Flow} (h : b.flow? id = some f) : f.id = id := by
  have found := List.find?_some (show List.find? _ b.flows = some f from h)
  simpa using found

namespace Block

theorem close_flow? (b : Block) (id : Nat) {f : Flow} (h : b.flow? id = some f) :
    (b.close id).flow? id = some { f with stage := .closing } :=
  (flow?_modFlow_self (g := fun f => { f with stage := .closing }) (fun _ => rfl) b).trans (by rw [h]; rfl)

theorem close_flow?_other (b : Block) {id k : Nat} (h : k ≠ id) : (b.close id).flow? k = b.flow? k :=
  flow?_modFlow_other (g := fun f => { f with stage := .closing }) (fun _ => rfl) b h

theorem wentOn_flow? (b : Block) (id : Nat) {f : Flow} (h : b.flow? id = some f) :
    (b.wentOn id).flow? id = some { f with waitsOn := none } :=
  (flow?_modFlow_self (g := fun f => { f with waitsOn := none }) (fun _ => rfl) b).trans (by rw [h]; rfl)

theorem wentOn_flow?_other (b : Block) {id k : Nat} (h : k ≠ id) : (b.wentOn id).flow? k = b.flow? k :=
  flow?_modFlow_other (g := fun f => { f with waitsOn := none }) (fun _ => rfl) b h

end Block

/-- A command that its stream unit works on was in flight and is no generation; beginning it may count an acquire, give it a
context, and sets its stage and the time it began. -/
structure BegunAs (s : State) (id : Nat) (b : Block) (f : Flow) : Prop where
  here : b.flow? id = some f
  command : f.stream = none
  was : ∃ g, s.blk.flow? id = some g ∧ f.cut = g.cut
  form : ∃ flows od contexts, b = { s.blk with flows := flows, od := od, contexts := contexts }
  alike : s.blk.HoldsAlike b
  others : ∀ k, k ≠ id → b.flow? k = s.blk.flow? k
  od : ∀ i j, j < 256 → (i, j) ≠ (0x2506, 1) → b.od' i j = s.blk.od' i j

theorem Block.startable_some {b : Block} {is : Flow → Bool} {id : Nat} {g : Flow} (h : b.startable id is = some g) :
    b.flow? id = some g ∧ g.stream = none ∧ is g = true := by
  unfold Block.startable at h
  cases here : b.flow? id with
  | none => rw [here] at h; cases h
  | some f =>
    rw [here] at h
    dsimp only at h
    split at h
    next ready =>
      cases h
      simp only [Bool.and_eq_true, Option.isNone_iff_eq_none] at ready
      grind
    next => cases h

theorem begunAs {s : State} {is : Flow → Bool} {id : Nat} {b : Block} {f : Flow} (h : Begun s is id b f) : BegunAs s id b f := by
  obtain ⟨g, starts, rfl, works, here⟩ := h
  obtain ⟨inFlight, stream, -⟩ := Block.startable_some starts
  obtain rfl := flow?_id_eq inFlight
  have kept : ∀ x : Flow, ({ x with stage := .running, since := s.blk.time } : Flow).id = x.id := fun _ => rfl
  unfold Block.begun at here ⊢
  split at here
  next waiting =>
    rw [inFlight] at here
    cases here
    rw [if_pos waiting]
    exact ⟨inFlight, stream, ⟨f, inFlight, rfl⟩, ⟨_, _, _, rfl⟩, ⟨rfl, fun _ => rfl⟩, fun _ _ => rfl, fun _ _ _ _ => rfl⟩
  next waiting =>
    rw [if_neg waiting]
    generalize hc : (s.blk.modFlow g.id fun g => { g with stage := .running, since := s.blk.time }).count 0x2506 1
      (b2n (usesContext g.opcode && g.acquires)) = c at here ⊢
    have self : c.flow? g.id = some { g with stage := .running, since := s.blk.time } := by
      rw [← hc]
      show (s.blk.modFlow g.id _).flow? g.id = _
      rw [Block.flow?_modFlow_self kept, inFlight]
      rfl
    have form : ∃ flows od, c = { s.blk with flows := flows, od := od } := by rw [← hc]; exact ⟨_, _, rfl⟩
    have alike : s.blk.HoldsAlike c := by
      have began := s.blk.modFlow_holdsAlike g.id (g := fun g => { g with stage := .running, since := s.blk.time }) fun _ => rfl
      rw [← hc]
      exact ⟨began.keys, began.arms⟩
    have others (k : Nat) (other : k ≠ g.id) : c.flow? k = s.blk.flow? k := by
      rw [← hc]
      exact Block.flow?_modFlow_other kept s.blk other
    have od (i j : Nat) (hj : j < 256) (out : (i, j) ≠ (0x2506, 1)) : c.od' i j = s.blk.od' i j := by
      rw [← hc, Block.count_od'_of_ne _ _ hj (by decide) out (by decide) (by decide)]
      rfl
    have same : f = { g with stage := .running, since := s.blk.time } := by
      split at here <;> exact Option.some.inj (here.symm.trans self)
    obtain ⟨flows, od', rfl⟩ := form
    split
    · exact ⟨by rw [same]; exact self, by rw [same]; exact stream, ⟨g, inFlight, by rw [same]⟩, ⟨_, _, _, rfl⟩, ⟨alike.keys, alike.arms⟩, others, od⟩
    · exact ⟨by rw [same]; exact self, by rw [same]; exact stream, ⟨g, inFlight, by rw [same]⟩, ⟨_, _, _, rfl⟩, ⟨alike.keys, alike.arms⟩, others, od⟩

end Sys2Proof.Machine

namespace Sys2Proof.Machine

/-- No byte of an inline source is poisoned. -/
theorem Block.copyBlocks_inline (data : Bytes) (len dst : Nat) : Block.copyBlocks ⟨0, data, []⟩ len dst = [] := by
  refine List.filterMap_eq_nil_iff.2 fun p _ => if_neg ?_
  simp [Input.part]

/-- The work of a COPY of one run of inline bytes. -/
theorem Block.copyWork_inline {m : Memory} {b : Block} {f : Flow} (running : f.stage = .running) (inline : f.cpInline = true)
    (one : f.cpRows = 1) (plain : f.cpDstCrc = false) :
    Block.copyWork m b f = (b.writeOut f.id f.cpDst (slice f.inline 0 f.cpLength)).close f.id := by
  have row : Block.copyRow m f ([], b) 0 = ([], b.writeOut f.id f.cpDst (slice f.inline 0 f.cpLength)) := by
    unfold Block.copyRow
    dsimp only
    rw [inline, plain, if_pos rfl, if_neg Bool.false_ne_true, Block.copyBlocks_inline, Nat.zero_mul, Nat.add_zero]
    rfl
  unfold Block.copyWork
  rw [running, if_neg (by decide), one]
  dsimp only
  rw [show List.range 1 = [0] from rfl, List.foldl_cons, List.foldl_nil, row]
  rfl

theorem slice_length (bs : Bytes) (off len : Nat) : (slice bs off len).length = len := by
  simp [slice, zeros]

/-- Settles O49, by the requests that the one run makes. -/
theorem inlineCopyAsksForItsWrites : Obligations.InlineCopyAsksForItsWrites := by
  unfold Obligations.InlineCopyAsksForItsWrites
  intro s id b f hs begins running inline one plain
  obtain ⟨noWrite, unblocked, ⟨noFault, noneHeld, -⟩, -⟩ := hs
  have begun := begunAs begins
  obtain ⟨g, inFlight, cut⟩ := begun.was
  have number := flow?_id_eq begun.here
  have held : b.holdsBack id = s.blk.effectsHeld f := by
    unfold Block.holdsBack
    rw [begun.here]
    exact begun.alike.effectsHeld rfl
  have asked : Block.copyWork s.mem b f = (b.asking (s.blk.effectsHeld f) ((cutPages f.cpDst f.cpLength).map (fun p =>
      Block.writeAsked id p.1 (slice (slice f.inline 0 f.cpLength) (p.1 - f.cpDst) p.2) none))).close id := by
    rw [Block.copyWork_inline running inline one plain, Block.writeOut_asking, number, held, slice_length]
  generalize hrs : (cutPages f.cpDst f.cpLength).map (fun p =>
    Block.writeAsked id p.1 (slice (slice f.inline 0 f.cpLength) (p.1 - f.cpDst) p.2) none) = rs at asked
  have own : ∀ r ∈ rs, r.flow = some id := by
    rw [← hrs]
    intro r hr
    obtain ⟨p, -, rfl⟩ := List.mem_map.1 hr
    rfl
  have alike : b.HoldsAlike (((b.asking (s.blk.effectsHeld f) rs).close id).wentOn id) :=
    ((b.asking_holdsAlike _ rs).trans (Block.modFlow_holdsAlike _ id (g := fun f => { f with stage := .closing }) fun _ => rfl)).trans
      (Block.wentOn_holdsAlike _ id)
  have self : ((b.asking (s.blk.effectsHeld f) rs).close id).flow? id = some { f with stage := .closing } :=
    Block.close_flow? _ _ begun.here
  have exec_eq : exec (.copy id) s = finish s (((b.asking (s.blk.effectsHeld f) rs).close id).wentOn id) := by
    show flowStep s id (isOp opCopy) Block.copyWork = _
    rw [flowStep_begun begins, asked]
    obtain ⟨flows, od, contexts, form⟩ := begun.form
    refine workStep_goesOn (by rw [form]; exact unblocked) (fun h found hcut => ?_) (by rw [form]; rfl)
    cases Option.some.inj (found.symm.trans self)
    rw [inFlight]
    exact cut.symm.trans hcut
  have ends := Block.wentOn_flow? _ _ self
  have rest (k : Nat) (other : k ≠ id) : (((b.asking (s.blk.effectsHeld f) rs).close id).wentOn id).flow? k = s.blk.flow? k :=
    (Block.wentOn_flow?_other _ other).trans ((Block.close_flow?_other _ other).trans (begun.others k other))
  have od := begun.od
  have still := alike.holdsBack id
  rw [held] at still
  obtain ⟨flows, od', contexts, form⟩ := begun.form
  have noRaised : (((b.asking (s.blk.effectsHeld f) rs).close id).wentOn id).raised = [] := by rw [form]; exact noFault
  have heldBack : (((b.asking (s.blk.effectsHeld f) rs).close id).wentOn id).heldBack = if s.blk.effectsHeld f then rs else [] := by
    rw [form]
    show (if _ then s.blk.heldBack ++ rs else s.blk.heldBack) = _
    rw [noneHeld, List.nil_append]
  have queue : (((b.asking (s.blk.effectsHeld f) rs).close id).wentOn id).agents.queue =
      if s.blk.effectsHeld f then s.blk.agents.queue else s.blk.agents.queue ++ rs := by rw [form]; rfl
  refine gives_of_endOf_held exec_eq noRaised (fun r hr => ?_) fun t tends => ⟨fun free => ⟨?_, ?_⟩, fun stays => ⟨?_, ?_⟩, ?_, ?_, ?_, ?_⟩
  · rw [heldBack] at hr
    split at hr
    next stays =>
      rw [own r hr]
      exact still.trans stays
    next => cases hr
  · rw [tends.queue, queue, free]
    rfl
  · rw [tends.heldBack, heldBack, free]
    rfl
  · rw [tends.queue, queue, stays]
    rfl
  · rw [tends.heldBack, heldBack, stays]
    rfl
  · rw [tends.flow?, ends]
  · exact fun k other => (tends.flow? k).trans (rest k other)
  · rw [tends.mem, form]
    show land s.mem s.blk.posted = _
    rw [noWrite]
    rfl
  · exact tends.odOnly fun i j hj out => od i j hj (by simpa using out)

end Sys2Proof.Machine

/-! ### Slots, and a generation that completes (R353, R355 to R357) -/

namespace Sys2Proof.Machine

/-- What is found by its number once x has been put in place: x itself. -/
theorem find?_placed_self {α : Type} (k : α → Nat) (x : α) (l : List α) :
    (l.filter (fun y => k y < k x) ++ x :: l.filter (fun y => k x < k y)).find? (fun y => k y == k x) = some x := by
  have before : (l.filter (fun y => k y < k x)).find? (fun y => k y == k x) = none := by
    refine List.find?_eq_none.2 fun y hy => ?_
    have := (List.mem_filter.1 hy).2
    simp at this ⊢
    omega
  rw [List.find?_append, before, List.find?_cons]
  simp

/-- Another number finds what it found before. -/
theorem find?_placed_other {α : Type} (k : α → Nat) (x : α) (l : List α) {n : Nat} (h : n ≠ k x) :
    (l.filter (fun y => k y < k x) ++ x :: l.filter (fun y => k x < k y)).find? (fun y => k y == n) = l.find? (fun y => k y == n) := by
  rw [List.find?_append, List.find?_cons, show (k x == n) = false from beq_eq_false_iff_ne.2 (Ne.symm h)]
  have same (p : α → Bool) (hp : ∀ y, k y = n → p y = true) : (l.filter p).find? (fun y => k y == n) = l.find? (fun y => k y == n) := by
    rw [List.find?_filter]
    congr 1
    funext y
    by_cases hy : k y = n
    · simp [hp y hy, hy]
    · simp [hy]
  have never (p : α → Bool) (hp : ∀ y, k y = n → p y = false) : (l.filter p).find? (fun y => k y == n) = none := by
    refine List.find?_eq_none.2 fun y hy => ?_
    have kept := (List.mem_filter.1 hy).2
    grind
  obtain low | high := Nat.lt_or_gt_of_ne h
  · rw [same (fun y => decide (k y < k x)) (by grind), never (fun y => decide (k x < k y)) (by grind)]
    simp
  · rw [never (fun y => decide (k y < k x)) (by grind), same (fun y => decide (k x < k y)) (by grind)]
    simp

namespace Block

@[simp] theorem slot_number (b : Block) (n : Nat) : (b.slot n).number = n := by
  unfold slot
  cases here : b.streams.slots.find? (fun s => s.number == n) with
  | none => rfl
  | some s =>
    have hit := List.find?_some here
    simpa using hit

theorem find?_putSlot_self (b : Block) (s : StreamSlot) :
    (b.putSlot s).streams.slots.find? (fun x => x.number == s.number) = some s :=
  find?_placed_self StreamSlot.number s b.streams.slots

theorem find?_putSlot_other (b : Block) (s : StreamSlot) {k : Nat} (h : k ≠ s.number) :
    (b.putSlot s).streams.slots.find? (fun x => x.number == k) = b.streams.slots.find? (fun x => x.number == k) :=
  find?_placed_other StreamSlot.number s b.streams.slots h

theorem slot_putSlot_self (b : Block) (s : StreamSlot) : (b.putSlot s).slot s.number = s := by
  unfold slot
  rw [find?_putSlot_self, Option.getD_some]

theorem slot_putSlot_other (b : Block) (s : StreamSlot) {k : Nat} (h : k ≠ s.number) : (b.putSlot s).slot k = b.slot k := by
  unfold slot
  rw [find?_putSlot_other b s h]

theorem putSlot_od'_of_ne (b : Block) (s : StreamSlot) (hs : s.number < 255) {i j : Nat} (hj : j < 256)
    (h : (i, j) ≠ (0x2604, s.number + 1)) : (b.putSlot s).od' i j = b.od' i j := by
  have first : odKey 0x2604 (s.number + 1) ≠ odKey 0x1000 6 := by unfold odKey; omega
  have second : odKey 0x2604 (s.number + 1) ≠ odKey 0x2700 1 := by unfold odKey; omega
  exact setOd_od'_of_ne _ _ hj (by omega) h first second

end Block
end Sys2Proof.Machine

namespace Sys2Proof.Machine
namespace Block

/-- c is b once the generation g of slot n, whose command is `arm`, has completed, and before a queued copy starts. -/
structure GenClosed (b c : Block) (n : Nat) (g : Flow) : Prop where
  slot : c.slot n = { b.slot n with gen := none, ringing := false, stopped := false, part := [], partPoison := [] }
  others : ∀ k, k ≠ n → c.slot k = b.slot k
  gone : c.flow? g.id = none
  armed : ∀ a, (b.slot n).arm ≠ g.id → b.flow? (b.slot n).arm = some a →
    ∃ h, c.flow? (b.slot n).arm = some h ∧ h.stage = .closing ∧ h.statuses = a.statuses ++ g.statuses
  form : ∃ od flows st, c = { b with od := od, flows := flows, streams := st }
  od : ∀ i j, j < 256 → (i, j) ≠ (0x2604, n + 1) → c.od' i j = b.od' i j
  fenced : ∀ d, c.genFenced n d = b.genFenced n d

theorem flow?_dropFlow_self (b : Block) (id : Nat) : (b.dropFlow id).flow? id = none := by
  refine List.find?_eq_none.2 fun f hf => ?_
  have kept := (List.mem_filter.1 hf).2
  simpa using kept

theorem flow?_dropFlow_other (b : Block) {id k : Nat} (h : k ≠ id) : (b.dropFlow id).flow? k = b.flow? k := by
  unfold flow? dropFlow
  rw [List.find?_filter]
  congr 1
  funext f
  by_cases hf : f.id = k
  · simp [hf, h]
  · simp [hf]

theorem queue?_endTurn (b : Block) (id n : Nat) : ((b.endTurn id).queue? n).map (·.south) = (b.queue? n).map (·.south) := by
  unfold queue? endTurn
  dsimp only
  rw [List.find?_map, Option.map_map]
  have number : (fun q : SatQueue => q.number == n) ∘ (fun q : SatQueue =>
      if q.consumer == some id then
        { q with consumer := (q.turns.filter (· != id)).head?, turns := (q.turns.filter (· != id)).tail, interval := 0, lastTake := none }
      else { q with turns := q.turns.filter (· != id) }) = (fun q => q.number == n) := by
    funext q
    dsimp only [Function.comp]
    split <;> rfl
  rw [number]
  congr 1
  funext q
  dsimp only [Function.comp]
  split <;> rfl

/-- What a completed generation hands to its command before its slot is free. -/
def handedOver (b : Block) (n : Nat) (g : Flow) : Block :=
  (((b.withdraw g.id).endTurn g.id).dropFlow g.id).settleArm (b.slot n).arm g (b.slot n).poisonRows

theorem handedOver_slot (b : Block) (n : Nat) (g : Flow) (k : Nat) : (b.handedOver n g).slot k = b.slot k := rfl

theorem handedOver_gone (b : Block) (n : Nat) (g : Flow) : (b.handedOver n g).flow? g.id = none := by
  have gone := flow?_dropFlow_self ((b.withdraw g.id).endTurn g.id) g.id
  unfold handedOver settleArm
  by_cases same : g.id = (b.slot n).arm
  · rw [← same]
    exact (flow?_modFlow_self (fun _ => by exact rfl) _).trans (by rw [gone]; rfl)
  · exact (flow?_modFlow_other (fun _ => by exact rfl) _ same).trans gone

theorem handedOver_armed {b : Block} {n : Nat} {g a : Flow} (apart : (b.slot n).arm ≠ g.id) (here : b.flow? (b.slot n).arm = some a) :
    ∃ h, (b.handedOver n g).flow? (b.slot n).arm = some h ∧ h.stage = .closing ∧ h.statuses = a.statuses ++ g.statuses := by
  have stays : (((b.withdraw g.id).endTurn g.id).dropFlow g.id).flow? (b.slot n).arm = some a :=
    (flow?_dropFlow_other ((b.withdraw g.id).endTurn g.id) apart).trans here
  unfold handedOver settleArm
  refine ⟨_, (flow?_modFlow_self (fun _ => by exact rfl) _).trans (by rw [stays]; rfl), rfl, rfl⟩

/-- A slot set free. -/
def freed (b : Block) (n : Nat) : Block :=
  b.putSlot { b.slot n with gen := none, ringing := false, stopped := false, part := [], partPoison := [] }

/-- The generation of slot n completes: what is left, and then a queued copy starts. -/
theorem closeGen_eq {b : Block} {n : Nat} {g : Flow} (h : (b.slot n).gen.bind b.flow? = some g) :
    b.closeGen n = ((b.handedOver n g).freed n).nextGen n := by
  unfold closeGen
  dsimp only
  rw [h]
  rfl

theorem freed_slot (b : Block) (n : Nat) :
    (b.freed n).slot n = { b.slot n with gen := none, ringing := false, stopped := false, part := [], partPoison := [] } := by
  have self := slot_putSlot_self b
    { b.slot n with gen := none, ringing := false, stopped := false, part := [], partPoison := [] }
  rwa [show ({ b.slot n with gen := none, ringing := false, stopped := false, part := [], partPoison := [] } : StreamSlot).number = n
    from slot_number b n] at self

theorem freed_slot_other (b : Block) {n k : Nat} (h : k ≠ n) : (b.freed n).slot k = b.slot k :=
  slot_putSlot_other b _ (by rwa [show StreamSlot.number _ = n from slot_number b n])

theorem freed_od' (b : Block) {n : Nat} (hn : n < 128) {i j : Nat} (hj : j < 256) (out : (i, j) ≠ (0x2604, n + 1)) :
    (b.freed n).od' i j = b.od' i j :=
  putSlot_od'_of_ne b _ (by rw [show StreamSlot.number _ = n from slot_number b n]; omega) hj
    (by rwa [show StreamSlot.number _ = n from slot_number b n])

theorem genFenced_congr {b c : Block} {n : Nat} (od : ∀ i j, j < 256 → (i, j) ≠ (0x2604, n + 1) → c.od' i j = b.od' i j)
    (queues : ∀ q, (c.queue? q).map (·.south) = (b.queue? q).map (·.south)) (d : Nat) : c.genFenced n d = b.genFenced n d := by
  have wing (w : Wing) : c.wingFenced w = b.wingFenced w := by unfold wingFenced; rw [od _ _ (by decide) (by simp)]
  have unit : c.suUp (n / 4) = b.suUp (n / 4) := by
    unfold suUp wingUp wingEnabled suFenced
    rw [wing, od _ _ (by decide) (by simp), od _ _ (by decide) (by simp)]
  have through (e : Block) : (e.queue? (sdQueue d)).map (fun q => e.wingFenced (if q.south then .south else .north)) =
      ((e.queue? (sdQueue d)).map (·.south)).map (fun x => e.wingFenced (if x then .south else .north)) := by
    rw [Option.map_map]
    rfl
  unfold genFenced
  rw [unit, through c, through b, queues]
  simp only [wing]

theorem freed_queue? (b : Block) (n q : Nat) : (b.freed n).queue? q = b.queue? q := by
  unfold freed putSlot queue?
  rfl

theorem handedOver_queue? (b : Block) (n : Nat) (g : Flow) (q : Nat) :
    (((b.handedOver n g).freed n).queue? q).map (·.south) = (b.queue? q).map (·.south) :=
  (congrArg (Option.map (·.south)) (freed_queue? (b.handedOver n g) n q)).trans (queue?_endTurn (b.withdraw g.id) g.id q)

theorem handedOver_kept (b : Block) (n : Nat) (g : Flow) :
    ∃ flows st, b.handedOver n g = { b with flows := flows, streams := st } := ⟨_, _, rfl⟩

theorem handedOver_od' (b : Block) {n : Nat} (g : Flow) (hn : n < 128) {i j : Nat} (hj : j < 256) (out : (i, j) ≠ (0x2604, n + 1)) :
    ((b.handedOver n g).freed n).od' i j = b.od' i j := by
  rw [freed_od' (b.handedOver n g) hn hj out]
  obtain ⟨flows, st, form⟩ := b.handedOver_kept n g
  exact od'_congr _ _ (by rw [form]) i j

theorem freed_form (b : Block) (n : Nat) : ∃ od st, b.freed n = { b with od := od, streams := st } := ⟨_, _, rfl⟩

theorem handedOver_form (b : Block) (n : Nat) (g : Flow) :
    ∃ od flows st, (b.handedOver n g).freed n = { b with od := od, flows := flows, streams := st } := by
  obtain ⟨flows, st, first⟩ := b.handedOver_kept n g
  obtain ⟨od, st', second⟩ := (b.handedOver n g).freed_form n
  exact ⟨od, flows, st', by rw [second, first]⟩

theorem freed_flow? (b : Block) (n k : Nat) : (b.freed n).flow? k = b.flow? k := by
  obtain ⟨od, st, form⟩ := b.freed_form n
  unfold flow?
  rw [form]

theorem closed_generation {b : Block} {n : Nat} (g : Flow) (hn : n < 128) : b.GenClosed ((b.handedOver n g).freed n) n g := by
  have slot (k : Nat) := b.handedOver_slot n g k
  refine ⟨?_, fun k other => ?_, by rw [freed_flow?, handedOver_gone],
    fun a apart here => by rw [freed_flow?]; exact handedOver_armed apart here,
    b.handedOver_form n g, fun i j hj out => b.handedOver_od' g hn hj out, fun d => ?_⟩
  · rw [freed_slot, slot]
  · rw [freed_slot_other _ other, slot]
  · exact genFenced_congr (fun i j hj out => b.handedOver_od' g hn hj out) (fun q => b.handedOver_queue? n g q) d

end Block
end Sys2Proof.Machine

namespace Sys2Proof.Machine
namespace Block

theorem nextGen_of_none {b : Block} {n : Nat} (h : (b.slot n).pendingGen = none) : b.nextGen n = b := by
  unfold nextGen
  dsimp only
  rw [h]

theorem nextGen_of_some {b : Block} {n d : Nat} (h : (b.slot n).pendingGen = some d) (free : b.genFenced n d = false) :
    b.nextGen n = b.startGen n d (b.slot n).pendingArm := by
  unfold nextGen
  dsimp only
  rw [h]
  dsimp only
  rw [free, if_neg Bool.false_ne_true]

/-- The slot of a generation that starts. -/
def startedSlot (b : Block) (n d arm : Nat) : StreamSlot :=
  { b.slot n with active := d, pendingGen := none, gen := some b.nextFlow, arm := arm, pos := 0, ringing := false,
                  stopped := false, part := [], partPoison := [], poisonRows := 0 }

/-- What is left of b once a generation has started in slot n. -/
structure Started (b c : Block) (n d arm : Nat) : Prop where
  slot : c.slot n = b.startedSlot n d arm
  next : c.nextFlow = b.nextFlow + 1
  form : ∃ od flows nx st, c = { b with od := od, flows := flows, nextFlow := nx, streams := st }
  od : ∀ i j, j < 256 → (i, j) ≠ (0x2604, n + 1) → c.od' i j = b.od' i j

theorem putSlot_form (b : Block) (s : StreamSlot) : ∃ od st, b.putSlot s = { b with od := od, streams := st } := ⟨_, _, rfl⟩

theorem Started.of_putSlot {b c : Block} {n : Nat} (hn : n < 128) (d arm : Nat)
    (form : ∃ flows, c = { b with flows := flows, nextFlow := b.nextFlow + 1 }) :
    b.Started (c.putSlot (b.startedSlot n d arm)) n d arm := by
  have number : (b.startedSlot n d arm).number = n := slot_number b n
  have self := c.slot_putSlot_self (b.startedSlot n d arm)
  rw [number] at self
  obtain ⟨flows, rfl⟩ := form
  have kept := putSlot_form { b with flows := flows, nextFlow := b.nextFlow + 1 } (b.startedSlot n d arm)
  have od {i j : Nat} (hj : j < 256) (out : (i, j) ≠ (0x2604, n + 1)) :=
    putSlot_od'_of_ne { b with flows := flows, nextFlow := b.nextFlow + 1 } (b.startedSlot n d arm) (by omega) hj (by rwa [number])
  generalize putSlot _ _ = c at self kept od
  obtain ⟨_, _, kept⟩ := kept
  exact ⟨self, by rw [kept], ⟨_, _, _, _, kept⟩, fun i j hj out => (od hj out).trans (od'_congr _ b rfl i j)⟩

theorem startGen_started (b : Block) {n : Nat} (hn : n < 128) (d arm : Nat) : b.Started (b.startGen n d arm) n d arm := by
  have asked {c : Block} (h : b.Started c n d arm) (id q : Nat) : b.Started (c.askTurn id q) n d arm := by
    obtain ⟨slot, next, ⟨od', flows, nx, st, form⟩, od⟩ := h
    refine ⟨slot, next, ?_, od⟩
    rw [form]
    exact ⟨_, _, _, _, rfl⟩
  unfold startGen
  dsimp only
  split
  · exact .of_putSlot hn d arm ⟨_, rfl⟩
  · exact asked (.of_putSlot hn d arm ⟨_, rfl⟩) _ _

end Block

section
variable {s : State} {n : Nat} {f : Flow} (hs : Settled s) (hn : n < 128) (hgen : (s.blk.slot n).gen.bind s.blk.flow? = some f)
include hs hn hgen

omit hs hn in
theorem exec_generationComplete (unstopped : (s.blk.slot n).stopped = false) (silent : (s.blk.slot n).ringing = false)
    (done : s.blk.genDone f (s.blk.slot n) = true) : exec (.generationComplete n) s =
      if sdBellEn (s.blk.slot n).active then
        finish s ((s.blk.putSlot { s.blk.slot n with ringing := true }).arriveBell f.id (sdBell (s.blk.slot n).active)
          (sdParties (s.blk.slot n).active))
      else finish s (s.blk.closeGen n) := by
  show execGenerationComplete n s = _
  unfold execGenerationComplete
  dsimp only
  rw [hgen]
  dsimp only
  rw [unstopped, if_neg Bool.false_ne_true, silent, done, Bool.not_true, Bool.or_self, if_neg Bool.false_ne_true]

/-- A generation whose slot has no queued copy leaves. -/
theorem gives_of_lastGen {c : Instr} {P : State → Prop} (h : exec c s = finish s (s.blk.closeGen n))
    (last : (s.blk.slot n).pendingGen = none)
    (hP : ∀ t b, EndOf s b t → s.blk.GenClosed b n f → t.mem = s.mem → OdOnly s t [(0x2604, n + 1)] → P t) : Gives c s P := by
  obtain ⟨noWrite, unblocked, ⟨noFault, noneHeld, -⟩, -⟩ := hs
  have closed := Block.closed_generation (b := s.blk) f hn
  rw [Block.closeGen_eq hgen] at h
  generalize (s.blk.handedOver n f).freed n = b at closed h
  rw [Block.nextGen_of_none (by rw [closed.slot]; exact last)] at h
  have od := closed.od
  have form := closed.form
  obtain ⟨_, _, _, form⟩ := form
  refine gives_of_endOf h (by rw [form]; exact noFault) (by rw [form]; exact noneHeld) fun t ends => hP t b ends closed ?_ ?_
  · rw [ends.mem, form]
    show land s.mem s.blk.posted = _
    rw [noWrite]
    rfl
  · exact ends.odOnly fun i j hj out => od i j hj (by simpa using out)

theorem lastGeneration_leaves (unstopped : (s.blk.slot n).stopped = false) (silent : (s.blk.slot n).ringing = false)
    (done : s.blk.genDone f (s.blk.slot n) = true) (noBell : sdBellEn (s.blk.slot n).active = false)
    (last : (s.blk.slot n).pendingGen = none) : Gives (.generationComplete n) s (fun t =>
      (t.blk.slot n).gen = none ∧ t.blk.flow? f.id = none ∧ (∀ k, k ≠ n → t.blk.slot k = s.blk.slot k) ∧
      (∀ a, (s.blk.slot n).arm ≠ f.id → s.blk.flow? (s.blk.slot n).arm = some a →
        ∃ g, t.blk.flow? (s.blk.slot n).arm = some g ∧ g.stage = .closing ∧ g.statuses = a.statuses ++ f.statuses) ∧
      t.mem = s.mem ∧ OdOnly s t [(0x2604, n + 1)]) := by
  have h := exec_generationComplete hgen unstopped silent done
  rw [noBell, if_neg Bool.false_ne_true] at h
  refine gives_of_lastGen hs hn hgen h last fun t b ends closed memory only => ?_
  have slots (k : Nat) : t.blk.slot k = b.slot k := by unfold Block.slot; rw [ends.streams]
  refine ⟨by rw [slots, closed.slot], by rw [ends.flow?, closed.gone], fun k other => by rw [slots, closed.others k other],
    fun a apart here => ?_, memory, only⟩
  rw [ends.flow?]
  exact closed.armed a apart here

theorem stoppedGeneration_leaves (stopped : (s.blk.slot n).stopped = true) (performed : s.blk.writesWait f.id = false)
    (last : (s.blk.slot n).pendingGen = none) : Gives (.generationComplete n) s (fun t =>
      (t.blk.slot n).gen = none ∧ t.blk.flow? f.id = none ∧
      (∀ k, k ≠ n → t.blk.slot k = s.blk.slot k) ∧ t.mem = s.mem ∧ OdOnly s t [(0x2604, n + 1)]) := by
  have h : exec (.generationComplete n) s = finish s (s.blk.closeGen n) := by
    obtain ⟨id, gen, inFlight⟩ := Option.bind_eq_some_iff.1 hgen
    obtain rfl := flow?_id_eq inFlight
    show execGenerationComplete n s = _
    unfold execGenerationComplete Block.endStopped
    dsimp only
    rw [hgen, gen]
    dsimp only
    rw [stopped, if_pos rfl, performed, if_pos (by decide)]
  refine gives_of_lastGen hs hn hgen h last fun t b ends closed memory only => ?_
  have slots (k : Nat) : t.blk.slot k = b.slot k := by unfold Block.slot; rw [ends.streams]
  exact ⟨by rw [slots, closed.slot], by rw [ends.flow?, closed.gone], fun k other => by rw [slots, closed.others k other], memory, only⟩

theorem queuedGeneration_starts (unstopped : (s.blk.slot n).stopped = false) (silent : (s.blk.slot n).ringing = false)
    (done : s.blk.genDone f (s.blk.slot n) = true) (noBell : sdBellEn (s.blk.slot n).active = false) {d : Nat}
    (queued : (s.blk.slot n).pendingGen = some d) (free : s.blk.genFenced n d = false) : Gives (.generationComplete n) s (fun t =>
      (t.blk.slot n).gen = some s.blk.nextFlow ∧ (t.blk.slot n).active = d ∧ (t.blk.slot n).pos = 0 ∧
      (t.blk.slot n).pendingGen = none ∧ (t.blk.slot n).arm = (s.blk.slot n).pendingArm ∧ t.blk.nextFlow = s.blk.nextFlow + 1 ∧
      t.mem = s.mem ∧ OdOnly s t [(0x2604, n + 1)]) := by
  obtain ⟨noWrite, unblocked, ⟨noFault, noneHeld, -⟩, -⟩ := hs
  have h := exec_generationComplete hgen unstopped silent done
  have closed := Block.closed_generation (b := s.blk) f hn
  rw [noBell, if_neg Bool.false_ne_true, Block.closeGen_eq hgen] at h
  generalize (s.blk.handedOver n f).freed n = b at closed h
  rw [Block.nextGen_of_some (by rw [closed.slot]; exact queued) ((closed.fenced d).trans free)] at h
  have started := b.startGen_started hn d (b.slot n).pendingArm
  generalize b.startGen n d (b.slot n).pendingArm = c at started h
  have slot : c.slot n = b.startedSlot n d (s.blk.slot n).pendingArm := by rw [started.slot, closed.slot]
  have od (i j : Nat) (hj : j < 256) (out : (i, j) ≠ (0x2604, n + 1)) : c.od' i j = s.blk.od' i j :=
    (started.od i j hj out).trans (closed.od i j hj out)
  have same : b.nextFlow = s.blk.nextFlow := by
    obtain ⟨_, _, _, form⟩ := closed.form
    rw [form]
  have form : ∃ od flows nx st, c = { s.blk with od := od, flows := flows, nextFlow := nx, streams := st } := by
    obtain ⟨_, _, _, first⟩ := closed.form
    obtain ⟨_, _, _, _, second⟩ := started.form
    rw [second, first]
    exact ⟨_, _, _, _, rfl⟩
  have next := started.next
  obtain ⟨_, _, _, _, form⟩ := form
  refine gives_of_endOf h (by rw [form]; exact noFault) (by rw [form]; exact noneHeld) fun t ends => ?_
  have slots : t.blk.slot n = b.startedSlot n d (s.blk.slot n).pendingArm := by
    rw [← slot]
    unfold Block.slot
    rw [ends.streams]
  rw [slots]
  refine ⟨congrArg some same, rfl, rfl, rfl, rfl, by rw [ends.nextFlow, next, same], ?_, ?_⟩
  · rw [ends.mem, form]
    show land s.mem s.blk.posted = _
    rw [noWrite]
    rfl
  · exact ends.odOnly fun i j hj out => od i j hj (by simpa using out)

end
end Sys2Proof.Machine

namespace Sys2Proof.Machine
namespace Block

/-- The first arrival of a round that waits for others. -/
theorem arriveBell_first {b : Block} {no parties : Nat} (fresh : b.bell? no = none) (more : 1 < parties) (id : Nat) :
    ∃ flows, b.arriveBell id no parties = { b with flows := flows, streams := { b.streams with
      bells := b.streams.bells ++ [{ number := no, parties := parties, arrivals := [id] }] } } := by
  unfold arriveBell
  dsimp only
  have none : (b.modFlow id (fun f => { f with arrived := true, since := b.time })).bell? no = none := fresh
  rw [none]
  dsimp only
  have waits (c : Block) : c.ring { number := no, parties := parties, arrivals := [id] } = c := if_pos more
  rw [waits]
  exact ⟨_, rfl⟩

end Block

theorem generation_arrives {s : State} {n : Nat} {f : Flow} (hs : Settled s) (hn : n < 128)
    (hgen : (s.blk.slot n).gen.bind s.blk.flow? = some f) (unstopped : (s.blk.slot n).stopped = false)
    (silent : (s.blk.slot n).ringing = false) (done : s.blk.genDone f (s.blk.slot n) = true)
    (bell : sdBellEn (s.blk.slot n).active = true) (fresh : s.blk.bell? (sdBell (s.blk.slot n).active) = none)
    (more : 1 < sdParties (s.blk.slot n).active) :
    Gives (.generationComplete n) s (fun t => (t.blk.slot n).ringing = true ∧
        t.blk.bell? (sdBell (s.blk.slot n).active) =
          some { number := sdBell (s.blk.slot n).active, parties := sdParties (s.blk.slot n).active, arrivals := [f.id] } ∧
        t.mem = s.mem ∧ OdOnly s t [(0x2604, n + 1)]) := by
  obtain ⟨noWrite, unblocked, ⟨noFault, noneHeld, -⟩, -⟩ := hs
  have h := exec_generationComplete hgen unstopped silent done
  rw [bell, if_pos rfl] at h
  have number : ({ s.blk.slot n with ringing := true } : StreamSlot).number = n := s.blk.slot_number n
  generalize hsl : ({ s.blk.slot n with ringing := true } : StreamSlot) = sl at number h
  have self := s.blk.slot_putSlot_self sl
  have od {i j : Nat} (hj : j < 256) (out : (i, j) ≠ (0x2604, n + 1)) :=
    Block.putSlot_od'_of_ne s.blk sl (by omega) hj (by rwa [number])
  have bells : (s.blk.putSlot sl).streams.bells = s.blk.streams.bells := rfl
  have kept := s.blk.putSlot_form sl
  generalize s.blk.putSlot sl = b at self od kept h bells
  obtain ⟨od', st, rfl⟩ := kept
  have fresh' : ({ s.blk with od := od', streams := st } : Block).bell? (sdBell (s.blk.slot n).active) = none := by
    unfold Block.bell? at fresh ⊢
    rwa [bells]
  obtain ⟨flows, arrived⟩ := Block.arriveBell_first fresh' more f.id
  rw [arrived] at h
  refine gives_of_endOf h noFault noneHeld fun t ends => ⟨?_, ?_, ?_, ?_⟩
  · have slots : t.blk.slot n = ({ s.blk with od := od', streams := st } : Block).slot n := by
      unfold Block.slot
      rw [ends.streams]
    rw [slots, ← number, number, ← number, self, ← hsl]
  · unfold Block.bell? at fresh' ⊢
    rw [ends.streams]
    show (st.bells ++ [_]).find? _ = _
    rw [List.find?_append, fresh', List.find?_cons]
    simp
  · rw [ends.mem]
    show land s.mem s.blk.posted = _
    rw [noWrite]
    rfl
  · exact ends.odOnly fun i j hj out => od hj (by simpa using out)

end Sys2Proof.Machine

/-! ### Satchels are granted, arrive and are taken (R368 to R370, R379) -/

namespace Sys2Proof.Machine

theorem find?_updFirst_same {α : Type} {p : α → Bool} {g : α → α} (hg : ∀ x, p x = true → p (g x) = true) (l : List α) :
    (updFirst p g l).find? p = (l.find? p).map g := by
  induction l with
  | nil => rfl
  | cons x xs ih =>
    unfold updFirst
    cases hx : p x with
    | true => simp [hx, hg x hx]
    | false => simp [hx, ih]

namespace Block

theorem queue?_modQueue (b : Block) (n : Nat) {g : SatQueue → SatQueue} (hg : ∀ q, (g q).number = q.number) :
    (b.modQueue n g).queue? n = (b.queue? n).map g :=
  find?_updFirst_same (fun q hq => by rw [hg]; exact hq) _

end Block

/-- A step that changes queues and flows alone. -/
theorem gives_of_streamsOnly {c : Instr} {s : State} {flows : List Flow} {st : Streams} {P : State → Prop} (hs : Settled s)
    (h : exec c s = finish s { s.blk with flows := flows, streams := st })
    (hP : ∀ t, EndOf s { s.blk with flows := flows, streams := st } t → t.mem = s.mem → OdOnly s t [] → P t) : Gives c s P := by
  obtain ⟨noWrite, unblocked, ⟨noFault, noneHeld, -⟩, -⟩ := hs
  refine gives_of_endOf h noFault noneHeld fun t ends => hP t ends ?_ (ends.odOnly fun i j _ _ => Block.od'_congr _ s.blk rfl i j)
  rw [ends.mem]
  show land s.mem s.blk.posted = _
  rw [noWrite]
  rfl

theorem modify_of_get {α : Type} {l : List α} {k : Nat} {x : α} (h : l[k]? = some x) (f : α → α) : l.modify k f = l.set k (f x) := by
  rw [List.modify_eq_set_getElem?, h]
  rfl

/-- A queue at which satchel k arrives. -/
def arrivedAt (k : Nat) (q : SatQueue) : SatQueue :=
  { q with sats := q.sats.modify k (fun x => { x with state := .arrived, holder := none, order := q.count }), count := q.count + 1 }

/-- A queue of which flow `id` takes satchel k. -/
def takenFrom (now k id : Nat) (q : SatQueue) : SatQueue :=
  { q with
    sats := q.sats.modify k (fun x => { x with
      state := .held, holder := some id, err := [],
      poison := (x.poison.zip (List.range x.poison.length)).map (fun p => p.1 || x.err.contains p.2) }),
    interval := Block.takeInterval q now, lastTake := some now }

theorem satchel_arrives {s : State} {n k : Nat} {q : SatQueue} {x : Satchel} (hs : Settled s) (hq : s.blk.queue? n = some q)
    (ready : Block.readyToArrive q = some k) (hx : q.sats[k]? = some x) : Gives (.satchelArrival n) s (fun t =>
      t.blk.queue? n = some
        { q with sats := q.sats.set k { x with state := .arrived, holder := none, order := q.count },
                 count := q.count + 1 } ∧
      (∀ i f, x.holder = some i → s.blk.flow? i = some f →
        ∃ g, t.blk.flow? i = some g ∧ g.tilesDone = f.tilesDone + 1) ∧ t.mem = s.mem ∧ OdOnly s t []) := by
  have exec_eq : exec (.satchelArrival n) s = finish s (s.blk.arriveSatchel n k) := by
    show execSatchelArrival n s = _
    unfold execSatchelArrival
    rw [hq, Option.bind_some, ready]
  have moved : (s.blk.modQueue n (arrivedAt k)).queue? n = some { q with
      sats := q.sats.set k { x with state := .arrived, holder := none, order := q.count }, count := q.count + 1 } := by
    rw [Block.queue?_modQueue s.blk n (g := arrivedAt k) (fun _ => rfl), hq]
    simp only [Option.map_some, arrivedAt]
    rw [modify_of_get hx]
  have held : ((s.blk.queue? n).bind (fun q => q.sats[k]?)).bind (·.holder) = x.holder := by rw [hq, Option.bind_some, hx, Option.bind_some]
  unfold Block.arriveSatchel at exec_eq
  dsimp only at exec_eq
  rw [held] at exec_eq
  cases holder : x.holder with
  | none =>
    rw [holder] at exec_eq
    refine gives_of_streamsOnly hs exec_eq fun t ends memory only => ⟨?_, fun i f here => (by cases here), memory, only⟩
    rw [← moved]
    unfold Block.queue?
    rw [ends.streams]
    rfl
  | some i =>
    rw [holder] at exec_eq
    refine gives_of_streamsOnly hs exec_eq fun t ends memory only => ⟨?_, fun j f here inFlight => ?_, memory, only⟩
    · rw [← moved]
      unfold Block.queue?
      rw [ends.streams]
      rfl
    · cases here
      refine ⟨{ f with tilesDone := f.tilesDone + 1 }, (ends.flow? i).trans ?_, rfl⟩
      show (s.blk.modFlow i (fun f => { f with tilesDone := f.tilesDone + 1 })).flow? i = _
      rw [Block.flow?_modFlow_self (g := fun f => { f with tilesDone := f.tilesDone + 1 }) (fun _ => rfl), inFlight]
      rfl

theorem satchel_taken {s : State} {n k : Nat} {q : SatQueue} {f : Flow} {x : Satchel} (hs : Settled s)
    (hq : s.blk.queue? n = some q) (consumer : q.consumer.bind s.blk.flow? = some f) (wants : s.blk.wantsSatchel q f = true)
    (next : Block.nextArrived q = some k) (hx : q.sats[k]? = some x) (sound : x.err = []) : Gives (.satchelTake n) s (fun t =>
        t.blk.queue? n = some
          { q with sats := q.sats.set k { x with state := .held, holder := some f.id },
                   interval := Block.takeInterval q s.blk.time, lastTake := some s.blk.time } ∧
        t.blk.flows = s.blk.flows ∧ t.mem = s.mem ∧ OdOnly s t []) := by
  have exec_eq : exec (.satchelTake n) s = finish s (s.blk.modQueue n (takenFrom s.blk.time k f.id)) := by
    have none : s.blk.foundTile q k = s.blk := by
      unfold Block.foundTile
      rw [hx]
      dsimp only
      rw [sound]
      rfl
    show execSatchelTake n s = _
    unfold execSatchelTake Block.takeSatchel
    rw [hq]
    dsimp only
    rw [consumer]
    dsimp only
    rw [wants, if_pos rfl, next]
    dsimp only
    rw [none]
    rfl
  have same : (x.poison.zip (List.range x.poison.length)).map (fun p => p.1 || x.err.contains p.2) = x.poison := by
    rw [sound]
    simp [List.map_fst_zip]
  have taken : (s.blk.modQueue n (takenFrom s.blk.time k f.id)).queue? n = some
          { q with sats := q.sats.set k { x with state := .held, holder := some f.id },
                   interval := Block.takeInterval q s.blk.time, lastTake := some s.blk.time } := by
    rw [Block.queue?_modQueue s.blk n (g := takenFrom s.blk.time k f.id) (fun _ => rfl), hq]
    simp only [Option.map_some, takenFrom]
    rw [modify_of_get hx, same, ← sound]
  refine gives_of_streamsOnly hs exec_eq fun t ends memory only => ⟨?_, ends.flows, memory, only⟩
  rw [← taken]
  unfold Block.queue?
  rw [ends.streams]
  rfl

end Sys2Proof.Machine

namespace Sys2Proof.Machine
namespace Block

/-- With no injection armed, no word of a tile is written with an error. -/
theorem tileErrs_none {b : Block} (h : b.faults.injections = []) (w : Wing) (rows : Nat) : b.tileErrs w rows = ([], b) := by
  unfold tileErrs
  refine List.foldlRecOn (motive := fun x => x = (([] : List Nat), b)) _ _ rfl fun x hx i _ => ?_
  rw [hx]
  simp [injected_none h]

theorem grantedSatchel_sound (c : GrantClaim) : { grantedSatchel c with err := [] } = grantedSatchel c := by
  unfold grantedSatchel
  split <;> rfl

end Block

/-- A queue whose satchel k goes to a claim. -/
def queueGranting (k : Nat) (c : GrantClaim) (q : SatQueue) : SatQueue := { q with sats := q.sats.set k (Block.grantedSatchel c) }

/-- b with a claim of queue n granted satchel k. -/
def Block.claimGranted (b : Block) (n k : Nat) (c : GrantClaim) : Block :=
  ({ b with streams := { b.streams with claims := b.streams.claims.erase c } } : Block).modQueue n (queueGranting k c)

theorem satchel_granted {s : State} {n k : Nat} {q : SatQueue} {f g : Flow} {b1 : Block} {c : GrantClaim} (hs : Settled s)
    (hq : s.blk.queue? n = some q) (granted : s.blk.grant (2 ^ 16 + n) ((s.blk.openClaims q).map (·.2)) = some (f, b1))
    (claim : (s.blk.openClaims q).find? (fun x => x.2.id == f.id) = some (c, g))
    (free : q.sats.findIdx? (fun x => x.state == .free) = some k) (unarmed : s.blk.faults.injections = []) :
    Works (.satchelGrant n) s (fun b => b.queue? n = some { q with sats := q.sats.set k (Block.grantedSatchel c) } ∧
        b.streams.claims = s.blk.streams.claims.erase c ∧ b.posted = []) := by
  have form := (Block.grant_some granted).2.1
  have sound : b1.faults.injections = [] := by
    obtain ⟨_, _, _, form⟩ := form
    rw [form]
    exact unarmed
  have next : s.blk.grantNext n = match c.remote with
      | none => b1.claimGranted n k c
      | some (p, txn, port, flow) => (b1.claimGranted n k c).reply port p mtGrant 0 txn (Block.grantBody n k flow) := by
    unfold Block.grantNext
    rw [hq]
    dsimp only
    rw [granted]
    dsimp only
    rw [claim, free]
    dsimp only
    rw [Block.tileErrs_none (by exact sound), Block.grantedSatchel_sound]
    rfl
  have moved : (b1.claimGranted n k c).queue? n = some (queueGranting k c q) ∧
      (b1.claimGranted n k c).streams.claims = s.blk.streams.claims.erase c ∧ (b1.claimGranted n k c).posted = [] := by
    obtain ⟨_, _, _, rfl⟩ := form
    refine ⟨(Block.queue?_modQueue _ n (g := queueGranting k c) fun _ => rfl).trans ?_, rfl, hs.1⟩
    exact congrArg (Option.map (queueGranting k c)) hq
  refine works_of_finish (show exec (.satchelGrant n) s = finish s (s.blk.grantNext n) from rfl) ?_
  rw [next]
  cases c.remote with
  | none => exact moved
  | some r =>
    obtain ⟨⟨od', sy, inj, sent⟩, -⟩ := Block.reply_sends (b1.claimGranted n k c) r.2.2.1 r.1 mtGrant 0 r.2.1 (Block.grantBody n k r.2.2.2)
    dsimp only
    rw [sent]
    exact moved

/-- Settles O44, by what closes a generation, and by the one satchel that each of the other three commands moves. -/
theorem generationsAndSatchelsMoveOn : Obligations.GenerationsAndSatchelsMoveOn := by
  unfold Obligations.GenerationsAndSatchelsMoveOn
  refine ⟨fun s n f hs hn hgen => ?_, ?_, fun s n q hs hq _ => ⟨?_, ?_, ?_⟩⟩
  · intro sl unstopped silent done
    refine ⟨?_, ?_, ?_⟩
    · exact fun noBell last => lastGeneration_leaves hs hn hgen unstopped silent done noBell last
    · exact fun d noBell queued free => queuedGeneration_starts hs hn hgen unstopped silent done noBell queued free
    · exact fun bell fresh more => generation_arrives hs hn hgen unstopped silent done bell fresh more
  · exact fun s n f hs hn hgen stopped performed last => stoppedGeneration_leaves hs hn hgen stopped performed last
  · exact fun f b1 c g k granted claim free unarmed => satchel_granted hs hq granted claim free unarmed
  · exact fun k x ready hx => satchel_arrives hs hq ready hx
  · exact fun f k x consumer wants next hx sound _ => satchel_taken hs hq consumer wants next hx sound

end Sys2Proof.Machine

/-! ### What reads for flows leave alone (R326, R331 to R337, R341, R487, R488) -/

namespace Sys2Proof.Machine
namespace Block

/-- c is b after reads for flows, through the row cache or not: streams, wings, ports and peers, the writes of the step, the tiles formed and
the counters of the wings' vector engines stay. -/
structure Reads (b c : Block) : Prop where
  streams : c.streams = b.streams
  posted : c.posted = b.posted
  north : c.north = b.north
  south : c.south = b.south
  seryo : c.seryo = b.seryo
  formed : c.flows.map formedKey = b.flows.map formedKey
  od : ∀ i ∈ [0x2111, 0x2191], ∀ j, j < 256 → c.od' i j = b.od' i j

theorem Reads.refl (b : Block) : b.Reads b := ⟨rfl, rfl, rfl, rfl, rfl, rfl, fun _ _ _ _ => rfl⟩

theorem Reads.trans {b c d : Block} (h : b.Reads c) (h' : c.Reads d) : b.Reads d :=
  ⟨h'.streams.trans h.streams, h'.posted.trans h.posted, h'.north.trans h.north, h'.south.trans h.south, h'.seryo.trans h.seryo, h'.formed.trans h.formed,
    fun i hi j hj => (h'.od i hi j hj).trans (h.od i hi j hj)⟩

theorem setOd_reads (b : Block) {i j : Nat} (v : Nat) (hi : i ∈ [0x1000, 0x2301, 0x2303, 0x2504]) (hj : j < 256)
    (h1 : odKey i j ≠ odKey 0x1000 6 := by decide) : b.Reads (b.setOd i j v) := by
  have apart : odKey i j ≠ odKey 0x2700 1 := by fin_cases hi <;> (unfold odKey; omega)
  refine ⟨rfl, rfl, rfl, rfl, rfl, rfl, fun i' hi' j' hj' => setOd_od'_of_ne _ _ hj' hj ?_ h1 apart⟩
  intro same
  cases same
  fin_cases hi <;> exact absurd hi' (by decide)

theorem count_reads (b : Block) {i j : Nat} (n : Nat) (hi : i ∈ [0x1000, 0x2301, 0x2303, 0x2504]) (hj : j < 256)
    (h1 : odKey i j ≠ odKey 0x1000 6 := by decide) : b.Reads (b.count i j n) := setOd_reads b _ hi hj h1

theorem found_reads (b : Block) (cls unit addr : Nat) (inj : Bool) : b.Reads (b.found cls unit addr inj) :=
  ⟨rfl, rfl, rfl, rfl, rfl, rfl, fun _ _ _ _ => rfl⟩

theorem hold_reads (b : Block) (a len : Nat) : b.Reads (b.hold a len) := ⟨rfl, rfl, rfl, rfl, rfl, rfl, fun _ _ _ _ => rfl⟩

theorem modFlow_reads (b : Block) (id : Nat) {g : Flow → Flow} (hg : ∀ f, formedKey (g f) = formedKey f) : b.Reads (b.modFlow id g) :=
  ⟨rfl, rfl, rfl, rfl, rfl, map_updFirst_of_eq formedKey _ _ hg _, fun _ _ _ _ => rfl⟩

theorem cache_reads (b : Block) (cache : Cache) : b.Reads { b with cache := cache } := ⟨rfl, rfl, rfl, rfl, rfl, rfl, fun _ _ _ _ => rfl⟩

theorem ReadFrom.reads {b c : Block} (h : b.ReadFrom c) : b.Reads c := by
  obtain ⟨_, _, rfl⟩ := h
  exact ⟨rfl, rfl, rfl, rfl, rfl, rfl, fun _ _ _ _ => rfl⟩

theorem ReadBy.reads {b c : Block} (h : b.ReadBy c) : b.Reads c := by
  obtain ⟨⟨_, _, _, _, rfl⟩, keep⟩ := h
  refine ⟨rfl, rfl, rfl, rfl, rfl, rfl, fun i hi j hj => keep i j hj ?_⟩
  fin_cases hi <;> simp [readKeys]

theorem tierRead_reads (m : Memory) (b : Block) (a len : Nat) : b.Reads (tierRead m b a len).2.2 := by
  unfold tierRead
  split_ifs
  · exact .refl b
  · exact hold_reads ..
  · exact (ReadFrom.reads ⟨_, _, rfl⟩).trans (count_reads _ 1 (by decide) (by decide))
  · exact ⟨rfl, rfl, rfl, rfl, rfl, rfl, fun _ _ _ _ => rfl⟩
  · exact ((reported_readFrom b a len).readBy.trans ((foldl_uncorrectable_readBy _ _).trans (charge_readFrom _ _ _).readBy)).reads

theorem readFor_reads (m : Memory) (b : Block) (id a len : Nat) : b.Reads (readFor m b id a len).2.2 := by
  unfold readFor
  split
  · split
    · split
      · exact hold_reads ..
      · exact .refl b
    · split
      · exact modFlow_reads b id fun _ => rfl
      · split
        · exact (modFlow_reads b id (g := fun f => { f with held := true }) fun _ => rfl).trans (hold_reads ..)
        · exact .refl b
  · exact tierRead_reads ..

theorem checkCrc_reads (m : Memory) (b : Block) (id a : Nat) (data : Bytes) : b.Reads (checkCrc m b id a data).2 := by
  have read (w : Nat) := tierRead_reads m b w 4
  unfold checkCrc
  split
  · exact count_reads b 1 (by decide) (by decide)
  · dsimp only
    split
    · exact (read _).trans (count_reads _ 1 (by decide) (by decide))
    · split
      · exact read _
      · split <;> exact (read _).trans (count_reads _ 1 (by decide) (by decide))

theorem readPiece_reads (m : Memory) (b : Block) (id a len : Nat) (crc : Bool) : b.Reads (readPiece m b id a len crc).2.2 := by
  unfold readPiece
  split
  · exact (readFor_reads ..).trans (checkCrc_reads ..)
  · exact readFor_reads ..

/-! ### Through the row cache -/

theorem setLines_reads (b : Block) (ls : List Line) : b.Reads (b.setLines ls) := cache_reads ..

theorem dropLine_reads (b : Block) (l : Line) : b.Reads (b.dropLine l) := by
  unfold dropLine
  dsimp only
  split
  · exact (setLines_reads b _).trans (setOd_reads _ _ (by decide) (by decide))
  · exact setLines_reads b _

theorem putLine_reads (b : Block) (l : Line) : b.Reads (b.putLine l) := setLines_reads ..

theorem request_reads (b : Block) (r : AgentReq) : b.Reads (b.request r) := by
  unfold request enqueue
  split
  · exact ⟨rfl, rfl, rfl, rfl, rfl, rfl, fun _ _ _ _ => rfl⟩
  · have queued : b.Reads { b with agents := { b.agents with queue := b.agents.queue ++ [r] } } :=
      ⟨rfl, rfl, rfl, rfl, rfl, rfl, fun _ _ _ _ => rfl⟩
    dsimp only
    split
    · exact queued.trans (setOd_reads _ _ (by decide) (by decide))
    · exact queued

theorem dirtyRead_reads (b : Block) (l : Line) : b.Reads (b.dirtyRead l) := by
  unfold dirtyRead
  split
  · exact (count_reads b 1 (by decide) (by decide)).trans (found_reads ..)
  · split
    · exact count_reads b 1 (by decide) (by decide)
    · exact .refl b

theorem evict_reads (b : Block) (l : Line) : b.Reads (b.evict l) := by
  have sent : b.Reads (b.sendBack l) := ((dirtyRead_reads b l).trans (request_reads ..)).trans (putLine_reads ..)
  unfold evict
  split
  · exact sent.trans (dropLine_reads ..)
  · exact dropLine_reads ..

theorem parityCheck_reads (b : Block) (south : Bool) (set : Nat) : b.Reads (b.parityCheck south set) := by
  unfold parityCheck
  refine List.foldlRecOn (motive := b.Reads) _ _ (.refl b) fun c kept l _ => ?_
  have dropped := (dropLine_reads c l).trans (count_reads (j := 7) _ 1 (i := 0x2504) (by decide) (by decide))
  dsimp only
  split
  · exact kept.trans (dropped.trans (found_reads ..))
  · exact kept.trans dropped

theorem Filled.reads {b c : Block} (h : b.Filled c) : b.Reads c := by
  obtain ⟨⟨_, _, _, _, rfl⟩, keep, -⟩ := h
  refine ⟨rfl, rfl, rfl, rfl, rfl, rfl, fun i hi j hj => keep i j hj ?_⟩
  fin_cases hi <;> simp

theorem clearWay_reads (b : Block) (old : Option Line) : b.Reads (b.clearWay old) := by
  unfold clearWay
  split
  · exact .refl b
  · split
    · exact (evict_reads ..).trans (count_reads _ 1 (by decide) (by decide))
    · exact dropLine_reads ..

theorem fill_reads (b : Block) (a : Nat) (data : Bytes) (hint : Nat) (flow : Option Nat) : b.Reads (b.fill a data hint flow) := by
  cases found : b.victim (b.half a) (setOf a) with
  | none =>
    have stays : b.fill a data hint flow = b := by unfold fill; simp only [found]
    rw [stays]
    exact .refl b
  | some x =>
    rw [fill_eq b a data hint flow (way := x.1) (old := x.2) found]
    dsimp only
    exact (clearWay_reads b x.2).trans ((cache_reads ..).trans ((cache_reads ..).trans ((lineErr_filled ..).reads.trans (cache_reads ..))))

theorem missLine_reads (m : Memory) (b : Block) (a hint : Nat) (flow : Option Nat) : b.Reads (missLine m b a hint flow).2.2 := by
  have read := (count_reads (j := 9) b 1 (i := 0x2504) (by decide) (by decide)).trans (tierRead_reads m _ (lineAddr a) 256)
  unfold missLine
  split
  · exact (hold_reads b (lineAddr a) 256).trans (cache_reads ..)
  · dsimp only
    split
    · exact read
    · exact read.trans (fill_reads ..)

theorem freshLine_reads (m : Memory) (b : Block) (l : Line) (hint : Nat) (flow : Option Nat) : b.Reads (freshLine m b l hint flow).2.2 := by
  have read := (count_reads (j := 9) b 1 (i := 0x2504) (by decide) (by decide)).trans (tierRead_reads m _ l.addr 256)
  unfold freshLine
  dsimp only
  split
  · exact read
  · split
    · exact read.trans (dropLine_reads ..)
    · split
      · exact read.trans (putLine_reads ..)
      · exact read.trans ((cache_reads ..).trans (putLine_reads ..))

theorem lookup_reads (m : Memory) (b : Block) (a hint : Nat) (flow : Option Nat) (acquire : Bool) :
    b.Reads (lookup m b a hint flow acquire).2.2 := by
  have checked := parityCheck_reads b (b.half a) (setOf a)
  unfold lookup
  dsimp only
  split
  · exact checked.trans (missLine_reads ..)
  next l _ =>
    have corrected (c : Block) : c.Reads (if l.err == 1 then (c.putLine { l with err := 0 }).count 0x2504 5 1 else c) := by
      split
      · exact (putLine_reads ..).trans (count_reads _ 1 (by decide) (by decide))
      · exact .refl c
    split
    · unfold doubleError
      split
      · exact checked.trans (evict_reads ..)
      · exact checked.trans (((count_reads _ 1 (by decide) (by decide)).trans (dropLine_reads ..)).trans (missLine_reads ..))
    · split
      · exact checked.trans ((corrected _).trans (freshLine_reads ..))
      · refine checked.trans ((corrected _).trans (Reads.trans ?_ (count_reads _ 1 (by decide) (by decide))))
        obtain ⟨cache, touched⟩ := touch_eq (if l.err == 1 then
          ((b.parityCheck (b.half a) (setOf a)).putLine { l with err := 0 }).count 0x2504 5 1 else b.parityCheck (b.half a) (setOf a))
          { l with err := 0 } hint flow
        rw [touched]
        exact cache_reads ..

theorem lookupSpan_reads (m : Memory) (b : Block) (a len hint : Nat) (flow : Option Nat) (acquire : Bool) :
    b.Reads (lookupSpan m b a len hint flow acquire).2.2 := by
  unfold lookupSpan
  exact List.foldlRecOn (motive := fun x : Bytes × Bool × Block => b.Reads x.2.2) _ _ (.refl b)
    fun x kept la _ => kept.trans (lookup_reads ..)

theorem cachedRead_reads (m : Memory) (b : Block) (id a len : Nat) (acquire : Bool) : b.Reads (cachedRead m b id a len acquire).2.2 := by
  unfold cachedRead
  split
  · exact readFor_reads ..
  · split
    · exact tierRead_reads ..
    · exact lookupSpan_reads ..

theorem fetchLines_reads (m : Memory) (b : Block) (id : Nat) (acquire : Bool) (ls : List Nat) : b.Reads (fetchLines m b id acquire ls).2 := by
  unfold fetchLines
  exact List.foldlRecOn (motive := fun x : LineBag × Block => b.Reads x.2) _ _ (.refl b) fun x kept a _ => kept.trans (cachedRead_reads ..)

end Block
end Sys2Proof.Machine

/-! ### A stream's run (R360, R361, R363, R369) -/

namespace Sys2Proof.Machine

theorem Block.Granted.slot {b c : Block} (h : b.Granted c) (n : Nat) : c.slot n = b.slot n := by
  obtain ⟨⟨_, _, _, rfl⟩, -⟩ := h
  rfl

theorem Block.Granted.flow? {b c : Block} (h : b.Granted c) (n : Nat) : c.flow? n = b.flow? n := by
  obtain ⟨⟨_, _, _, rfl⟩, -⟩ := h
  rfl

theorem Block.Granted.queue? {b c : Block} (h : b.Granted c) (n : Nat) : c.queue? n = b.queue? n := by
  obtain ⟨⟨_, _, _, rfl⟩, -⟩ := h
  rfl

section
variable {s : State} {n : Nat} {f : Flow} {b0 : Block} (ready : s.blk.ready = true) (up : s.blk.suUp (n / 4) = true)
  (granted : s.blk.grantRun (n / 4) = some (n, b0)) (hgen : (s.blk.slot n).gen.bind s.blk.flow? = some f)
include granted

theorem grantRun_granted : s.blk.Granted b0 := by
  obtain ⟨⟨g, c⟩, grant, run⟩ := Option.bind_eq_some_iff.1 granted
  obtain ⟨k, -, same⟩ := Option.map_eq_some_iff.1 run
  cases same
  exact (Block.grant_some grant).2

include ready up hgen

/-- The slot that the timetable grants issues one run. -/
theorem exec_streamRun : exec (.streamRun n) s =
    workStep s f.id (if sdKind (s.blk.slot n).active == 0 then b0.loadRun s.mem f n else b0.storeRun f n)
      ((s.blk.cutFlow f.id).endGen n stOrphaned) := by
  have kept := grantRun_granted granted
  have same : (b0.slot n).gen.bind b0.flow? = some f := by
    rw [kept.slot, ← hgen]
    congr 1
    funext k
    exact kept.flow? k
  show execStreamRun n s = _
  unfold execStreamRun Block.issueRun
  rw [ready, up, granted]
  dsimp only
  rw [same, hgen, kept.slot]
  simp

end

theorem Block.addClaim_eq (b : Block) (c : GrantClaim) : ∃ k, b.addClaim c =
    ({ b with streams := { b.streams with claims := b.streams.claims ++ [c] } } : Block).count 0x2603 7 k := ⟨_, rfl⟩

theorem Block.Granted.filling {b c : Block} (h : b.Granted c) (f : Flow) : c.filling f = b.filling f := by
  unfold Block.filling
  congr 2
  funext q
  exact h.queue? q

/-- What the first beat of a satchel's rows asks for. -/
def satchelClaim (b : Block) (f : Flow) (sl : StreamSlot) : GrantClaim :=
  { queue := sdQueue sl.active, remote := none, since := b.time,
    tile := some { flow := f.id, index := f.tilesFormed, rows := Block.satchelRowsLeft sl.active sl.pos, cols := sdCols sl.active,
                   fmt := sdFmt sl.active, pitch := sdPitch sl.active, data := [], poison := [] } }

/-- A LOAD without a satchel to fill asks for one. -/
theorem load_claims {s : State} {n : Nat} {f : Flow} {b0 : Block} (hs : Settled s) (ready : s.blk.ready = true)
    (up : s.blk.suUp (n / 4) = true) (granted : s.blk.grantRun (n / 4) = some (n, b0))
    (hgen : (s.blk.slot n).gen.bind s.blk.flow? = some f) (load : sdKind (s.blk.slot n).active = 0) (empty : s.blk.filling f = none) :
    Gives (.streamRun n) s (fun t =>
      t.blk.streams.claims = s.blk.streams.claims ++ [satchelClaim s.blk f (s.blk.slot n)] ∧
      (∃ g, t.blk.flow? f.id = some g ∧ g.tilesFormed = f.tilesFormed + 1) ∧ t.blk.slot n = s.blk.slot n ∧ t.mem = s.mem ∧
      OdOnly s t [(0x2603, 3), (0x2603, 7)]) := by
  obtain ⟨noWrite, unblocked, ⟨noFault, noneHeld, -⟩, -⟩ := hs
  obtain ⟨id, gen, inFlight⟩ := Option.bind_eq_some_iff.1 hgen
  obtain rfl := flow?_id_eq inFlight
  have kept := grantRun_granted granted
  have exec_eq := exec_streamRun ready up granted hgen
  have asks : b0.loadRun s.mem f n =
      (b0.modFlow f.id (fun g => { g with tilesFormed := g.tilesFormed + 1 })).addClaim (satchelClaim b0 f (s.blk.slot n)) := by
    unfold Block.loadRun
    dsimp only
    rw [kept.filling, empty, kept.slot]
    rfl
  obtain ⟨k, counted⟩ := (b0.modFlow f.id (fun g => { g with tilesFormed := g.tilesFormed + 1 })).addClaim_eq (satchelClaim b0 f (s.blk.slot n))
  rw [load, if_pos (by decide), asks, counted] at exec_eq
  have formed : b0.flow? f.id = some f := (kept.flow? _).trans inFlight
  have more : (b0.modFlow f.id (fun g => { g with tilesFormed := g.tilesFormed + 1 })).flow? f.id =
      some { f with tilesFormed := f.tilesFormed + 1 } := by
    rw [Block.flow?_modFlow_self (g := fun g => { g with tilesFormed := g.tilesFormed + 1 }) (fun _ => rfl), formed]
    rfl
  obtain ⟨⟨od, row, waits, rfl⟩, keep⟩ := kept
  generalize hc : Block.count _ 0x2603 7 k = c at exec_eq
  have self : c.flow? f.id = some { f with tilesFormed := f.tilesFormed + 1 } := by rw [← hc]; exact more
  have od' (i j : Nat) (hj : j < 256) (out : (i, j) ∉ [(0x2603, 3), (0x2603, 7)]) : c.od' i j = s.blk.od' i j := by
    simp only [List.mem_cons, List.not_mem_nil, or_false, not_or] at out
    rw [← hc, Block.count_od'_of_ne _ _ hj (by decide) out.2 (by decide) (by decide)]
    exact keep i j hj (by simpa using out.1)
  have form : ∃ od flows, c = { s.blk with od := od, flows := flows, streams := { s.blk.streams with
      finiteRow := row, waits := waits, claims := s.blk.streams.claims ++ [satchelClaim s.blk f (s.blk.slot n)] } } :=
    ⟨_, _, hc.symm⟩
  rw [workStep_goesOn (by obtain ⟨_, _, rfl⟩ := form; exact unblocked) (fun g found cut => ?_)
    (by obtain ⟨_, _, rfl⟩ := form; rfl)] at exec_eq
  · have ends := c.wentOn_flow? f.id self
    obtain ⟨_, _, rfl⟩ := form
    refine gives_of_endOf exec_eq noFault noneHeld fun t tends => ⟨?_, ⟨_, (tends.flow? _).trans ends, rfl⟩, ?_, ?_, ?_⟩
    · rw [tends.streams]
      rfl
    · unfold Block.slot
      rw [tends.streams]
      rfl
    · rw [tends.mem]
      show land s.mem s.blk.posted = _
      rw [noWrite]
      rfl
    · exact tends.odOnly fun i j hj out => od' i j hj out
  · rw [self] at found
    cases found
    rw [inFlight]
    exact cut

end Sys2Proof.Machine

namespace Sys2Proof.Machine
namespace Block

/-- d is c once its accesses have had their turns at the share keys (R324, R378). -/
def Turned (c d : Block) : Prop :=
  (∃ od row waits ws, d = { c with od := od, streams := { c.streams with finiteRow := row, waits := waits },
                                   agents := { c.agents with shareWaits := ws } }) ∧
    ∀ i j, j < 256 → (i, j) ≠ (0x2603, 3) → d.od' i j = c.od' i j

theorem Turned.refl (b : Block) : b.Turned b := ⟨⟨_, _, _, _, rfl⟩, fun _ _ _ _ => rfl⟩

theorem Turned.trans {b c d : Block} (h : b.Turned c) (h' : c.Turned d) : b.Turned d := by
  obtain ⟨⟨_, _, _, _, rfl⟩, keep⟩ := h
  obtain ⟨⟨_, _, _, _, rfl⟩, keep'⟩ := h'
  exact ⟨⟨_, _, _, _, rfl⟩, fun i j hj out => (keep' i j hj out).trans (keep i j hj out)⟩

theorem Granted.turned {b c : Block} (h : b.Granted c) : b.Turned c := by
  obtain ⟨⟨_, _, _, rfl⟩, keep⟩ := h
  exact ⟨⟨_, _, _, _, rfl⟩, fun i j hj out => keep i j hj (by simpa using out)⟩

theorem shareTurn_turned {b c d : Block} {id key : Nat} (h : b.shareTurn c id key = some d) : c.Turned d := by
  unfold shareTurn at h
  dsimp only at h
  split at h
  · cases h
    exact .refl c
  · obtain ⟨⟨g, e⟩, grant, same⟩ := Option.bind_eq_some_iff.1 h
    dsimp only at same
    split at same
    · cases same
      exact (grant_some grant).2.turned
    · cases same

theorem shareTurns_turned {b c d : Block} {id : Nat} (h : b.shareTurns c id = .ok d) : c.Turned d := by
  unfold shareTurns at h
  generalize hfold : List.foldl _ _ _ = x at h
  have turned : ∀ e, x = .ok e → c.Turned e := by
    rw [← hfold]
    refine List.foldlRecOn (motive := fun y : Except Nat Block => ∀ e, y = .ok e → c.Turned e) _ _ (fun e same => ?_) fun y kept k _ e same => ?_
    · cases same
      exact .refl c
    · cases y with
      | error k => cases same
      | ok g =>
        dsimp only at same
        cases turn : b.shareTurn g id k with
        | none => rw [turn] at same; cases same
        | some e' =>
          rw [turn] at same
          cases same
          exact (kept g rfl).trans (shareTurn_turned turn)
  cases x with
  | error k => cases h
  | ok e =>
    cases h
    exact (turned e rfl).trans ⟨⟨_, _, _, _, rfl⟩, fun _ _ _ _ => rfl⟩

end Block

/-- A step of a flow's work that goes on. -/
theorem workStep_of_goesOn {s : State} {f : Flow} {c e : Block} (inFlight : s.blk.flow? f.id = some f) (goes : GoesOn s c f) :
    ∃ d, c.Turned d ∧ workStep s f.id c e = finish s (d.modFlow f.id (fun g => { g with waitsOn := none })) := by
  obtain ⟨unblocked, whole, turns⟩ := goes
  have notCut : (((c.flow? f.id).map (·.cut)).getD f.cut && !f.cut) = false := by
    cases here : c.flow? f.id with
    | none => simp
    | some g =>
      rw [here] at whole
      cases cut : g.cut with
      | false => simp [cut]
      | true => simp [whole cut]
  cases turn : s.blk.shareTurns c f.id with
  | error k => rw [turn] at turns; cases turns
  | ok d =>
    refine ⟨d, Block.shareTurns_turned turn, ?_⟩
    unfold workStep
    dsimp only
    rw [inFlight, unblocked, if_neg Bool.false_ne_true, Option.map_some, Option.getD_some, notCut, if_neg Bool.false_ne_true, turn]

namespace Block

theorem readRun_reads (m : Memory) (b : Block) (f : Flow) (d a len : Nat) : b.Reads (readRun m b f d a len).2.2 := by
  unfold readRun
  split
  · exact readFor_reads ..
  · dsimp only
    split
    · exact .refl b
    · exact (readPiece_reads ..).trans (modFlow_reads _ _ fun _ => rfl)

end Block

theorem Block.Turned.slot {b c : Block} (h : b.Turned c) (n : Nat) : c.slot n = b.slot n := by
  obtain ⟨⟨_, _, _, _, rfl⟩, -⟩ := h
  rfl

theorem Block.Turned.queue? {b c : Block} (h : b.Turned c) (n : Nat) : c.queue? n = b.queue? n := by
  obtain ⟨⟨_, _, _, _, rfl⟩, -⟩ := h
  rfl

theorem Block.Turned.posted {b c : Block} (h : b.Turned c) : c.posted = b.posted := by
  obtain ⟨⟨_, _, _, _, rfl⟩, -⟩ := h
  rfl

/-- The run of a LOAD whose satchel k holds x. -/
theorem Block.loadRun_eq (m : Memory) {b : Block} {f : Flow} {n k : Nat} {x : Satchel} (fills : b.filling f = some k)
    (hx : (b.queue? (sdQueue (b.slot n).active)).bind (fun q => q.sats[k]?) = some x) :
    let sl := b.slot n
    let d := sl.active
    let len := sdElem d * runLength d (sl.pos / sdElem d) (ceilDiv (x.rows * sdRowBytes d - sl.part.length) (sdElem d)) 256 0
    let r := b.readRun m f d (sdAddr d (sl.pos / sdElem d)) len
    let marks := markRows sl.partPoison (sdRowBytes d) sl.part.length len x.rows r.2.1
    b.loadRun m f n =
      if (sl.part ++ r.1).length < x.rows * sdRowBytes d then
        r.2.2.putSlot { sl with pos := sl.pos + len, part := sl.part ++ r.1, partPoison := marks }
      else (r.2.2.putSlot { sl with pos := sl.pos + len, part := [], partPoison := [],
                                    poisonRows := sl.poisonRows + (marks.filter (fun x => x)).length }).modQueue (sdQueue d)
        (fun q => { q with sats := q.sats.modify k (fun x =>
          { x with data := pitchRows (sdRowBytes d) (sdPitch d) (sl.part ++ r.1), poison := marks }) }) := by
  intro sl d len r marks
  unfold Block.loadRun
  dsimp only
  rw [fills]
  dsimp only
  rw [hx]
  rfl

theorem Block.queue?_putSlot (b : Block) (sl : StreamSlot) (q : Nat) : (b.putSlot sl).queue? q = b.queue? q := by
  unfold Block.queue? Block.putSlot
  rfl

theorem Block.slot_modQueue (b : Block) (q : Nat) (g : SatQueue → SatQueue) (n : Nat) : (b.modQueue q g).slot n = b.slot n := by
  unfold Block.slot Block.modQueue
  rfl

theorem Block.posted_putSlot (b : Block) (sl : StreamSlot) : (b.putSlot sl).posted = b.posted := by
  unfold Block.putSlot
  exact Block.setOd_posted ..

theorem Block.posted_modQueue (b : Block) (q : Nat) (g : SatQueue → SatQueue) : (b.modQueue q g).posted = b.posted := rfl

/-- A satchel that is full at its rows. -/
def filledAt (k : Nat) (data : Bytes) (marks : List Bool) (q : SatQueue) : SatQueue :=
  { q with sats := q.sats.modify k (fun x => { x with data := data, poison := marks }) }

theorem run_read {r c : Block} {s1 s2 : StreamSlot} {q n k whole pos : Nat} {part data : Bytes} {x : Satchel} {marks : List Bool}
    (posted : r.posted = []) (h1 : s1.number = n) (h2 : s2.number = n) (pos1 : s1.pos = pos) (pos2 : s2.pos = pos)
    (kept : s1.part = part) (handed : s2.part = []) (hx : (r.queue? q).bind (fun q => q.sats[k]?) = some x)
    (turned : (if part.length < whole then r.putSlot s1 else (r.putSlot s2).modQueue q (filledAt k data marks)).Turned c) :
    (c.slot n).pos = pos ∧ c.posted = [] ∧ (part.length < whole → (c.slot n).part = part) ∧
      (whole ≤ part.length → (c.slot n).part = [] ∧
        ∃ y, (c.queue? q).bind (fun q => q.sats[k]?) = some y ∧ y.data = data) := by
  rw [turned.slot, turned.posted, turned.queue?]
  by_cases short : part.length < whole
  · have self := r.slot_putSlot_self s1
    rw [h1] at self
    rw [if_pos short, self, Block.posted_putSlot]
    exact ⟨pos1, posted, fun _ => kept, fun long => absurd short (Nat.not_lt.2 long)⟩
  · have self := r.slot_putSlot_self s2
    rw [h2] at self
    have full : ∃ y, (((r.putSlot s2).modQueue q (filledAt k data marks)).queue? q).bind (fun q => q.sats[k]?) = some y ∧ y.data = data := by
      obtain ⟨qu, hqu, hk⟩ := Option.bind_eq_some_iff.1 hx
      rw [Block.queue?_modQueue _ q (g := filledAt k data marks) fun _ => rfl, Block.queue?_putSlot, hqu]
      refine ⟨{ x with data := data, poison := marks }, ?_, rfl⟩
      simp [filledAt, hk]
    rw [if_neg short]
    rw [Block.slot_modQueue, self, Block.posted_modQueue, Block.posted_putSlot]
    exact ⟨pos2, posted, fun h => absurd h short, fun _ => ⟨handed, full⟩⟩

/-- A LOAD that has a satchel to fill reads one run. -/
theorem load_runs {s : State} {n k : Nat} {f : Flow} {b0 : Block} {x : Satchel} (hs : Settled s) (ready : s.blk.ready = true)
    (up : s.blk.suUp (n / 4) = true) (granted : s.blk.grantRun (n / 4) = some (n, b0))
    (hgen : (s.blk.slot n).gen.bind s.blk.flow? = some f) (load : sdKind (s.blk.slot n).active = 0) (fills : s.blk.filling f = some k)
    (hx : (s.blk.queue? (sdQueue (s.blk.slot n).active)).bind (fun q => q.sats[k]?) = some x)
    (goes : GoesOn s (b0.loadRun s.mem f n) f) :
    let sl := s.blk.slot n
    let d := sl.active
    let e := sl.pos / sdElem d
    let whole := x.rows * sdRowBytes d
    let len := sdElem d * runLength d e (ceilDiv (whole - sl.part.length) (sdElem d)) 256 0
    let part := sl.part ++ (b0.readRun s.mem f d (sdAddr d e) len).1
    Works (.streamRun n) s (fun b => (b.slot n).pos = sl.pos + len ∧ b.posted = [] ∧
        (part.length < whole → (b.slot n).part = part) ∧
        (whole ≤ part.length → (b.slot n).part = [] ∧ ∃ y, (b.queue? (sdQueue d)).bind (fun q => q.sats[k]?) = some y ∧
          y.data = Block.pitchRows (sdRowBytes d) (sdPitch d) part)) := by
  intro sl d e whole len part
  obtain ⟨id, gen, inFlight⟩ := Option.bind_eq_some_iff.1 hgen
  obtain rfl := flow?_id_eq inFlight
  have kept := grantRun_granted granted
  have exec_eq := exec_streamRun ready up granted hgen
  rw [load, if_pos (by decide)] at exec_eq
  obtain ⟨c, turned, done⟩ := workStep_of_goesOn (e := (s.blk.cutFlow f.id).endGen n stOrphaned) inFlight goes
  refine works_of_finish (exec_eq.trans done) ?_
  rw [← kept.filling] at fills
  rw [← kept.queue?, ← kept.slot] at hx
  have run := Block.loadRun_eq s.mem fills hx
  dsimp only at run
  rw [kept.slot] at run hx
  have reads := Block.readRun_reads s.mem b0 f d (sdAddr d e) len
  have posted : (b0.readRun s.mem f d (sdAddr d e) len).2.2.posted = [] := by
    rw [reads.posted]
    obtain ⟨⟨_, _, _, rfl⟩, -⟩ := kept
    exact hs.1
  have queues (q : Nat) : (b0.readRun s.mem f d (sdAddr d e) len).2.2.queue? q = b0.queue? q := by
    unfold Block.queue?
    rw [reads.streams]
  have number : sl.number = n := s.blk.slot_number n
  rw [run] at turned
  exact run_read (c := c) (x := x) posted (by exact number) (by exact number) rfl rfl rfl rfl (by rw [queues]; exact hx) turned

end Sys2Proof.Machine

/-! ### A STORE's run (R340, R361, R363, R399) -/

namespace Sys2Proof.Machine

theorem EndOf.slot {s t : State} {b : Block} (h : EndOf s b t) (n : Nat) : t.blk.slot n = b.slot n := by
  unfold Block.slot
  rw [h.streams]

/-- c is the block of s after part of the run of a STORE: its slot is sl, and for its flow f the requests rs were asked. -/
structure StoreRun (s : State) (f : Flow) (sl : StreamSlot) (rs : List AgentReq) (c : Block) : Prop where
  slot : c.slot sl.number = sl
  others : ∀ j, j ≠ sl.number → c.slot j = s.blk.slot j
  flow : ∃ g, c.flow? f.id = some g ∧ g.cut = f.cut ∧ g.windows = f.windows
  alike : s.blk.HoldsAlike c
  queue : c.agents.queue = if s.blk.effectsHeld f then s.blk.agents.queue else s.blk.agents.queue ++ rs
  heldBack : c.heldBack = if s.blk.effectsHeld f then rs else []
  raised : c.raised = []
  posted : c.posted = []
  blocked : c.blocked = false
  moved : c.agents.moved = s.blk.agents.moved

namespace StoreRun

variable {s : State} {f : Flow} {sl : StreamSlot} {rs : List AgentReq} {c : Block}

theorem asking (h : StoreRun s f sl [] c) (rs : List AgentReq) : StoreRun s f sl rs (c.asking (s.blk.effectsHeld f) rs) := by
  obtain ⟨slot, others, flow, alike, queue, heldBack, raised, posted, blocked, moved⟩ := h
  refine ⟨slot, others, flow, ⟨alike.keys, alike.arms⟩, ?_, ?_, raised, posted, blocked, moved⟩
  · show (if _ then c.agents.queue else c.agents.queue ++ rs) = _
    rw [queue]
    split <;> simp
  · show (if _ then c.heldBack ++ rs else c.heldBack) = _
    rw [heldBack]
    split <;> rfl

theorem withOd (h : StoreRun s f sl rs c) (od : NatMap) : StoreRun s f sl rs { c with od := od } :=
  ⟨h.slot, h.others, h.flow, ⟨h.alike.keys, h.alike.arms⟩, h.queue, h.heldBack, h.raised, h.posted, h.blocked, h.moved⟩

theorem count (h : StoreRun s f sl rs c) (i j n : Nat) : StoreRun s f sl rs (c.count i j n) := h.withOd _

theorem modQueue (h : StoreRun s f sl rs c) (q : Nat) (g : SatQueue → SatQueue) : StoreRun s f sl rs (c.modQueue q g) :=
  ⟨h.slot, h.others, h.flow, ⟨h.alike.keys, h.alike.arms⟩, h.queue, h.heldBack, h.raised, h.posted, h.blocked, h.moved⟩

theorem modFlow (h : StoreRun s f sl rs c) {g : Flow → Flow} (key : ∀ x, Block.holdKey (g x) = Block.holdKey x)
    (cut : ∀ x, (g x).cut = x.cut) (windows : ∀ x, (g x).windows = x.windows) : StoreRun s f sl rs (c.modFlow f.id g) := by
  obtain ⟨slot, others, ⟨x, here, same, mapped⟩, alike, queue, heldBack, raised, posted, blocked, moved⟩ := h
  refine ⟨slot, others, ⟨g x, ?_, (cut x).trans same, (windows x).trans mapped⟩, alike.trans (c.modFlow_holdsAlike f.id key),
    queue, heldBack, raised, posted, blocked, moved⟩
  rw [Block.flow?_modFlow_self (fun y => congrArg Prod.fst (key y)), here]
  rfl

theorem wentOn (h : StoreRun s f sl rs c) : StoreRun s f sl rs (c.wentOn f.id) := by
  have stays : StoreRun s f sl rs { c with agents := { c.agents with shareWaits := c.agents.shareWaits.filter (fun w => w.2 != f.id) } } :=
    ⟨h.slot, h.others, h.flow, ⟨h.alike.keys, h.alike.arms⟩, h.queue, h.heldBack, h.raised, h.posted, h.blocked, h.moved⟩
  exact stays.modFlow (fun _ => rfl) (fun _ => rfl) fun _ => rfl

/-- The flow's effects are held as they were. -/
theorem holdsBack (h : StoreRun s f sl rs c) (inFlight : s.blk.flow? f.id = some f) : c.holdsBack f.id = s.blk.effectsHeld f := by
  rw [h.alike.holdsBack]
  unfold Block.holdsBack
  rw [inFlight]
  rfl

theorem crcWord (h : StoreRun s f sl rs c) (inFlight : s.blk.flow? f.id = some f) (a : Nat) : c.crcWord f.id a = s.blk.crcWord f.id a := by
  obtain ⟨g, here, -, same⟩ := h.flow
  unfold Block.crcWord
  rw [here, inFlight, Option.map_some, Option.map_some, same]

/-- What the run gives, once the step has ended. -/
theorem gives {n : Nat} {e : Block} {P : State → Prop} (h : StoreRun s f sl rs c) (inFlight : s.blk.flow? f.id = some f)
    (own : ∀ r ∈ rs, r.flow = some f.id) (hexec : exec (.streamRun n) s = workStep s f.id c e)
    (hP : ∀ t : State, t.blk.slot sl.number = sl → (∀ j, j ≠ sl.number → t.blk.slot j = s.blk.slot j) → t.mem = s.mem →
      (t.blk.agents.queue = if s.blk.effectsHeld f then s.blk.agents.queue else s.blk.agents.queue ++ rs) →
      (t.blk.heldBack = if s.blk.effectsHeld f then rs else []) → P t) : Gives (.streamRun n) s P := by
  obtain ⟨g, here, cut, -⟩ := h.flow
  have done := workStep_goesOn (e := e) h.blocked (fun x found isCut => by
    rw [here] at found
    cases found
    rw [inFlight, Option.map_some, Option.getD_some, ← cut]
    exact isCut) h.moved
  have ends := h.wentOn
  generalize c.wentOn f.id = d at done ends
  have held := ends.holdsBack inFlight
  refine gives_of_endOf_held (hexec.trans done) ends.raised (fun r hr => ?_) fun t tends => hP t ?_ (fun j other => ?_) ?_ ?_ ?_
  · rw [ends.heldBack] at hr
    split at hr
    next stays =>
      rw [own r hr]
      exact held.trans stays
    next => cases hr
  · exact (tends.slot _).trans ends.slot
  · exact (tends.slot j).trans (ends.others j other)
  · rw [tends.mem, ends.posted]
    rfl
  · rw [tends.queue, ends.queue]
  · rw [tends.heldBack, ends.heldBack]

end StoreRun

/-- The end of a STORE's run: its satchel released, or the bytes that it has taken noted. -/
def endOfRun (b : Block) (f : Flow) (q used : Nat) (last : Bool) : Block :=
  if last then (b.releaseHeld q f.id).modFlow f.id (fun g => { g with taken := 0 }) else b.modFlow f.id (fun g => { g with taken := used })

theorem StoreRun.endOfRun {s : State} {f : Flow} {sl : StreamSlot} {rs : List AgentReq} {c : Block} (h : StoreRun s f sl rs c)
    (q used : Nat) (last : Bool) : StoreRun s f sl rs (Machine.endOfRun c f q used last) := by
  unfold Machine.endOfRun
  split
  · exact (h.modQueue _ _).modFlow (fun _ => rfl) (fun _ => rfl) fun _ => rfl
  · exact h.modFlow (fun _ => rfl) (fun _ => rfl) fun _ => rfl

/-- A slot put in place of one with the same command leaves the effects of generations held as they were. -/
theorem Block.putSlot_holdsAlike {b : Block} {sl old : StreamSlot}
    (here : b.streams.slots.find? (fun x => x.number == sl.number) = some old) (arm : sl.arm = old.arm) : b.HoldsAlike (b.putSlot sl) := by
  have flows : (b.putSlot sl).flows = b.flows := by
    obtain ⟨od, st, put⟩ := b.putSlot_form sl
    rw [put]
  refine ⟨by rw [flows], fun k => ?_⟩
  by_cases same : k = sl.number
  · rw [same, b.find?_putSlot_self, here, Option.map_some, Option.map_some, arm]
  · rw [b.find?_putSlot_other sl same]

theorem Block.find?_of_gen {b : Block} {n : Nat} {f : Flow} (hgen : (b.slot n).gen.bind b.flow? = some f) :
    b.streams.slots.find? (fun x => x.number == n) = some (b.slot n) := by
  unfold Block.slot at hgen ⊢
  cases here : b.streams.slots.find? (fun x => x.number == n) with
  | none => rw [here] at hgen; cases hgen
  | some x => rfl

/-- A STORE's run begins with its slot moved on. -/
theorem StoreRun.start {s : State} {n : Nat} {f : Flow} {c : Block} (hs : Settled s) (hgen : (s.blk.slot n).gen.bind s.blk.flow? = some f)
    (form : ∃ od row waits k, c = { s.blk with od := od, freeCount := k, streams := { s.blk.streams with finiteRow := row, waits := waits } })
    {sl : StreamSlot} (number : sl.number = n) (arm : sl.arm = (s.blk.slot n).arm) : StoreRun s f sl [] (c.putSlot sl) := by
  obtain ⟨noWrite, unblocked, ⟨noFault, noneHeld, -⟩, -⟩ := hs
  obtain ⟨id, gen, inFlight⟩ := Option.bind_eq_some_iff.1 hgen
  obtain rfl := flow?_id_eq inFlight
  obtain ⟨od, row, waits, k, rfl⟩ := form
  have here := Block.find?_of_gen hgen
  rw [← number] at here
  rw [← number] at arm
  generalize hc : ({ s.blk with od := od, freeCount := k, streams := { s.blk.streams with finiteRow := row, waits := waits } } : Block) = c
  have slots : c.streams.slots = s.blk.streams.slots := by rw [← hc]
  have here' : c.streams.slots.find? (fun x => x.number == sl.number) = some (s.blk.slot sl.number) := by rw [slots]; exact here
  have alike := Block.putSlot_holdsAlike here' arm
  have before : s.blk.HoldsAlike c := by rw [← hc]; exact ⟨rfl, fun _ => rfl⟩
  have slot (j : Nat) : c.slot j = s.blk.slot j := by unfold Block.slot; rw [slots]
  have flow : c.flow? f.id = some f := by rw [← hc]; exact inFlight
  obtain ⟨od', st, put⟩ := c.putSlot_form sl
  have same : (c.putSlot sl).flow? f.id = some f := by
    rw [put]
    exact flow
  refine ⟨c.slot_putSlot_self sl, fun j other => (c.slot_putSlot_other sl other).trans (slot j), ⟨f, same, rfl, rfl⟩,
    before.trans alike, ?_, ?_, ?_, ?_, ?_, ?_⟩ <;> rw [put, ← hc]
  · simp
  · simpa using noneHeld
  · exact noFault
  · exact noWrite
  · exact unblocked

end Sys2Proof.Machine

namespace Sys2Proof.Machine

/-- What a run of a STORE takes from its satchel x: its length, its bytes, and its slot moved on. -/
def storeLength (sl : StreamSlot) (f : Flow) (x : Satchel) : Nat :=
  sdElem sl.active * runLength sl.active (sl.pos / sdElem sl.active)
    (ceilDiv (min (x.rows * sdRowBytes sl.active - f.taken) (sdTotal sl.active - sl.pos)) (sdElem sl.active)) 256 0

/-- The slot of a STORE moved on by a run. -/
def storedSlot (sl : StreamSlot) (f : Flow) (x : Satchel) (part : Bytes) (marks : List Bool) : StreamSlot :=
  { sl with pos := sl.pos + storeLength sl f x, part := part, partPoison := marks,
            poisonRows := sl.poisonRows + ((List.range x.rows).filter (fun i =>
              x.poison.getD i false && f.taken ≤ i * sdRowBytes sl.active && i * sdRowBytes sl.active < f.taken + storeLength sl f x)).length }

/-- What a STORE's run asks for: its bytes at once, or, with CRC, a block that they fill. -/
def storeAsks (b c : Block) (f : Flow) (n : Nat) (x : Satchel) (mark : Bool) : Block :=
  let sl := b.slot n
  let d := sl.active
  let a := sdAddr d (sl.pos / sdElem d)
  let bytes := slice (b.storeRows d x).1 f.taken (storeLength sl f x)
  if !sdCrc d then (c.putSlot (storedSlot sl f x sl.part sl.partPoison)).writeOut f.id a bytes
  else if (sl.part ++ bytes).length < 4096 then c.putSlot (storedSlot sl f x (sl.part ++ bytes) [mark])
  else (c.putSlot (storedSlot sl f x [] [])).writeBlock f.id (a / 4096 * 4096) (sl.part ++ bytes) mark

theorem storeRun_eq {b : Block} {f : Flow} {x : Satchel} (n : Nat) (empties : b.emptying f = some x) : ∃ c mark used last,
    (c = b ∨ c = b.fresh.2) ∧ b.storeRun f n = endOfRun (storeAsks b c f n x mark) f (sdQueue (b.slot n).active) used last := by
  refine ⟨(b.storeRows (b.slot n).active x).2, (List.range x.rows).any (fun i =>
    x.poison.getD i false && i * sdRowBytes (b.slot n).active < f.taken + storeLength (b.slot n) f x &&
      f.taken < i * sdRowBytes (b.slot n).active + sdRowBytes (b.slot n).active) || (b.slot n).partPoison.any (fun p => p),
    f.taken + storeLength (b.slot n) f x,
    decide (x.rows * sdRowBytes (b.slot n).active ≤ f.taken + storeLength (b.slot n) f x ∨
      sdTotal (b.slot n).active ≤ (b.slot n).pos + storeLength (b.slot n) f x), ?_, ?_⟩
  · unfold Block.storeRows
    dsimp only
    split
    · exact .inr rfl
    · exact .inl rfl
  · unfold Block.storeRun endOfRun storeAsks
    dsimp only
    rw [empties]
    dsimp only
    simp only [Bool.or_eq_true, decide_eq_true_eq]
    rfl

end Sys2Proof.Machine

namespace Sys2Proof.Machine

theorem Block.Granted.emptying {b c : Block} (h : b.Granted c) (f : Flow) : c.emptying f = b.emptying f := by
  unfold Block.emptying Block.heldBy
  congr 1
  funext q
  rw [h.queue?]

theorem Block.Granted.storeRows {b c : Block} (h : b.Granted c) (d : Nat) (x : Satchel) : (c.storeRows d x).1 = (b.storeRows d x).1 := by
  obtain ⟨⟨_, _, _, rfl⟩, -⟩ := h
  rfl

/-- What the requests of a flow are once a step has ended: held back, or asked of the agents. -/
def AskedFor (s t : State) (f : Flow) (rs : List AgentReq) : Prop :=
  if s.blk.effectsHeld f then t.blk.heldBack = rs ∧ t.blk.agents.queue = s.blk.agents.queue
  else t.blk.heldBack = [] ∧ t.blk.agents.queue = s.blk.agents.queue ++ rs

section
variable {s : State} {n : Nat} {f : Flow} {b0 : Block} {x : Satchel} (hs : Settled s) (ready : s.blk.ready = true)
  (up : s.blk.suUp (n / 4) = true) (granted : s.blk.grantRun (n / 4) = some (n, b0))
  (hgen : (s.blk.slot n).gen.bind s.blk.flow? = some f) (store : sdKind (s.blk.slot n).active ≠ 0) (empties : s.blk.emptying f = some x)
include hs ready up granted hgen store empties

/-- A STORE's run gives what its requests and its slot say. -/
theorem gives_of_storeRun {P : State → Prop}
    (asks : ∀ c mark, (∀ sl, sl.number = n → sl.arm = (s.blk.slot n).arm → StoreRun s f sl [] (c.putSlot sl)) →
      ∃ part marks rs, (∀ r ∈ rs, r.flow = some f.id) ∧
        StoreRun s f (storedSlot (s.blk.slot n) f x part marks) rs (storeAsks b0 c f n x mark) ∧
        ∀ t : State, (t.blk.slot n).pos = (s.blk.slot n).pos + storeLength (s.blk.slot n) f x → (t.blk.slot n).part = part →
          t.mem = s.mem → (∀ j, j ≠ n → t.blk.slot j = s.blk.slot j) → AskedFor s t f rs → P t) : Gives (.streamRun n) s P := by
  obtain ⟨id, gen, inFlight⟩ := Option.bind_eq_some_iff.1 hgen
  obtain rfl := flow?_id_eq inFlight
  have kept := grantRun_granted granted
  have exec_eq := exec_streamRun ready up granted hgen
  obtain ⟨c, mark, used, last, fresh, run⟩ := storeRun_eq n ((kept.emptying f).trans empties)
  rw [if_neg (by simpa using store), run] at exec_eq
  have form : ∃ od row waits k, c = { s.blk with
      od := od, freeCount := k, streams := { s.blk.streams with finiteRow := row, waits := waits } } := by
    obtain ⟨⟨_, _, _, rfl⟩, -⟩ := kept
    obtain rfl | rfl := fresh <;> exact ⟨_, _, _, _, rfl⟩
  obtain ⟨part, marks, rs, own, done, hP⟩ := asks c mark fun sl number arm => StoreRun.start hs hgen form number arm
  have number : (storedSlot (s.blk.slot n) f x part marks).number = n := s.blk.slot_number n
  have ended := done.endOfRun (sdQueue (b0.slot n).active) used last
  refine ended.gives inFlight own exec_eq fun t slot others memory queue heldBack => ?_
  rw [number] at slot others
  refine hP t (by rw [slot]; rfl) (by rw [slot]; rfl) memory others ?_
  unfold AskedFor
  split
  next held => rw [if_pos held] at queue heldBack; exact ⟨heldBack, queue⟩
  next free => rw [if_neg free] at queue heldBack; exact ⟨heldBack, queue⟩

omit hs ready up store empties in
/-- A STORE without CRC asks the owners of its run's units to write its bytes. -/
theorem storeAsks_plain (plain : sdCrc (s.blk.slot n).active = false) {c : Block} {mark : Bool}
    (start : ∀ sl, sl.number = n → sl.arm = (s.blk.slot n).arm → StoreRun s f sl [] (c.putSlot sl)) :
    StoreRun s f (storedSlot (s.blk.slot n) f x (s.blk.slot n).part (s.blk.slot n).partPoison)
      ((cutPages (sdAddr (s.blk.slot n).active ((s.blk.slot n).pos / sdElem (s.blk.slot n).active)) (storeLength (s.blk.slot n) f x)).map
        (fun p => Block.writeAsked f.id p.1 (slice (slice (s.blk.storeRows (s.blk.slot n).active x).1 f.taken
          (storeLength (s.blk.slot n) f x)) (p.1 - sdAddr (s.blk.slot n).active ((s.blk.slot n).pos / sdElem (s.blk.slot n).active)) p.2) none))
      (storeAsks b0 c f n x mark) := by
  obtain ⟨id, gen, inFlight⟩ := Option.bind_eq_some_iff.1 hgen
  obtain rfl := flow?_id_eq inFlight
  have kept := grantRun_granted granted
  have run := start (storedSlot (s.blk.slot n) f x (s.blk.slot n).part (s.blk.slot n).partPoison) (s.blk.slot_number n) rfl
  unfold storeAsks
  dsimp only
  rw [kept.slot, kept.storeRows, plain, Bool.not_false, if_pos rfl, Block.writeOut_asking, run.holdsBack inFlight, slice_length]
  exact run.asking _

omit hs ready up hgen store empties in
/-- A STORE with CRC whose bytes do not fill a block asks for nothing. -/
theorem storeAsks_gathers (checked : sdCrc (s.blk.slot n).active = true) {c : Block} {mark : Bool} {part : Bytes}
    (hpart : (s.blk.slot n).part ++ slice (s.blk.storeRows (s.blk.slot n).active x).1 f.taken (storeLength (s.blk.slot n) f x) = part)
    (short : part.length < 4096)
    (start : ∀ sl, sl.number = n → sl.arm = (s.blk.slot n).arm → StoreRun s f sl [] (c.putSlot sl)) :
    StoreRun s f (storedSlot (s.blk.slot n) f x part [mark]) [] (storeAsks b0 c f n x mark) := by
  have kept := grantRun_granted granted
  have run := start (storedSlot (s.blk.slot n) f x part [mark]) (s.blk.slot_number n) rfl
  unfold storeAsks
  dsimp only
  rw [kept.slot, kept.storeRows, checked, Bool.not_true, if_neg Bool.false_ne_true, hpart, if_pos short]
  exact run

omit hs ready up store empties in
/-- A STORE with CRC whose bytes fill a block asks its owner to write it. -/
theorem storeAsks_block (checked : sdCrc (s.blk.slot n).active = true) {part : Bytes}
    (hpart : (s.blk.slot n).part ++ slice (s.blk.storeRows (s.blk.slot n).active x).1 f.taken (storeLength (s.blk.slot n) f x) = part)
    (full : 4096 ≤ part.length) (mark : Bool) :
    ∃ crc, (crc.isSome = (s.blk.crcWord f.id
        (sdAddr (s.blk.slot n).active ((s.blk.slot n).pos / sdElem (s.blk.slot n).active) / 4096 * 4096)).isSome) ∧
      ∀ c, (∀ sl, sl.number = n → sl.arm = (s.blk.slot n).arm → StoreRun s f sl [] (c.putSlot sl)) →
        StoreRun s f (storedSlot (s.blk.slot n) f x [] []) [Block.writeAsked f.id
          (sdAddr (s.blk.slot n).active ((s.blk.slot n).pos / sdElem (s.blk.slot n).active) / 4096 * 4096) part crc]
          (storeAsks b0 c f n x mark) := by
  obtain ⟨id, gen, inFlight⟩ := Option.bind_eq_some_iff.1 hgen
  obtain rfl := flow?_id_eq inFlight
  have kept := grantRun_granted granted
  generalize hbase : sdAddr (s.blk.slot n).active ((s.blk.slot n).pos / sdElem (s.blk.slot n).active) / 4096 * 4096 = base
  have asks (c : Block) : storeAsks b0 c f n x mark = (c.putSlot (storedSlot (s.blk.slot n) f x [] [])).writeBlock f.id base part mark := by
    unfold storeAsks
    dsimp only
    rw [kept.slot, kept.storeRows, checked, Bool.not_true, if_neg Bool.false_ne_true, hpart, if_neg (Nat.not_lt.2 full), hbase]
  cases word : s.blk.crcWord f.id base with
  | none =>
    refine ⟨none, rfl, fun c start => ?_⟩
    have run := start (storedSlot (s.blk.slot n) f x [] []) (s.blk.slot_number n) rfl
    rw [asks]
    unfold Block.writeBlock
    rw [run.crcWord inFlight, word]
    dsimp only
    rw [Block.requestWrite_asking, run.holdsBack inFlight]
    exact (run.asking _).count ..
  | some w =>
    refine ⟨some (w, if mark then crc32c part ^^^ 0xFFFF_FFFF else crc32c part), rfl, fun c start => ?_⟩
    have run := start (storedSlot (s.blk.slot n) f x [] []) (s.blk.slot_number n) rfl
    rw [asks]
    unfold Block.writeBlock
    rw [run.crcWord inFlight, word]
    dsimp only
    rw [Block.requestWrite_asking, run.holdsBack inFlight]
    exact run.asking _

end

/-- Settles O43, by what a LOAD without a satchel, a LOAD with one and a STORE do with their run. -/
theorem streamRunsMoveOn : Obligations.StreamRunsMoveOn := by
  unfold Obligations.StreamRunsMoveOn
  intro s n f b0 hs ready up granted hgen
  dsimp only
  refine ⟨fun load empty => load_claims hs ready up granted hgen load empty,
    fun k x load fills hx goes => load_runs hs ready up granted hgen load fills hx goes, fun x store empties => ?_⟩
  by_cases checked : sdCrc (s.blk.slot n).active = true
  · by_cases short : ((s.blk.slot n).part ++ slice (s.blk.storeRows (s.blk.slot n).active x).1 f.taken
      (storeLength (s.blk.slot n) f x)).length < 4096
    · refine gives_of_storeRun hs ready up granted hgen store empties fun c mark start => ⟨_, _, _, (fun r hr => by cases hr),
        storeAsks_gathers granted checked rfl short start, fun t pos part memory others asked => ?_⟩
      exact ⟨pos, memory, others, fun plain => absurd (checked.symm.trans plain) (by decide), fun _ _ => ⟨asked, part⟩,
        fun _ full => absurd full (Nat.not_le.2 short)⟩
    · refine gives_of_storeRun hs ready up granted hgen store empties fun c mark start => ?_
      obtain ⟨crc, isSome, run⟩ := storeAsks_block granted hgen checked rfl (Nat.not_lt.1 short) mark
      refine ⟨_, _, _, fun r hr => by rw [List.mem_singleton.1 hr], run c start, fun t pos part memory others asked => ?_⟩
      exact ⟨pos, memory, others, fun plain => absurd (checked.symm.trans plain) (by decide), fun _ h => absurd h short,
        fun _ _ => ⟨part, crc, isSome, asked⟩⟩
  · have plain : sdCrc (s.blk.slot n).active = false := by simpa using checked
    refine gives_of_storeRun hs ready up granted hgen store empties fun c mark start => ⟨_, _, _, fun r hr => ?_,
      storeAsks_plain granted hgen plain start, fun t pos part memory others asked => ?_⟩
    · obtain ⟨p, -, rfl⟩ := List.mem_map.1 hr
      rfl
    · exact ⟨pos, memory, others, fun _ => asked, fun h => absurd h checked, fun h => absurd h checked⟩

end Sys2Proof.Machine

/-! ### What the vector engine's work leaves of its queues (R265, R284) -/

namespace Sys2Proof.Machine
namespace Block

/-- c is b but for what leaves the wings' tile queues, direct feeds, counts of tiles and blocks taken, and the tiles that the
vector engine has formed of each flow as they were. -/
structure Aside (b c : Block) : Prop where
  tiles : ∀ w, (c.engine w).tileQueue = (b.engine w).tileQueue
  feed : ∀ w, (c.engine w).feed = (b.engine w).feed
  formed : c.flows.map formedKey = b.flows.map formedKey
  od : ∀ i ∈ [0x2111, 0x2191], ∀ j ∈ [5, 6], c.od' i j = b.od' i j

theorem Aside.refl (b : Block) : b.Aside b := ⟨fun _ => rfl, fun _ => rfl, rfl, fun _ _ _ _ => rfl⟩

theorem Aside.trans {b c d : Block} (h : b.Aside c) (h' : c.Aside d) : b.Aside d :=
  ⟨fun w => (h'.tiles w).trans (h.tiles w), fun w => (h'.feed w).trans (h.feed w), h'.formed.trans h.formed,
    fun i hi j hj => (h'.od i hi j hj).trans (h.od i hi j hj)⟩

/-- A change of neither the wings nor the dictionary, nor of the tiles formed. -/
theorem Aside.of_eq {b c : Block} (north : c.north = b.north) (south : c.south = b.south)
    (formed : c.flows.map formedKey = b.flows.map formedKey) (od : c.od = b.od) : b.Aside c :=
  ⟨fun w => by cases w <;> simp only [engine, north, south], fun w => by cases w <;> simp only [engine, north, south], formed,
    fun i _ j _ => od'_congr c b od i j⟩

theorem Reads.aside {b c : Block} (h : b.Reads c) : b.Aside c :=
  ⟨fun w => by cases w <;> simp only [engine, h.north, h.south], fun w => by cases w <;> simp only [engine, h.north, h.south], h.formed,
    fun i hi j hj => h.od i hi j (by fin_cases hj <;> decide)⟩

theorem Aside.foldl {α : Type} {g : Block → α → Block} (hg : ∀ (b : Block) x, b.Aside (g b x)) (l : List α) (b : Block) : b.Aside (l.foldl g b) :=
  List.foldlRecOn (motive := b.Aside) _ _ (.refl b) fun c kept x _ => kept.trans (hg c x)

/-- The same for work that also gathers something. -/
theorem Aside.foldl_snd {α β : Type} {g : β × Block → α → β × Block} (hg : ∀ (x : β × Block) a, x.2.Aside (g x a).2) (l : List α) (x : β × Block) :
    x.2.Aside (l.foldl g x).2 :=
  List.foldlRecOn (motive := fun y : β × Block => x.2.Aside y.2) _ _ (.refl x.2) fun c kept a _ => kept.trans (hg c a)

theorem modFlow_aside (b : Block) (id : Nat) {g : Flow → Flow} (hg : ∀ f, formedKey (g f) = formedKey f) : b.Aside (b.modFlow id g) :=
  .of_eq rfl rfl (map_updFirst_of_eq formedKey _ _ hg _) rfl

theorem streams_aside (b : Block) (st : Streams) : b.Aside { b with streams := st } := .of_eq rfl rfl rfl rfl

/-- An entry that is no count of tiles or blocks taken. -/
theorem setOd_aside (b : Block) {i j : Nat} (v : Nat) (hj : j < 256)
    (out : i ∉ [0x2111, 0x2191] ∨ j ∉ [5, 6]) (h1 : odKey i j ≠ odKey 0x1000 6) (h2 : odKey i j ≠ odKey 0x2700 1) :
    b.Aside (b.setOd i j v) := by
  refine ⟨fun w => by cases w <;> rfl, fun w => by cases w <;> rfl, rfl, fun i' hi' j' hj' => ?_⟩
  have small : j' < 256 := by fin_cases hj' <;> decide
  refine setOd_od'_of_ne _ _ small hj (fun same => ?_) h1 h2
  cases same
  exact out.elim (fun h => h hi') (fun h => h hj')

theorem count_aside (b : Block) {i j : Nat} (n : Nat) (hj : j < 256)
    (out : i ∉ [0x2111, 0x2191] ∨ j ∉ [5, 6]) (h1 : odKey i j ≠ odKey 0x1000 6) (h2 : odKey i j ≠ odKey 0x2700 1) :
    b.Aside (b.count i j n) := setOd_aside b _ hj out h1 h2

theorem countVector_aside (b : Block) (w : Wing) {j : Nat} (n : Nat) (hj : j ∈ [1, 2, 4]) : b.Aside (b.count (vectorOd w) j n) := by
  cases w <;> fin_cases hj <;> exact count_aside b n (by decide) (.inr (by decide)) (by decide) (by decide)

theorem Sends.aside {b c : Block} (h : b.Sends c) : b.Aside c := by
  obtain ⟨⟨_, _, _, rfl⟩, keep⟩ := h
  refine ⟨fun w => by cases w <;> rfl, fun w => by cases w <;> rfl, rfl, fun i hi j hj => keep i j (by fin_cases hj <;> decide) ?_⟩
  fin_cases hi <;> simp

theorem TilesMoved.aside {b c : Block} (h : b.TilesMoved c) : b.Aside c := by
  obtain ⟨⟨_, _, _, _, _, rfl⟩, formed, keep⟩ := h
  refine ⟨fun w => by cases w <;> rfl, fun w => by cases w <;> rfl, formed, fun i hi j hj => keep i j (by fin_cases hj <;> decide) ?_⟩
  fin_cases hi <;> simp

/-! ### A chain's run (R262 to R278) -/

theorem loadProgram_aside (b : Block) (w : Wing) (bytes : Bytes) : b.Aside (b.loadProgram w bytes) := by
  have programs (ps : List Bytes) : b.Aside (b.setEngine w { b.engine w with programs := ps }) := by
    cases w <;> exact ⟨fun v => by cases v <;> rfl, fun v => by cases v <;> rfl, rfl, fun _ _ _ _ => rfl⟩
  unfold loadProgram
  dsimp only
  split
  · exact programs _
  · exact (programs _).trans (countVector_aside _ w 1 (by decide))

theorem countChain_aside (b : Block) (w : Wing) (s rows cols : Nat) : b.Aside (b.countChain w s rows cols) :=
  (countVector_aside b w _ (by decide)).trans (countVector_aside _ w _ (by decide))

theorem chainScalars_aside (m : Memory) (b : Block) (f : Flow) (p : Program) : b.Aside (chainScalars m b f p).2 := by
  unfold chainScalars
  dsimp only
  split
  · exact (fetchLines_reads ..).aside
  · exact (fetchLines_reads ..).aside.trans (modFlow_aside _ _ fun _ => rfl)

theorem runChain_aside (m : Memory) (b : Block) (w : Wing) (f : Flow) (slots col : Nat) (rows : List (Nat × List Num × Bool)) :
    b.Aside (runChain m b w f slots col rows).2 := by
  unfold runChain
  split
  · exact .refl b
  · exact (loadProgram_aside ..).trans ((chainScalars_aside ..).trans ((fetchLines_reads ..).aside.trans (countChain_aside ..)))

end Block
end Sys2Proof.Machine

/-! ### Output (R183 to R191, R254 to R257) -/

namespace Sys2Proof.Machine
namespace Block

theorem addPoison_aside (b : Block) (id n : Nat) : b.Aside (b.addPoison id n) := modFlow_aside _ _ fun _ => rfl

theorem tally_aside (b : Block) (id : Nat) (e : Enc) : b.Aside (b.tally id e) := modFlow_aside _ _ fun _ => rfl

theorem close_aside (b : Block) (id : Nat) : b.Aside (b.close id) := modFlow_aside _ _ fun _ => rfl

theorem requestWrite_aside (b : Block) (id : Option Nat) (a : Nat) (data : Bytes) (crc : Option (Nat × Nat)) :
    b.Aside (b.requestWrite id a data crc) := (request_reads ..).aside

theorem writeOut_aside (b : Block) (id a : Nat) (data : Bytes) : b.Aside (b.writeOut id a data) :=
  Aside.foldl (fun _ _ => requestWrite_aside ..) _ b

theorem writeBlock_aside (b : Block) (id base : Nat) (data : Bytes) (poison : Bool) : b.Aside (b.writeBlock id base data poison) := by
  unfold writeBlock
  split
  · exact (requestWrite_aside ..).trans (count_aside _ 1 (by decide) (.inl (by decide)) (by decide) (by decide))
  · exact requestWrite_aside ..

theorem writeArea_aside (b : Block) (id out stop : Nat) (runs : List OutBytes) : b.Aside (b.writeArea id out stop runs) :=
  Aside.foldl (fun _ _ => writeBlock_aside ..) _ b

theorem writeMap_aside (b : Block) (id addr : Nat) (marks : List Bool) : b.Aside (b.writeMap id addr marks) := by
  unfold writeMap
  split
  · exact .refl b
  · exact writeOut_aside ..

theorem rowBytes_aside (b : Block) (f : Flow) (o : OutSpec) (row : Nat) : b.Aside (b.rowBytes f o row).2 := by
  unfold rowBytes
  dsimp only
  split
  · exact .refl b
  · split
    · exact .refl b
    · exact tally_aside ..

/-- A count of poisoned outputs. -/
theorem poisoned_aside (b : Block) (id n : Nat) : b.Aside (if 0 < n then b.addPoison id n else b) := by
  split
  · exact addPoison_aside ..
  · exact .refl b

theorem writeRows_aside (b : Block) (f : Flow) (o : OutSpec) : b.Aside (b.writeRows f o) := by
  have rows := Aside.foldl_snd (g := fun (acc : List OutBytes × Block) i => (acc.1 ++ [(acc.2.rowBytes f o i).1], (acc.2.rowBytes f o i).2))
    (fun x i => rowBytes_aside ..) (List.range o.rows) ([], b)
  exact rows.trans ((writeArea_aside ..).trans ((writeMap_aside ..).trans (poisoned_aside ..)))

theorem endRows_aside (b : Block) (f : Flow) (o : OutSpec) : b.Aside (b.endRows f o).2 := by
  unfold endRows
  dsimp only
  split
  · exact writeRows_aside ..
  · exact (poisoned_aside ..).trans (writeMap_aside ..)

theorem addClaim_aside (b : Block) (c : GrantClaim) : b.Aside (b.addClaim c) := by
  obtain ⟨k, form⟩ := b.addClaim_eq c
  rw [form]
  exact (streams_aside b _).trans (count_aside _ k (by decide) (.inl (by decide)) (by decide) (by decide))

theorem claimTile_aside (b : Block) (o : OutSpec) (t : Tile) : b.Aside (b.claimTile o t) := by
  unfold claimTile
  split
  · exact addClaim_aside ..
  · exact (addClaim_aside ..).trans (moveTiles_tilesMoved ..).aside

theorem handTile_aside (b : Block) (f : Flow) (o : OutSpec) (ps : List OutPiece) (index : Nat) : b.Aside (b.handTile f o ps index) := by
  unfold handTile
  dsimp only
  refine Aside.trans (Aside.foldl_snd (fun x p => ?_) ps ([], b)) (claimTile_aside ..)
  dsimp only
  split
  · exact .refl _
  · split
    · exact .refl _
    · exact tally_aside ..

theorem handGroup_aside (b : Block) (f : Flow) (o : OutSpec) (g : Nat) : b.Aside (b.handGroup f o g) :=
  Aside.foldl (fun _ _ => handTile_aside ..) _ b

/-- A tile of the flow has been formed. -/
def tileFormed (ps : List OutPiece) (f : Flow) : Flow := { f with out := f.out ++ ps, tilesFormed := f.tilesFormed + 1 }

theorem addPieces_aside (b : Block) (id : Nat) (o : OutSpec) (ps : List OutPiece) (g c : Nat) :
    (b.modFlow id (tileFormed ps)).Aside (b.addPieces id o ps g c) := by
  unfold addPieces
  dsimp only
  split
  · exact .refl _
  · split
    · exact .refl _
    · exact handGroup_aside ..

/-! ### The end of a gather (R184 to R195), and what a block of rows gives up (R170, R253) -/

theorem Aside.ite {b c d : Block} (p : Prop) [Decidable p] (h : b.Aside c) (h' : b.Aside d) : b.Aside (if p then c else d) := by
  split <;> assumption

theorem writeVerbatim_aside (b : Block) (f : Flow) : b.Aside (b.writeVerbatim f) := by
  unfold writeVerbatim
  exact (Aside.ite _ (Aside.foldl (fun _ _ => claimTile_aside ..) _ b) (writeArea_aside ..)).trans ((writeMap_aside ..).trans
    ((poisoned_aside ..).trans (count_aside _ _ (by decide) (.inl (by decide)) (by decide) (by decide))))

theorem writeTransposed_aside (b : Block) (f : Flow) : b.Aside (b.writeTransposed f) := by
  unfold writeTransposed
  dsimp only
  generalize hr : List.foldl _ _ _ = r
  have rows : b.Aside r.2.2 := by
    rw [← hr]
    exact List.foldlRecOn (motive := fun x : List OutBytes × List Bool × Block => b.Aside x.2.2) _ _ (.refl b)
      fun x kept i _ => kept.trans (rowBytes_aside ..)
  exact rows.trans <| (writeArea_aside ..).trans ((writeMap_aside ..).trans ((poisoned_aside ..).trans
    (count_aside _ _ (by decide) (.inl (by decide)) (by decide) (by decide))))

theorem endGather_aside (b : Block) (id : Nat) : b.Aside (b.endGather id) := by
  unfold endGather
  split
  · exact .refl b
  · dsimp only
    split
    · exact (writeVerbatim_aside ..).trans (close_aside ..)
    · split
      · exact (writeTransposed_aside ..).trans (close_aside ..)
      · exact (endRows_aside ..).trans ((count_aside _ _ (by decide) (.inl (by decide)) (by decide) (by decide)).trans (close_aside ..))

theorem consumeRows_aside (b : Block) (id : Nat) (l : List (Nat × Nat)) : b.Aside (b.consumeRows id l) := modFlow_aside _ _ fun _ => rfl

theorem vecRelease_aside (b : Block) (f : Flow) (p : Pass) : b.Aside (b.vecRelease f p) := by
  unfold vecRelease
  split
  · exact .refl b
  · split
    · exact (streams_aside b _).trans (modFlow_aside _ _ fun _ => rfl)
    · exact .refl b

end Block
end Sys2Proof.Machine

/-! ### What the vector engine takes (R99, R239, R253, R265, R281) -/

namespace Sys2Proof.Machine
namespace Block

/-- c is b after work aside and one more tile formed of flow `id`, which makes n. -/
structure Forms (id n : Nat) (b c : Block) : Prop where
  tiles : ∀ w, (c.engine w).tileQueue = (b.engine w).tileQueue
  feed : ∀ w, (c.engine w).feed = (b.engine w).feed
  formed : ∃ g, c.flow? id = some g ∧ g.tilesFormed = n
  od : ∀ i ∈ [0x2111, 0x2191], ∀ j ∈ [5, 6], c.od' i j = b.od' i j

theorem formed_flow? (b : Block) (id : Nat) : (b.flow? id).map formedKey = (b.flows.map formedKey).find? (fun k => k.1 == id) := by
  unfold flow?
  rw [List.find?_map]
  rfl

theorem Aside.flow? {b c : Block} (h : b.Aside c) {id : Nat} {f : Flow} (here : b.flow? id = some f) :
    ∃ g, c.flow? id = some g ∧ g.tilesFormed = f.tilesFormed := by
  have same : (c.flow? id).map formedKey = some (formedKey f) := by rw [formed_flow?, h.formed, ← formed_flow?, here]; rfl
  obtain ⟨g, found, key⟩ := Option.map_eq_some_iff.1 same
  exact ⟨g, found, congrArg Prod.snd key⟩

theorem Forms.aside {id n : Nat} {b c d : Block} (h : Forms id n b c) (h' : c.Aside d) : Forms id n b d := by
  obtain ⟨g, here, formed⟩ := h.formed
  obtain ⟨g', here', same⟩ := h'.flow? here
  exact ⟨fun w => (h'.tiles w).trans (h.tiles w), fun w => (h'.feed w).trans (h.feed w), ⟨g', here', same.trans formed⟩,
    fun i hi j hj => (h'.od i hi j hj).trans (h.od i hi j hj)⟩

theorem Aside.forms {id n : Nat} {b c d : Block} (h : b.Aside c) (h' : Forms id n c d) : Forms id n b d :=
  ⟨fun w => (h'.tiles w).trans (h.tiles w), fun w => (h'.feed w).trans (h.feed w), h'.formed,
    fun i hi j hj => (h'.od i hi j hj).trans (h.od i hi j hj)⟩

theorem modFlow_forms {b : Block} {id : Nat} {f : Flow} (here : b.flow? id = some f) {g : Flow → Flow} (keeps : ∀ x, (g x).id = x.id)
    (more : ∀ x, (g x).tilesFormed = x.tilesFormed + 1) : Forms id (f.tilesFormed + 1) b (b.modFlow id g) :=
  ⟨fun w => by cases w <;> rfl, fun w => by cases w <;> rfl, ⟨g f, by rw [flow?_modFlow_self keeps, here]; rfl, more f⟩,
    fun _ _ _ _ => rfl⟩

/-- A tile's pieces, once the chain has run. -/
theorem addPieces_forms {b c : Block} {id : Nat} {f : Flow} (h : b.Aside c) (here : b.flow? id = some f) (o : OutSpec)
    (ps : List OutPiece) (g k : Nat) : Forms id (f.tilesFormed + 1) b (c.addPieces id o ps g k) := by
  obtain ⟨f', here', same⟩ := h.flow? here
  have pieces := (modFlow_forms here' (g := tileFormed ps) (fun _ => rfl) fun _ => rfl).aside (addPieces_aside c id o ps g k)
  rw [same] at pieces
  exact h.forms pieces

section
variable {b : Block} {f : Flow} (here : b.flow? f.id = some f) (m : Memory) (w : Wing)
include here

theorem projectTake_forms (t : EngineTile) : Forms f.id (f.tilesFormed + 1) b (b.projectTake m w f t) := by
  have pieces (rows : List (Nat × List Num × Bool)) (o : OutSpec) (ps : List OutPiece) :=
    addPieces_forms (runChain_aside m b w f f.pjChain t.col rows) here o ps t.group t.col
  unfold projectTake
  dsimp only
  split
  · exact pieces ..
  · split
    · exact pieces ..
    · exact ((pieces ..).aside (endRows_aside ..)).aside (close_aside ..)

theorem vecTake_forms (p : Pass) : Forms f.id (f.tilesFormed + 1) b (b.vecTake m w f p) := by
  have pieces (rows : List (Nat × List Num × Bool)) (o : OutSpec) (ps : List OutPiece) :=
    (addPieces_forms (runChain_aside m b w f f.vcChain p.col rows) here o ps p.group p.col).aside (vecRelease_aside _ f p)
  unfold vecTake
  dsimp only
  split
  · exact pieces ..
  · split
    · exact pieces ..
    · exact ((pieces ..).aside (endRows_aside ..)).aside (close_aside ..)

theorem gatherPieces_forms {c : Block} (h : b.Aside c) (ps : List OutPiece) (g k : Nat) :
    Forms f.id (f.tilesFormed + 1) b (c.gatherPieces f ps g k) := by
  unfold gatherPieces
  dsimp only
  split
  · exact (addPieces_forms h here ..).aside (endGather_aside ..)
  · exact addPieces_forms h here ..

theorem poolTake_forms (t : EngineTile) : Forms f.id (f.tilesFormed + 1) b (b.poolTake m w f t) := by
  unfold poolTake
  exact gatherPieces_forms here ((Aside.ite _ (countChain_aside ..) (.refl b)).trans (runChain_aside ..)) _ _ _

theorem feedTake_forms (p : Pass) : Forms f.id (f.tilesFormed + 1) b (b.feedTake m w f p) := by
  unfold feedTake
  exact gatherPieces_forms here ((consumeRows_aside ..).trans ((Aside.ite _ (.refl _) (countChain_aside ..)).trans (runChain_aside ..))) _ _ _

theorem recallTake_forms (t : EngineTile) : Forms f.id (f.tilesFormed + 1) b (b.recallTake m w f t) := by
  unfold recallTake
  exact addPieces_forms ((Aside.ite _ (countChain_aside ..) (.refl b)).trans (runChain_aside ..)) here ..

theorem rawTake_forms (p : Pass) : Forms f.id (f.tilesFormed + 1) b (b.rawTake m w f p) := by
  unfold rawTake
  exact addPieces_forms ((consumeRows_aside ..).trans (runChain_aside ..)) here ..

omit here m in
/-- A flow whose tile of scores has been taken. -/
def scored (sats : Nat) (r : RecallWork) (g : Flow) : Flow :=
  { g with tilesFormed := g.tilesFormed + 1, sat := g.sat + sats, search := some r }

omit m in
theorem scoreTake_forms (t : EngineTile) : Forms f.id (f.tilesFormed + 1) b (b.scoreTake w f t) := by
  have counted (c : Block) {j : Nat} (n : Nat) (hj : j < 256) : c.Aside (c.count 0x2302 j n) :=
    count_aside c n hj (.inl (by decide)) (by unfold odKey; omega) (by unfold odKey; omega)
  have start (sats : Nat) (r : RecallWork) : Forms f.id (f.tilesFormed + 1) b (b.modFlow f.id (scored sats r)) :=
    modFlow_forms here (fun _ => rfl) fun _ => rfl
  unfold scoreTake
  dsimp only
  generalize hc : b.modFlow f.id _ = c
  have begun : Forms f.id (f.tilesFormed + 1) b c := by
    rw [← hc]
    exact start ..
  refine (begun.aside ?_).aside (poisoned_aside ..)
  exact ((((counted (j := 1) _ _ (by decide)).trans (counted (j := 2) _ _ (by decide))).trans (counted (j := 4) _ _ (by decide))).trans
    ((countChain_aside ..).trans (countVector_aside _ w (j := 1) _ (by decide)))).trans
    (Aside.ite _ (countVector_aside _ w (j := 1) _ (by decide)) (.refl _))

end

end Block
end Sys2Proof.Machine

namespace Sys2Proof.Machine

theorem Block.takeTile_forms {m : Memory} {b : Block} {f : Flow} (here : b.flow? f.id = some f) (w : Wing) (t : EngineTile) :
    Block.Forms f.id (f.tilesFormed + 1)
      ((b.setEngine w { b.engine w with tileQueue := (b.engine w).tileQueue.tail }).count (vectorOd w) 5 1) (b.takeTile m w f t) := by
  have stays : ((b.setEngine w { b.engine w with tileQueue := (b.engine w).tileQueue.tail }).count (vectorOd w) 5 1).flow? f.id = some f := by
    cases w <;> exact here
  unfold Block.takeTile
  dsimp only
  split
  · exact projectTake_forms stays m w t
  · split
    · split
      · exact scoreTake_forms stays w t
      · exact recallTake_forms stays m w t
    · exact poolTake_forms stays m w t

theorem Block.takeBlock_forms {m : Memory} {b : Block} {f : Flow} (here : b.flow? f.id = some f) (w : Wing) (p : Pass) :
    Block.Forms f.id (f.tilesFormed + 1)
      ((b.setEngine w { b.engine w with feed := (b.engine w).feed.erase p }).count (vectorOd w) 6 1) (b.takeBlock m w f p) := by
  have stays : ((b.setEngine w { b.engine w with feed := (b.engine w).feed.erase p }).count (vectorOd w) 6 1).flow? f.id = some f := by
    cases w <;> exact here
  unfold Block.takeBlock
  dsimp only
  split
  · exact vecTake_forms stays m w p
  · split
    · exact rawTake_forms stays m w p
    · exact feedTake_forms stays m w p

theorem Block.flow?_self {b : Block} {id : Nat} {f : Flow} (h : b.flow? id = some f) : b.flow? f.id = some f := by
  rwa [flow?_id_eq h]

theorem Block.queueHead_inFlight {b : Block} {w : Wing} {h : Flow × EngineTile} (head : b.queueHead w = some h) :
    b.flow? h.1.id = some h.1 := by
  unfold Block.queueHead at head
  split at head
  · obtain ⟨t, -, found⟩ := Option.bind_eq_some_iff.1 head
    obtain ⟨g, kept, rfl⟩ := Option.map_eq_some_iff.1 found
    exact flow?_self (Option.filter_eq_some_iff.1 kept).1
  · cases head

/-- What the vector engine is granted is work of a flow in flight. -/
theorem Block.grantWork_inFlight {b : Block} {w : Wing} {f : Flow} {x : EngineTile ⊕ Pass} {c : Block}
    (h : b.grantWork w = some (f, x, c)) : b.flow? f.id = some f ∧ b.Granted c := by
  unfold Block.grantWork at h
  dsimp only at h
  split at h
  · obtain ⟨g, head, same⟩ := Option.map_eq_some_iff.1 h
    cases same
    exact ⟨queueHead_inFlight head, .refl b⟩
  · obtain ⟨r, grant, same⟩ := Option.bind_eq_some_iff.1 h
    obtain ⟨member, granted⟩ := grant_some (f := r.1) (c := r.2) grant
    have inFlight : b.flow? r.1.id = some r.1 := by
      obtain head | feed := List.mem_append.1 member
      · obtain ⟨y, mem, same⟩ := List.mem_map.1 (List.mem_filter.1 head).1
        rw [← same]
        exact queueHead_inFlight (Option.mem_toList.1 mem)
      · obtain ⟨id, -, found⟩ := List.mem_filterMap.1 (List.mem_filter.1 feed).1
        exact flow?_self found
    split at same
    · cases same
      exact ⟨inFlight, granted⟩
    · obtain ⟨p, -, same⟩ := Option.map_eq_some_iff.1 same
      cases same
      exact ⟨inFlight, granted⟩

theorem Block.quantiserTurn_granted {b c : Block} {f : Flow} (h : b.quantiserTurn f = some c) : b.Granted c := by
  unfold Block.quantiserTurn at h
  dsimp only at h
  obtain ⟨r, grant, same⟩ := Option.bind_eq_some_iff.1 h
  have granted := (grant_some (f := r.1) (c := r.2) grant).2
  split at same
  · cases same
    exact granted
  · cases same

end Sys2Proof.Machine

namespace Sys2Proof.Machine

theorem Block.Turned.aside {b c : Block} (h : b.Turned c) : b.Aside c := by
  obtain ⟨⟨_, _, _, _, rfl⟩, keep⟩ := h
  refine ⟨fun w => by cases w <;> rfl, fun w => by cases w <;> rfl, rfl, fun i hi j hj => keep i j (by fin_cases hj <;> decide) ?_⟩
  fin_cases hi <;> simp

theorem Block.Granted.engine {b c : Block} (h : b.Granted c) (w : Wing) : c.engine w = b.engine w := by
  obtain ⟨⟨_, _, _, rfl⟩, -⟩ := h
  cases w <;> rfl

theorem Block.Granted.trans {b c d : Block} (h : b.Granted c) (h' : c.Granted d) : b.Granted d := by
  obtain ⟨⟨_, _, _, rfl⟩, keep⟩ := h
  obtain ⟨⟨_, _, _, rfl⟩, keep'⟩ := h'
  exact ⟨⟨_, _, _, rfl⟩, fun i j hj out => (keep' i j hj out).trans (keep i j hj out)⟩

theorem Block.Granted.vectorCount {b c : Block} (h : b.Granted c) (w : Wing) {j : Nat} (hj : j ∈ [5, 6]) :
    c.od' (vectorOd w) j = b.od' (vectorOd w) j :=
  h.turned.aside.od _ (by cases w <;> simp [Block.vectorOd]) j hj

/-- A tile or a block taken. -/
def takeWork (m : Memory) (b : Block) (w : Wing) (f : Flow) (x : EngineTile ⊕ Pass) : Block :=
  match x with
  | .inl t => b.takeTile m w f t
  | .inr p => b.takeBlock m w f p

theorem Block.vectorOd_mem (w : Wing) : Block.vectorOd w ∈ [0x2111, 0x2191] := by cases w <;> simp [Block.vectorOd]

theorem Block.vectorCount_self (b : Block) (w : Wing) {j : Nat} (hj : j ∈ [5, 6]) :
    (b.count (vectorOd w) j 1).od' (vectorOd w) j = add64 (b.od' (vectorOd w) j) 1 := by
  cases w <;> fin_cases hj <;> exact Block.count_self ..

section
variable {s : State} {w : Wing} {f : Flow} {x : EngineTile ⊕ Pass} {c b0 : Block} (ready : s.blk.ready = true) (up : s.blk.wingUp w = true)
  (granted : s.blk.grantWork w = some (f, x, c)) (turn : (if Block.tileConverts f then c.quantiserTurn f else some c) = some b0)
include granted turn

theorem vectorTake_granted : s.blk.Granted b0 := by
  have first := (Block.grantWork_inFlight granted).2
  split at turn
  · exact first.trans (Block.quantiserTurn_granted turn)
  · cases turn
    exact first

include ready up

/-- What the vector engine takes goes on as the flow's work. -/
theorem works_of_vectorTake {P : Block → Prop} (goes : GoesOn s (takeWork s.mem b0 w f x) f)
    (hP : ∀ d, (takeWork s.mem b0 w f x).Aside d → P d) : Works (.vectorTake w) s P := by
  obtain ⟨inFlight, -⟩ := Block.grantWork_inFlight granted
  have exec_eq : exec (.vectorTake w) s = workStep s f.id (takeWork s.mem b0 w f x) ((s.blk.cutFlow f.id).endFlow f.id stOrphaned) := by
    show execVectorTake w s = _
    unfold execVectorTake
    rw [ready, up, granted]
    dsimp only
    rw [turn]
    rfl
  obtain ⟨d, turned, done⟩ := workStep_of_goesOn (e := (s.blk.cutFlow f.id).endFlow f.id stOrphaned) inFlight goes
  exact works_of_finish (exec_eq.trans done) (hP _ (turned.aside.trans (Block.modFlow_aside _ _ fun _ => rfl)))

end

theorem tile_taken {s : State} {w : Wing} {f : Flow} {t : EngineTile} {c b0 : Block} (ready : s.blk.ready = true) (up : s.blk.wingUp w = true)
    (granted : s.blk.grantWork w = some (f, .inl t, c))
    (turn : (if Block.tileConverts f then c.quantiserTurn f else some c) = some b0) (goes : GoesOn s (b0.takeTile s.mem w f t) f) :
    Works (.vectorTake w) s (fun b => (∃ g, b.flow? f.id = some g ∧ g.tilesFormed = f.tilesFormed + 1) ∧
      (b.engine w).tileQueue = (s.blk.engine w).tileQueue.tail ∧ (b.engine w).feed = (s.blk.engine w).feed ∧
      b.od' (Block.vectorOd w) 5 = add64 (s.blk.od' (Block.vectorOd w) 5) 1) := by
  have kept := vectorTake_granted granted turn
  have forms := Block.takeTile_forms (m := s.mem) ((kept.flow? _).trans (Block.grantWork_inFlight granted).1) w t
  refine works_of_vectorTake ready up granted turn goes fun d aside => ?_
  have ends := forms.aside aside
  refine ⟨ends.formed, ?_, ?_, ?_⟩
  · rw [ends.tiles, Block.engine_count, Block.engine_setEngine, kept.engine]
  · rw [ends.feed, Block.engine_count, Block.engine_setEngine, kept.engine]
  · rw [ends.od _ (Block.vectorOd_mem w) 5 (by decide), Block.vectorCount_self _ w (by decide), Block.od_setEngine,
      kept.vectorCount w (by decide)]

theorem block_taken {s : State} {w : Wing} {f : Flow} {p : Pass} {c b0 : Block} (ready : s.blk.ready = true) (up : s.blk.wingUp w = true)
    (granted : s.blk.grantWork w = some (f, .inr p, c))
    (turn : (if Block.tileConverts f then c.quantiserTurn f else some c) = some b0) (goes : GoesOn s (b0.takeBlock s.mem w f p) f) :
    Works (.vectorTake w) s (fun b => (∃ g, b.flow? f.id = some g ∧ g.tilesFormed = f.tilesFormed + 1) ∧
      (b.engine w).feed = (s.blk.engine w).feed.erase p ∧ (b.engine w).tileQueue = (s.blk.engine w).tileQueue ∧
      b.od' (Block.vectorOd w) 6 = add64 (s.blk.od' (Block.vectorOd w) 6) 1) := by
  have kept := vectorTake_granted granted turn
  have forms := Block.takeBlock_forms (m := s.mem) ((kept.flow? _).trans (Block.grantWork_inFlight granted).1) w p
  refine works_of_vectorTake ready up granted turn goes fun d aside => ?_
  have ends := forms.aside aside
  refine ⟨ends.formed, ?_, ?_, ?_⟩
  · rw [ends.feed, Block.engine_count, Block.engine_setEngine, kept.engine]
  · rw [ends.tiles, Block.engine_count, Block.engine_setEngine, kept.engine]
  · rw [ends.od _ (Block.vectorOd_mem w) 6 (by decide), Block.vectorCount_self _ w (by decide), Block.od_setEngine,
      kept.vectorCount w (by decide)]

end Sys2Proof.Machine

namespace Sys2Proof.Machine

theorem ends_of_same {c : Instr} {s : State} (hs : Settled s) (h : exec c s = finish s s.blk) : Ends c s s.blk :=
  h.trans (finish_quiet s s.blk hs.2.2.1)

/-- A full tile queue takes no tile. -/
theorem drain_full {s : State} {w : Wing} {x : EngineTile} {rest : List EngineTile} (hs : Settled s)
    (finished : (s.blk.engine w).finished = x :: rest) (full : 8 ≤ s.blk.tilesHeld w) : Ends (.tileDrain w) s s.blk := by
  refine ends_of_same hs ?_
  show finish s (s.blk.tileDrain w) = _
  unfold Block.tileDrain
  dsimp only
  rw [finished]
  dsimp only
  rw [if_pos (by exact full)]

/-- A drained tile of a flow gives up satchels at most. -/
theorem drainSatchels_form (b : Block) (f : Flow) (t : EngineTile) :
    ∃ flows st, b.drainSatchels f t = { b with flows := flows, streams := st } ∧
      (f.fromQ = none → flows = b.flows ∧ st = b.streams) := by
  unfold Block.drainSatchels
  cases f.fromQ with
  | none => exact ⟨_, _, rfl, fun _ => ⟨rfl, rfl⟩⟩
  | some q =>
    dsimp only
    split
    · exact ⟨_, _, rfl, fun h => by cases h⟩
    · exact ⟨_, _, rfl, fun h => by cases h⟩

theorem tile_drains {s : State} {w : Wing} {x : EngineTile} {rest : List EngineTile} (hs : Settled s)
    (finished : (s.blk.engine w).finished = x :: rest) (room : s.blk.tilesHeld w < 8) : Gives (.tileDrain w) s (fun t =>
      t.blk.engine w = { s.blk.engine w with finished := rest, tileQueue := (s.blk.engine w).tileQueue ++ [x] } ∧
      t.blk.engine (otherWing w) = s.blk.engine (otherWing w) ∧
      t.blk.od' 0x2400 1 = add64 (s.blk.od' 0x2400 1) x.sat ∧ OdOnly s t [(0x2400, 1)] ∧ t.mem = s.mem ∧
      ((∀ f, s.blk.flow? x.flow = some f → f.fromQ = none) →
        t.blk.flows = s.blk.flows ∧ t.blk.streams = s.blk.streams)) := by
  obtain ⟨noWrite, unblocked, ⟨noFault, noneHeld, -⟩, -⟩ := hs
  generalize hb : (s.blk.setEngine w { s.blk.engine w with finished := rest, tileQueue := (s.blk.engine w).tileQueue ++ [x] }).count
    0x2400 1 x.sat = b
  have engine : b.engine w = { s.blk.engine w with finished := rest, tileQueue := (s.blk.engine w).tileQueue ++ [x] } := by
    rw [← hb, Block.engine_count, Block.engine_setEngine]
  have other : b.engine (otherWing w) = s.blk.engine (otherWing w) := by
    rw [← hb, Block.engine_count, Block.engine_setEngine_other]
  have counted : b.od' 0x2400 1 = add64 (s.blk.od' 0x2400 1) x.sat := by rw [← hb, Block.count_self, Block.od_setEngine]
  have od (i j : Nat) (hj : j < 256) (out : (i, j) ∉ [(0x2400, 1)]) : b.od' i j = s.blk.od' i j := by
    rw [← hb, Block.count_od'_of_ne _ _ hj (by decide) (by simpa using out) (by decide) (by decide), Block.od_setEngine]
  have form : ∃ od north south, b = { s.blk with od := od, north := north, south := south } := by
    rw [← hb]
    cases w <;> exact ⟨_, _, _, rfl⟩
  have work : ∃ flows st, s.blk.tileDrain w = { b with flows := flows, streams := st } ∧
      ((∀ f, s.blk.flow? x.flow = some f → f.fromQ = none) → flows = s.blk.flows ∧ st = s.blk.streams) := by
    have flow : b.flow? x.flow = s.blk.flow? x.flow := by
      obtain ⟨_, _, _, rfl⟩ := form
      rfl
    have stays : b = { b with flows := s.blk.flows, streams := s.blk.streams } := by
      obtain ⟨_, _, _, rfl⟩ := form
      rfl
    unfold Block.tileDrain
    dsimp only
    rw [finished]
    dsimp only
    rw [if_neg (by exact Nat.not_le.2 room), hb, flow]
    cases s.blk.flow? x.flow with
    | none => exact ⟨_, _, stays, fun _ => ⟨rfl, rfl⟩⟩
    | some f =>
      dsimp only
      split
      · obtain ⟨flows, st, drained, none⟩ := drainSatchels_form b f x
        refine ⟨flows, st, drained, fun h => ?_⟩
        obtain ⟨_, _, _, rfl⟩ := form
        exact none (h f rfl)
      · exact ⟨_, _, stays, fun _ => ⟨rfl, rfl⟩⟩
  obtain ⟨flows, st, work, same⟩ := work
  have exec_eq : exec (.tileDrain w) s = finish s { b with flows := flows, streams := st } := by
    show finish s (s.blk.tileDrain w) = _
    rw [work]
  refine gives_of_endOf exec_eq ?_ ?_ fun t ends => ⟨?_, ?_, ?_, ?_, ?_, fun h => ?_⟩
  · obtain ⟨_, _, _, rfl⟩ := form; exact noFault
  · obtain ⟨_, _, _, rfl⟩ := form; exact noneHeld
  · rw [← engine]
    exact Block.engine_eq_of_sides ends.north ends.south w
  · rw [← other]
    exact Block.engine_eq_of_sides ends.north ends.south _
  · rw [ends.od _ _ (by decide), ← counted]
    exact Block.od'_congr _ _ rfl _ _
  · exact ends.odOnly fun i j hj out => (Block.od'_congr _ b rfl i j).trans (od i j hj out)
  · rw [ends.mem]
    obtain ⟨_, _, _, rfl⟩ := form
    show land s.mem s.blk.posted = _
    rw [noWrite]
    rfl
  · rw [ends.flows, ends.streams]
    exact same h

/-- What the timetable grants leaves the ports' states. -/
theorem Block.Granted.portState {b c : Block} (h : b.Granted c) (n : Nat) : c.portState n = b.portState n := by
  have same (d : Block) : d.portState n = d.od' (odKey 0x2701 (n + 1) / 256) (odKey 0x2701 (n + 1) % 256) := by
    unfold Block.portState Block.od'
    rw [Block.odKey_parts]
  rw [same, same]
  refine h.2 _ _ (Nat.mod_lt _ (by decide)) ?_
  simp only [List.mem_singleton, Prod.mk.injEq, not_and]
  unfold odKey
  omega

section
variable {s : State} {su c : Nat} {cur : Flow} (hs : Settled s) (context : s.blk.currentContext su = some c)
  (inFlight : s.blk.flow? c = some cur)
include hs context inFlight

theorem context_stays (stays : s.blk.threaded (Block.wingOf su) = false ∨ s.blk.workReady cur = true) : Ends (.contextSwitch su) s s.blk := by
  refine ends_of_same hs ?_
  show finish s (s.blk.contextSwitch su) = _
  unfold Block.contextSwitch
  obtain single | busy := stays
  · rw [single]
    rfl
  · rw [context, Option.bind_some, inFlight]
    dsimp only
    rw [busy]
    simp

theorem context_switches {g : Flow} (threaded : s.blk.threaded (Block.wingOf su) = true) (idle : s.blk.workReady cur = false)
    (one : ((s.blk.holders su).filterMap s.blk.flow?).filter (fun f => f.id != cur.id && s.blk.workReady f) = [g]) :
    Gives (.contextSwitch su) s (fun t =>
        t.blk.contexts = (su, g.id) :: s.blk.contexts.filter (· != (su, g.id)) ∧ t.mem = s.mem ∧
        OdOnly s t [(0x2603, 3)] ∧
        { t.blk with contexts := s.blk.contexts, od := s.blk.od, streams := s.blk.streams } = s.blk) := by
  obtain ⟨d, grant, granted⟩ := s.blk.grant_one (64 + su) g
  have exec_eq : exec (.contextSwitch su) s =
      finish s { d with contexts := (su, g.id) :: d.contexts.filter (· != (su, g.id)) } := by
    show finish s (s.blk.contextSwitch su) = _
    unfold Block.contextSwitch
    rw [threaded, context, Option.bind_some, inFlight]
    dsimp only
    rw [idle, one, grant]
    rfl
  generalize hb : ({ d with contexts := (su, g.id) :: d.contexts.filter (· != (su, g.id)) } : Block) = b at exec_eq
  have states (n : Nat) : b.portState n = s.blk.portState n := by
    rw [← granted.portState n, ← hb]
    exact Block.od'_congr _ d rfl _ _
  have od (i j : Nat) (hj : j < 256) (out : (i, j) ∉ [(0x2603, 3)]) : b.od' i j = s.blk.od' i j := by
    rw [← granted.2 i j hj out, ← hb]
    exact Block.od'_congr _ d rfl _ _
  have form : ∃ od st, b = { s.blk with
      od := od, streams := st, contexts := (su, g.id) :: s.blk.contexts.filter (· != (su, g.id)) } := by
    obtain ⟨⟨_, _, _, rfl⟩, -⟩ := granted
    exact ⟨_, _, hb.symm⟩
  obtain ⟨od', st, rfl⟩ := form
  have idles := hs.2.2.2
  have agents : ({ s.blk.agents with began := s.blk.agents.moved, heldAt := none, heldRange := none } : Agents) = s.blk.agents := by
    obtain ⟨noneAt, noneRange, began⟩ := idles
    rw [← began, ← noneAt, ← noneRange]
  refine gives_of_finish exec_eq (hs.2.2.1.congr rfl rfl rfl states) ⟨rfl, ?_, ?_, ?_⟩
  · show land s.mem s.blk.posted = _
    rw [hs.1]
    rfl
  · intro i j hj out shown
    rw [quietEnd_od _ _ _ _ (by rw [Ne, odKey_inj hj (by decide)]; simpa using shown)]
    exact od i j hj out
  · show ({ s.blk with posted := [], blocked := false, agents := { s.blk.agents with began := s.blk.agents.moved, heldAt := none, heldRange := none } } : Block) = s.blk
    rw [agents, ← hs.1, ← hs.2.1]

end

/-- Settles O41, by what a drain, a take and a switch each leave of the queues, the counts and the contexts. -/
theorem tilesDrainAndAreTaken : Obligations.TilesDrainAndAreTaken := by
  unfold Obligations.TilesDrainAndAreTaken
  refine ⟨fun s w x rest hs => ?_, ?_, fun s su c cur hs context inFlight => ⟨?_, ?_⟩⟩
  · intro e finished
    exact ⟨fun full => drain_full hs finished full, fun room => tile_drains hs finished room⟩
  · intro s w f x c b0 _ ready up granted turn
    cases x with
    | inl t => exact fun goes => tile_taken ready up granted turn goes
    | inr p => exact fun goes => block_taken ready up granted turn goes
  · exact fun stays => context_stays hs context inFlight stays
  · exact fun g threaded idle one => context_switches hs context inFlight threaded idle one

end Sys2Proof.Machine

/-! ### Flits as numbers (R420, R421) -/

namespace Sys2Proof.Machine

/-- Bytes as bits. -/
theorem byte_pow (k : Nat) : 256 ^ k = 2 ^ (8 * k) := by
  rw [show 256 = 2 ^ 8 from rfl, ← pow_mul]

theorem testBit_bits (w hi lo i : Nat) : (bits w hi lo).testBit i = (decide (i < hi + 1 - lo) && w.testBit (lo + i)) := by
  unfold bits
  rw [Nat.testBit_mod_two_pow, Nat.testBit_shiftRight]

/-- A field is told by the bits it covers. -/
theorem bits_congr {w v hi lo : Nat} (h : ∀ i, lo ≤ i → i ≤ hi → w.testBit i = v.testBit i) : bits w hi lo = bits v hi lo := by
  refine Nat.eq_of_testBit_eq fun i => ?_
  rw [testBit_bits, testBit_bits]
  by_cases inside : i < hi + 1 - lo
  · rw [h (lo + i) (by omega) (by omega)]
  · simp [inside]

/-- The bytes of the number that a byte string holds. -/
theorem natLE_leNat (bs : Bytes) {k : Nat} (h : k ≤ bs.length) : natLE k (leNat bs) = bs.take k := by
  induction k generalizing bs with
  | zero => rfl
  | succ k ih =>
    cases bs with
    | nil => simp at h
    | cons x xs =>
      have low := x.isLt
      have first : BitVec.ofNat 8 (leNat (x :: xs)) = x := by
        refine BitVec.eq_of_toNat_eq ?_
        show (x.toNat + 256 * leNat xs) % 2 ^ 8 = x.toNat
        omega
      have rest : leNat (x :: xs) / 256 = leNat xs := by
        show (x.toNat + 256 * leNat xs) / 256 = _
        omega
      show BitVec.ofNat 8 (leNat (x :: xs)) :: natLE k (leNat (x :: xs) / 256) = x :: xs.take k
      rw [first, rest, ih xs (by simpa using h)]

theorem leNat_lt (bs : Bytes) : leNat bs < 256 ^ bs.length := by
  have whole := leNat_take bs bs.length
  rw [List.take_length] at whole
  rw [whole]
  exact Nat.mod_lt _ (by positivity)

@[simp] theorem fit_length (len : Nat) (bs : Bytes) : (fit len bs).length = len := by
  unfold fit
  exact slice_length ..

/-- The bytes of a flit that was formed: its header, its payload, its CRC. -/
theorem mkFlit_bytes (hdr : Nat) (payload : Bytes) (bad : Bool) :
    ∃ crc : Bytes, (mkFlit hdr payload bad).toNat = leNat (natLE 12 hdr ++ fit 240 payload ++ crc) ∧ crc.length = 4 := by
  unfold mkFlit
  dsimp only
  generalize (if bad = true then _ else _) = c
  refine ⟨natLE 4 c, ?_, natLE_length ..⟩
  have small := leNat_lt (natLE 12 hdr ++ fit 240 payload ++ natLE 4 c)
  rw [List.length_append, List.length_append, natLE_length, natLE_length, fit_length] at small
  rw [byte_pow, show 8 * (12 + 240 + 4) = 2048 from rfl] at small
  exact (BitVec.toNat_ofNat ..).trans (Nat.mod_eq_of_lt small)

theorem mkFlit_low (hdr : Nat) (payload : Bytes) (bad : Bool) : (mkFlit hdr payload bad).toNat % 2 ^ 96 = hdr % 2 ^ 96 := by
  obtain ⟨crc, same, -⟩ := mkFlit_bytes hdr payload bad
  have cut := leNat_take (natLE 12 hdr ++ fit 240 payload ++ crc) 12
  rw [List.append_assoc, List.take_left' (natLE_length 12 hdr), leNat_natLE_mod, byte_pow] at cut
  rw [same, List.append_assoc]
  exact cut.symm

/-- The payload of a flit that was formed. -/
theorem flitPayload_mkFlit (hdr : Nat) (payload : Bytes) (bad : Bool) : flitPayload (mkFlit hdr payload bad) = fit 240 payload := by
  obtain ⟨crc, same, -⟩ := mkFlit_bytes hdr payload bad
  have cut := leNat_drop (natLE 12 hdr ++ (fit 240 payload ++ crc)) 12
  rw [List.drop_left' (natLE_length 12 hdr), byte_pow, ← Nat.shiftRight_eq_div_pow, ← List.append_assoc, ← same] at cut
  have bytes := natLE_leNat (fit 240 payload ++ crc) (k := 240) (by simp)
  rw [List.take_left' (fit_length ..), cut] at bytes
  exact bytes

/-- A field of the header of a flit that was formed. -/
theorem fl_mkFlit_header (hdr : Nat) (payload : Bytes) (bad : Bool) {hi lo : Nat} (h : hi < 96) :
    fl (mkFlit hdr payload bad) hi lo = bits hdr hi lo := by
  unfold fl
  refine bits_congr fun i _ hi' => ?_
  have low := congrArg (fun n => n.testBit i) (mkFlit_low hdr payload bad)
  rwa [Nat.testBit_mod_two_pow, Nat.testBit_mod_two_pow, decide_eq_true (show i < 96 by omega), Bool.true_and, Bool.true_and] at low

/-- The bytes of a flit's payload, told by its number. -/
theorem flitPayload_toNat (f : Flit) : leNat (flitPayload f) = f.toNat / 2 ^ 96 % 2 ^ 1920 := by
  unfold flitPayload
  rw [leNat_natLE_mod, byte_pow, Nat.shiftRight_eq_div_pow]

/-- A field of the payload of a link flit that was formed. -/
theorem fl_mkFlit_link (hdr w : Nat) (bad : Bool) {hi lo : Nat} (h : 96 ≤ lo) (h' : hi < 2016) :
    fl (mkFlit hdr (natLE 240 (w >>> 96)) bad) hi lo = bits w hi lo := by
  unfold fl
  refine bits_congr fun i low high => ?_
  have whole : fit 240 (natLE 240 (w >>> 96)) = natLE 240 (w >>> 96) := by
    unfold fit slice
    simp [zeros, List.take_of_length_le]
  have same := congrArg leNat (flitPayload_mkFlit hdr (natLE 240 (w >>> 96)) bad)
  rw [whole, flitPayload_toNat, leNat_natLE_mod, byte_pow] at same
  have here := congrArg (fun n => n.testBit (i - 96)) same
  simp only [Nat.testBit_mod_two_pow, show i - 96 < 8 * 240 by omega, decide_true,
    Bool.true_and, Nat.testBit_div_two_pow, Nat.testBit_shiftRight] at here
  rwa [show i - 96 + 96 = i by omega, show 96 + (i - 96) = i by omega] at here

/-- The low fields of a flit's header: all that returns credits lies above them. -/
theorem flitHeader_low (p : Port) (ftype pool som eom seq : Nat) {hi : Nat} (h : hi < 64) :
    bits (Block.flitHeader p ftype pool som eom seq) hi 0 =
      bits (pack [(0, ftype), (4, pool % 4), (6, pool / 4), (7, som), (8, eom), (16, seq), (32, (p.rxSeq + 65535) % 65536), (48, b2n p.helloOk)]) hi 0 := by
  have multiple : ∀ l : List Nat, 2 ^ 64 ∣ (l.map (fun k => (min 15 (p.owed.getD k 0)) <<< (64 + 4 * k))).sum := fun l => by
    refine List.dvd_sum fun x hx => ?_
    obtain ⟨k, -, rfl⟩ := List.mem_map.1 hx
    rw [Nat.shiftLeft_eq, pow_add]
    exact Dvd.intro (min 15 (p.owed.getD k 0) * 2 ^ (4 * k)) (by ring)
  obtain ⟨q, hq⟩ := multiple (List.range 8)
  unfold Block.flitHeader
  rw [hq, bits_eq, bits_eq]
  have inside : 2 ^ 64 * q = 2 ^ (hi + 1) * (2 ^ (63 - hi) * q) := by
    rw [← mul_assoc, ← pow_add, show hi + 1 + (63 - hi) = 64 by omega]
  rw [inside, pow_zero, Nat.div_one, Nat.div_one, Nat.sub_zero, Nat.add_mul_mod_self_left]

/-- The type of a flit that leaves a port. -/
theorem fl_type_mkFlit (p : Port) {ftype : Nat} (pool som eom seq : Nat) (payload : Bytes) (bad : Bool) (h : ftype < 16) :
    fl (mkFlit (Block.flitHeader p ftype pool som eom seq) payload bad) 3 0 = ftype := by
  rw [fl_mkFlit_header _ _ _ (by decide), flitHeader_low _ _ _ _ _ _ (by decide), bits_eq]
  simp only [pack_cons, pack_nil]
  omega

end Sys2Proof.Machine

/-! ### Ports, and what sending leaves of what they received (R418 to R423) -/

namespace Sys2Proof.Machine

/-- A port but for its lanes: what carries no DATA flit changes no more of it. -/
def Port.offLanes (p : Port) : Port := { p with owed := [], lane := [], pairNo := 0, told := 0, sent := [] }

/-- A port but for its sending side: what it has received, and what its link has gone through. -/
def Port.received (p : Port) : Port :=
  { p.offLanes with txSeq := 0, replay := [], ackAt := 0, credits := [], txq := [], openPool := [] }

theorem Port.received_of_offLanes {p q : Port} (h : p.offLanes = q.offLanes) : p.received = q.received := by
  unfold received
  rw [h]

/-- The flits that a port has put into its pairs. -/
def Port.flits (p : Port) : List Flit := p.sent.flatMap (·.flits) ++ p.lane

namespace Block

@[simp] theorem port_number (b : Block) (n : Nat) : (b.port n).number = n := by
  unfold port
  cases here : b.seryo.ports.find? (fun p => p.number == n) with
  | none => rfl
  | some p =>
    have hit := List.find?_some here
    simpa using hit

theorem port_congr {b c : Block} (h : c.seryo.ports = b.seryo.ports) (n : Nat) : c.port n = b.port n := by
  unfold port
  rw [h]

theorem port_putPort_self (b : Block) (p : Port) : (b.putPort p).port p.number = p := by
  unfold port
  rw [show (b.putPort p).seryo.ports.find? (fun x => x.number == p.number) = some p from
    find?_placed_self Port.number p b.seryo.ports, Option.getD_some]

theorem port_putPort_other (b : Block) (p : Port) {n : Nat} (h : n ≠ p.number) : (b.putPort p).port n = b.port n := by
  unfold port
  rw [show (b.putPort p).seryo.ports.find? (fun x => x.number == n) = b.seryo.ports.find? (fun x => x.number == n) from
    find?_placed_other Port.number p b.seryo.ports h]

theorem port_modPort_self (b : Block) {n : Nat} {g : Port → Port} (h : (g (b.port n)).number = n) :
    (b.modPort n g).port n = g (b.port n) := by
  have put := port_putPort_self b (g (b.port n))
  rwa [h] at put

theorem injected_port (b : Block) (unit checker m : Nat) : (b.injected unit checker).2.port m = b.port m := by
  unfold injected
  split <;> rfl

theorem closePair_flits (p : Port) : (closePair p).flits = p.flits := by
  unfold closePair Port.flits
  split
  · rfl
  · simp

theorem closePair_offLanes (p : Port) : (closePair p).offLanes = p.offLanes := by
  unfold closePair
  split <;> rfl

theorem closePair_number (p : Port) : (closePair p).number = p.number := by
  unfold closePair
  split <;> rfl

/-- A port that puts a flit into its pair. -/
theorem launch_port (b : Block) (n hdr : Nat) (payload : Bytes) : ∃ bad, (b.launch n hdr payload).port n =
    closePair { b.port n with lane := (b.port n).lane ++ [mkFlit hdr payload bad], owed := owedAfter (b.port n), told := (b.port n).rxSeq } := by
  refine ⟨(b.injected (0x300 + n) 5).1, ?_⟩
  have put := port_putPort_self (b.injected (0x300 + n) 5).2 (closePair { b.port n with
    lane := (b.port n).lane ++ [mkFlit hdr payload (b.injected (0x300 + n) 5).1], owed := owedAfter (b.port n), told := (b.port n).rxSeq })
  rwa [closePair_number, port_number] at put

theorem launch_port_other (b : Block) {n m : Nat} (hdr : Nat) (payload : Bytes) (h : m ≠ n) : (b.launch n hdr payload).port m = b.port m := by
  refine (port_putPort_other _ _ ?_).trans (injected_port ..)
  rwa [closePair_number, port_number]

theorem launch_offLanes (b : Block) (n hdr : Nat) (payload : Bytes) (m : Nat) : ((b.launch n hdr payload).port m).offLanes = (b.port m).offLanes := by
  by_cases h : m = n
  · subst h
    obtain ⟨bad, here⟩ := launch_port b m hdr payload
    rw [here, closePair_offLanes]
    rfl
  · rw [launch_port_other b hdr payload h]

/-- One flit more on the lanes of the port. -/
theorem launch_flits (b : Block) (n hdr : Nat) (payload : Bytes) :
    ∃ bad, ((b.launch n hdr payload).port n).flits = (b.port n).flits ++ [mkFlit hdr payload bad] := by
  obtain ⟨bad, here⟩ := launch_port b n hdr payload
  refine ⟨bad, ?_⟩
  rw [here, closePair_flits]
  unfold Port.flits
  rw [List.append_assoc]

/-- c is b after flits that carry no DATA: only lanes have moved. -/
def LanesMoved (b c : Block) : Prop := b.SentFrom c ∧ ∀ m, (c.port m).offLanes = (b.port m).offLanes

theorem LanesMoved.refl (b : Block) : b.LanesMoved b := ⟨.refl b, fun _ => rfl⟩

theorem LanesMoved.trans {b c d : Block} (h : b.LanesMoved c) (h' : c.LanesMoved d) : b.LanesMoved d :=
  ⟨h.1.trans h'.1, fun m => (h'.2 m).trans (h.2 m)⟩

theorem launch_lanesMoved (b : Block) (n hdr : Nat) (payload : Bytes) : b.LanesMoved (b.launch n hdr payload) :=
  ⟨launch_sentFrom .., launch_offLanes b n hdr payload⟩

theorem LanesMoved.portState {b c : Block} (h : b.LanesMoved c) (m : Nat) : c.portState m = b.portState m := by
  obtain ⟨⟨_, _, rfl⟩, -⟩ := h
  rfl

/-- c is b after IDLE flits. -/
structure Idled (b c : Block) : Prop where
  moved : b.LanesMoved c
  flits : ∀ m, ∃ idle, (c.port m).flits = (b.port m).flits ++ idle ∧ ∀ f ∈ idle, fl f 3 0 = 0

theorem Idled.refl (b : Block) : b.Idled b := ⟨.refl b, fun _ => ⟨[], by simp⟩⟩

theorem Idled.trans {b c d : Block} (h : b.Idled c) (h' : c.Idled d) : b.Idled d := by
  refine ⟨h.moved.trans h'.moved, fun m => ?_⟩
  obtain ⟨fs, more, kind⟩ := h.flits m
  obtain ⟨fs', more', kind'⟩ := h'.flits m
  exact ⟨fs ++ fs', by rw [more', more, List.append_assoc], fun f hf => (List.mem_append.1 hf).elim (kind f) (kind' f)⟩

theorem sendIdle_idled (b : Block) (n : Nat) : b.Idled (b.sendIdle n) := by
  refine ⟨launch_lanesMoved .., fun m => ?_⟩
  by_cases h : m = n
  · subst h
    obtain ⟨bad, more⟩ := launch_flits b m (flitHeader (b.port m) 0 0 0 0 0) (zeros 240)
    exact ⟨_, more, fun f hf => (List.mem_singleton.1 hf) ▸ fl_type_mkFlit _ _ _ _ _ _ _ (by decide)⟩
  · exact ⟨[], by rw [sendIdle, launch_port_other b _ _ h, List.append_nil], by simp⟩

theorem idleOut_idled (fuel : Nat) (b : Block) (n : Nat) : b.Idled (idleOut fuel b n) := by
  induction fuel generalizing b with
  | zero => exact .refl b
  | succ fuel ih =>
    unfold idleOut
    split
    · exact (sendIdle_idled b n).trans (ih _)
    · exact .refl b

theorem idleAll_idled (b : Block) : b.Idled b.idleAll := by
  unfold idleAll
  refine List.foldlRecOn (motive := b.Idled) _ _ (.refl b) fun c hc n _ => ?_
  split
  · exact hc.trans (idleOut_idled _ c n)
  · exact hc

/-- What the ports are at the end of a step that found no fault and holds nothing back: IDLE flits have followed. -/
theorem settle_ports {b : Block} (hr : b.raised = []) (hh : b.heldBack = []) (m : Nat) :
    (b.settle.port m).offLanes = (b.port m).offLanes ∧ ∃ idle, (b.settle.port m).flits = (b.port m).flits ++ idle ∧ ∀ f ∈ idle, fl f 3 0 = 0 := by
  have unraised : { b with raised := [] } = b := by cases b; cases hr; rfl
  have same : b.settle.port m = (b.setOd 0x2202 0x0D b.oldFlows).idleAll.port m := by
    refine port_congr ?_ m
    unfold settle
    rw [hr, List.foldl_nil, unraised, releaseBack_quiet b hh]
    rfl
  have idled := idleAll_idled (b.setOd 0x2202 0x0D b.oldFlows)
  rw [same]
  exact ⟨idled.moved.2 m, idled.flits m⟩

end Block

/-- A command whose work finds no fault and holds nothing back gives what holds of the end of that work and of its ports. -/
theorem gives_of_ports {c : Instr} {s : State} {b : Block} {P : State → Prop} (h : exec c s = finish s b) (hr : b.raised = [])
    (hh : b.heldBack = []) (hP : ∀ t, EndOf s b t → (∀ m, (t.blk.port m).offLanes = (b.port m).offLanes ∧
      ∃ idle, t.blk.onLanes m = b.onLanes m ++ idle ∧ ∀ f ∈ idle, fl f 3 0 = 0) → P t) : Gives c s P :=
  ⟨_, h, rfl, hP _ (landed_endOf hr hh) fun m => Block.settle_ports hr hh m⟩

end Sys2Proof.Machine

/-! ### Messages leave what ports received as it was (R418 to R429) -/

namespace Sys2Proof.Machine
namespace Block

/-- What the ports of b have received, they have received in c. -/
structure PortsKept (b c : Block) : Prop where
  port : ∀ m, (c.port m).received = (b.port m).received

theorem PortsKept.refl (b : Block) : b.PortsKept b := ⟨fun _ => rfl⟩

theorem PortsKept.trans {b c d : Block} (h : b.PortsKept c) (h' : c.PortsKept d) : b.PortsKept d :=
  ⟨fun m => (h'.port m).trans (h.port m)⟩

theorem PortsKept.of_ports {b c : Block} (h : c.seryo.ports = b.seryo.ports) : b.PortsKept c :=
  ⟨fun m => by rw [port_congr h]⟩

theorem PortsKept.foldl {α : Type} {g : Block → α → Block} (hg : ∀ (b : Block) x, b.PortsKept (g b x)) (l : List α) (b : Block) :
    b.PortsKept (l.foldl g b) :=
  List.foldlRecOn (motive := b.PortsKept) _ _ (.refl b) fun c hc x _ => hc.trans (hg c x)

theorem LanesMoved.portsKept {b c : Block} (h : b.LanesMoved c) : b.PortsKept c :=
  ⟨fun m => Port.received_of_offLanes (h.2 m)⟩

theorem putPort_portsKept (b : Block) {p : Port} (h : p.received = (b.port p.number).received) : b.PortsKept (b.putPort p) := by
  refine ⟨fun m => ?_⟩
  by_cases hm : m = p.number
  · rw [hm, port_putPort_self, h]
  · rw [port_putPort_other b p hm]

theorem sendData_portsKept (b : Block) (n : Nat) (t : TxFlit) : b.PortsKept (b.sendData n t) := by
  have put (p : Port) (hp : p.received = (b.port p.number).received) (hdr : Nat) (d : Bytes) :
      b.PortsKept (((b.putPort p).launch n hdr d).count 0x2704 1 1) :=
    (putPort_portsKept b hp).trans ((launch_lanesMoved ..).portsKept.trans (.of_ports rfl))
  refine put _ ?_ _ _
  show (b.port n).received = (b.port (b.port n).number).received
  rw [port_number]

theorem pumpN_portsKept (fuel : Nat) (b : Block) (n : Nat) : b.PortsKept (pumpN fuel b n) := by
  induction fuel generalizing b with
  | zero => exact .refl b
  | succ fuel ih =>
    unfold pumpN
    split
    · split
      · exact .refl b
      · exact (sendData_portsKept ..).trans (ih _)
    · exact .refl b

theorem sendOn_portsKept (b : Block) (n cls : Nat) (msg : Bytes) : b.PortsKept (b.sendOn n cls msg) := by
  refine .trans ?_ (pumpN_portsKept _ _ n)
  refine putPort_portsKept b ?_
  show (b.port n).received = (b.port (b.port n).number).received
  rw [port_number]

theorem modPeer_portsKept (b : Block) (p : Nat) (g : Peer → Peer) : b.PortsKept (b.modPeer p g) := .of_ports rfl

theorem sendTo_portsKept (b : Block) (p : Nat) (s : SentMsg) : b.PortsKept (b.sendTo p s) :=
  (modPeer_portsKept b p _).trans (sendOn_portsKept ..)

theorem sendMsg_portsKept (b : Block) (dst mtype hash : Nat) (body : Bytes) : b.PortsKept (b.sendMsg dst mtype hash body).2 := by
  unfold sendMsg
  dsimp only
  split
  · exact .refl b
  · split
    · exact .refl b
    · dsimp only
      generalize (if (mtype == mtGrantReq) = true then _ else hash) = row
      split_ifs
      · exact modPeer_portsKept ..
      · exact (modPeer_portsKept b dst _).trans (sendTo_portsKept ..)

theorem returnGrant_portsKept (b : Block) (peer q sat flow : Nat) : b.PortsKept (b.returnGrant peer q sat flow) := by
  unfold returnGrant
  split
  · exact .refl b
  · exact sendMsg_portsKept ..

theorem sendTile_portsKept (b : Block) (peer q sat : Nat) (t : Tile) : b.PortsKept (b.sendTile peer q sat t).2 := by
  unfold sendTile
  exact List.foldlRecOn (motive := fun (x : Nat × Block) => b.PortsKept x.2) _ _ (.refl b) fun _ sent _ _ => sent.trans (sendMsg_portsKept ..)

theorem askGrant_portsKept (b : Block) (id peer q rows bytes : Nat) : b.PortsKept (b.askGrant id peer q rows bytes) := by
  unfold askGrant
  split
  · exact .refl b
  · split
    · exact .refl b
    · dsimp only
      split
      · exact .refl b
      · exact (sendMsg_portsKept ..).trans (.of_ports rfl)

theorem moveTile_portsKept (b : Block) (c : GrantClaim) : b.PortsKept (b.moveTile c) := by
  unfold moveTile
  split
  case _ t _ _ _ _ _ _ =>
    split
    · exact .refl b
    · dsimp only
      have kept (g : Flow → Flow) : b.PortsKept (b.modFlow t.flow g) := .of_ports rfl
      split
      · exact .refl b
      split
      · exact .of_ports rfl
      split
      · exact .of_ports rfl
      split
      · split
        · exact askGrant_portsKept ..
        · exact .refl b
      split
      · exact .of_ports rfl
      · exact (kept _).trans ((sendTile_portsKept ..).trans (.of_ports rfl))
  · exact .refl b

theorem moveTiles_portsKept (b : Block) (id : Nat) : b.PortsKept (b.moveTiles id) := .foldl moveTile_portsKept _ _

theorem moveAllTiles_portsKept (b : Block) : b.PortsKept b.moveAllTiles := .foldl moveTiles_portsKept _ _

/-- Where no tile leaves, none is moved on. -/
theorem moveAllTiles_noneLeaves {b : Block} (h : b.NoneLeaves) : b.moveAllTiles = b := by
  unfold moveAllTiles
  rw [List.filter_eq_nil_iff.2 fun c hc => by simp [h c hc]]
  rfl

end Block

/-! ### The end of a step that only took flits -/

/-- c is b once flits and messages have come or gone: of the dictionary the listed entries alone may have changed. -/
def Block.Flitted (ks : List (Nat × Nat)) (b c : Block) : Prop :=
  (∃ od sy inj, c = { b with od := od, seryo := sy, faults := { b.faults with injections := inj } }) ∧
    ∀ i j, j < 256 → (i, j) ∉ ks → c.od' i j = b.od' i j

namespace Block.Flitted

variable {ks : List (Nat × Nat)} {b c d : Block}

theorem refl (ks : List (Nat × Nat)) (b : Block) : b.Flitted ks b := ⟨⟨_, _, _, rfl⟩, fun _ _ _ _ => rfl⟩

theorem trans (h : b.Flitted ks c) (h' : c.Flitted ks d) : b.Flitted ks d := by
  obtain ⟨⟨_, _, _, rfl⟩, keep⟩ := h
  obtain ⟨⟨_, _, _, rfl⟩, keep'⟩ := h'
  exact ⟨⟨_, _, _, rfl⟩, fun i j hj hij => (keep' i j hj hij).trans (keep i j hj hij)⟩

theorem mono {ls : List (Nat × Nat)} (h : b.Flitted ks c) (sub : ks ⊆ ls) : b.Flitted ls c :=
  ⟨h.1, fun i j hj hij => h.2 i j hj fun mem => hij (sub mem)⟩

theorem of_sends (h : b.Sends c) : b.Flitted [(0x2704, 1)] c :=
  ⟨h.1, fun i j hj hij => h.2 i j hj (by simpa using hij)⟩

theorem of_sentFrom (h : b.SentFrom c) : b.Flitted [] c := by
  obtain ⟨_, _, rfl⟩ := h
  exact ⟨⟨_, _, _, rfl⟩, fun _ _ _ _ => rfl⟩

theorem modPort (b : Block) (n : Nat) (g : Port → Port) : b.Flitted [] (b.modPort n g) := of_sentFrom ⟨_, b.faults.injections, rfl⟩

theorem count (b : Block) {j : Nat} (hj : j < 256) (n : Nat) : b.Flitted [(0x2704, j)] (b.count 0x2704 j n) :=
  ⟨⟨_, _, _, rfl⟩, fun i k hk h => count_od'_of_ne b n hk hj (by simpa using h)
    (by unfold odKey; omega) (by unfold odKey; omega)⟩

theorem time (h : b.Flitted ks c) : c.time = b.time := by obtain ⟨⟨_, _, _, rfl⟩, -⟩ := h; rfl

theorem portState (h : b.Flitted ks c) {n : Nat} (hn : n < 32) (hk : (0x2701, n + 1) ∉ ks) : c.portState n = b.portState n :=
  h.2 _ _ (by omega) hk

end Block.Flitted

/-- A command that only took and sent flits gives what holds of the end of that work and of its ports. -/
theorem gives_of_flitted {c : Instr} {s : State} {b : Block} {ks : List (Nat × Nat)} {P : State → Prop} (hs : Settled s)
    (h : exec c s = finish s b) (flitted : s.blk.Flitted ks b)
    (hP : ∀ t, EndOf s b t → (∀ m, (t.blk.port m).offLanes = (b.port m).offLanes ∧
      ∃ idle, t.blk.onLanes m = b.onLanes m ++ idle ∧ ∀ f ∈ idle, fl f 3 0 = 0) → t.mem = s.mem → OdOnly s t ks → P t) : Gives c s P := by
  obtain ⟨hposted, -, ⟨hraised, hheld, -⟩, -⟩ := hs
  have alike : b.raised = s.blk.raised ∧ b.heldBack = s.blk.heldBack ∧ b.posted = s.blk.posted := by
    obtain ⟨⟨_, _, _, rfl⟩, -⟩ := flitted
    exact ⟨rfl, rfl, rfl⟩
  refine gives_of_ports h (alike.1.trans hraised) (alike.2.1.trans hheld) fun t ht ports => hP t ht ports ?_ (ht.odOnly flitted.2)
  rw [ht.mem, alike.2.2, hposted]
  rfl

end Sys2Proof.Machine

/-! ### Flits on an UP port (R418 to R424) -/

namespace Sys2Proof.Machine
namespace Block

section
variable {b : Block} {n : Nat} (hn : n < 32) (up : b.portState n = 3)

theorem portUp_iff : b.portUp n = true ↔ b.portState n = 3 := beq_iff_eq

/-- A port after the header of a good flit has been taken, before it sends what it then can (R421 to R423). -/
def headed (now : Nat) (f : Flit) (p : Port) : Port :=
  addCredits f (if fl f 48 48 == 1 then ackReplay now (fl f 47 32) { p with goodAt := now } else { p with goodAt := now })

theorem ackReplay_received (now seq : Nat) (p : Port) : (ackReplay now seq p).received = p.received ∧ (ackReplay now seq p).number = p.number := by
  unfold ackReplay
  split <;> exact ⟨rfl, rfl⟩

theorem headed_received (now : Nat) (f : Flit) (p : Port) :
    (headed now f p).received = { p with goodAt := now }.received ∧ (headed now f p).number = p.number := by
  have credited (q : Port) : (addCredits f q).received = q.received ∧ (addCredits f q).number = q.number := ⟨rfl, rfl⟩
  unfold headed
  rw [(credited _).1, (credited _).2]
  split
  · exact ackReplay_received ..
  · exact ⟨rfl, rfl⟩

/-- What a good flit's header leaves of the sending side. -/
theorem headed_sending (now : Nat) (f : Flit) (p : Port) : (headed now f p).txq = p.txq ∧ (headed now f p).flits = p.flits ∧
    (fl f 48 48 ≠ 1 → (headed now f p).replay = p.replay) := by
  have acked (q : Port) (seq : Nat) : (ackReplay now seq q).txq = q.txq ∧ (ackReplay now seq q).flits = q.flits := by
    unfold ackReplay
    split <;> exact ⟨rfl, rfl⟩
  unfold headed
  split
  case isTrue ack => exact ⟨(acked _ _).1, (acked _ _).2, fun no => absurd (beq_iff_eq.1 ack) no⟩
  case isFalse => exact ⟨rfl, rfl, fun _ => rfl⟩

theorem headed_port (b : Block) (n : Nat) (f : Flit) : ((b.modPort n (headed b.time f)).heard (b.neighbour n)).port n = headed b.time f (b.port n) :=
  (port_congr rfl n).trans (port_modPort_self b ((headed_received ..).2.trans (port_number b n)))

include up

theorem takeHeader_eq (f : Flit) : b.takeHeader n f = ((b.modPort n (headed b.time f)).heard (b.neighbour n)).pump n := by
  unfold takeHeader
  rw [if_pos (portUp_iff.2 up)]
  rfl

/-- A good flit's header: the port has heard, and sends what it now can. -/
theorem takeHeader_up (f : Flit) : b.Sends (b.takeHeader n f) ∧
    ((b.takeHeader n f).port n).received = { b.port n with goodAt := b.time }.received := by
  rw [takeHeader_eq up]
  refine ⟨.trans (SentFrom.sends ⟨_, b.faults.injections, rfl⟩) (pumpN_sends _ _ n), ?_⟩
  rw [show (pump _ n).port n = _ from rfl, pump, (pumpN_portsKept _ _ n).port, headed_port, (headed_received ..).1]

/-- Where nothing waits to be sent, a good flit's header sends nothing. -/
theorem takeHeader_idle (f : Flit) (waits : (b.port n).txq = []) : b.SentFrom (b.takeHeader n f) ∧
    (b.takeHeader n f).port n = headed b.time f (b.port n) := by
  have still : pump ((b.modPort n (headed b.time f)).heard (b.neighbour n)) n = (b.modPort n (headed b.time f)).heard (b.neighbour n) := by
    have none : (headed b.time f (b.port n)).txq.length = 0 := by rw [(headed_sending ..).1, waits, List.length_nil]
    rw [pump, headed_port, none]
    rfl
  rw [takeHeader_eq up, still, headed_port]
  exact ⟨⟨_, b.faults.injections, rfl⟩, rfl⟩

include hn

/-- A good flit on an UP port: its header, then what it asks for. -/
theorem takeFlit_good {f : Flit} (good : flitGood f = true) : b.takeFlit n f = (b.takeHeader n f).actOn n f := by
  have still : (b.takeHeader n f).portState n = 3 := (Flitted.of_sends (takeHeader_up up f).1).portState hn (by simp) |>.trans up
  unfold takeFlit receives
  simp [portUp_iff.2 up, portUp_iff.2 still, good]

end

/-- A NAK of an UP port that has not sent one yet. -/
theorem refuseFlit_naks {b : Block} {n : Nat} (up : b.portState n = 3) (fresh : (b.port n).naking = false) :
    b.Flitted [(0x2704, 3)] (b.refuseFlit n) ∧ ((b.refuseFlit n).port n).received = { b.port n with naking := true }.received ∧
      (b.refuseFlit n).od' 0x2704 3 = add64 (b.od' 0x2704 3) 1 := by
  have sent : b.refuseFlit n = b.sendNak n := by
    unfold refuseFlit
    simp [portUp_iff.2 up, fresh]
  have link := launch_lanesMoved b n (flitHeader (b.port n) 2 0 0 0 0) (natLE 240 (pack [(96, 2), (224, (b.port n).rxSeq)] >>> 96))
  rw [sent]
  unfold sendNak sendLink
  generalize b.launch n _ _ = c at link
  have here : ((c.count 0x2704 3 1).modPort n (fun p => { p with naking := true })).port n = { c.port n with naking := true } :=
    port_modPort_self _ (port_number c n)
  have same : ((c.count 0x2704 3 1).modPort n (fun p => { p with naking := true })).od' 0x2704 3 = (c.count 0x2704 3 1).od' 0x2704 3 := rfl
  refine ⟨((Flitted.of_sentFrom link.1).mono (by simp)).trans ((Flitted.count c (by decide) 1).trans
    ((Flitted.modPort _ _ _).mono (by simp))), ?_, ?_⟩
  · have kept := Port.received_of_offLanes (link.2 n)
    rw [here]
    exact congrArg (fun p : Port => { p with naking := true }) kept
  · rw [same, count_self]
    obtain ⟨⟨_, _, rfl⟩, -⟩ := link
    rfl

/-- A DATA flit in order, that ends no message. -/
theorem takeData_ordered {b : Block} {n : Nat} {f : Flit} (seq : fl f 31 16 = (b.port n).rxSeq) (open' : fl f 8 8 = 0) :
    b.Flitted [(0x2704, 2)] (b.takeData n f) ∧ (b.takeData n f).od' 0x2704 2 = add64 (b.od' 0x2704 2) 1 ∧
      (b.takeData n f).port n =
        { b.port n with rxSeq := ((b.port n).rxSeq + 1) % 65536, naking := false, rx := (b.port n).rx ++ [(flitPool f, f)] } := by
  have taken : b.takeData n f = (b.modPort n (fun p =>
      { p with rxSeq := (p.rxSeq + 1) % 65536, naking := false, rx := p.rx ++ [(flitPool f, f)] })).count 0x2704 2 1 := by
    unfold takeData
    simp [seq, open']
  rw [taken]
  refine ⟨((Flitted.modPort b n _).mono (by simp)).trans (Flitted.count _ (by decide) 1), ?_, ?_⟩
  · rw [count_self]
    rfl
  · have self := port_modPort_self b (n := n) (g := fun p =>
      { p with rxSeq := (p.rxSeq + 1) % 65536, naking := false, rx := p.rx ++ [(flitPool f, f)] }) (port_number b n)
    exact self

end Block
end Sys2Proof.Machine

namespace Sys2Proof.Machine

/-- What an ECHO_REPLY carries (R424). -/
def echoAnswer (x : Flit) (now : Nat) : Nat := pack [(96, 4), (240, fl x 303 240), (304, now), (368, now)]

theorem echoAnswer_fields (x : Flit) (now : Nat) :
    bits (echoAnswer x now) 103 96 = 4 ∧ bits (echoAnswer x now) 303 240 = fl x 303 240 := by
  have short : fl x 303 240 < 2 ^ 64 := Nat.mod_lt _ (by decide)
  unfold echoAnswer
  generalize fl x 303 240 = v at short ⊢
  simp only [bits_eq, pack_cons, pack_nil]
  constructor <;> omega

/-- An ECHO has one ECHO_REPLY sent. -/
theorem Block.takeEcho_sends (b : Block) (n : Nat) (x : Flit) : b.LanesMoved (b.takeEcho n x) ∧
    ∃ f, ((b.takeEcho n x).port n).flits = (b.port n).flits ++ [f] ∧ fl f 3 0 = 2 ∧ fl f 103 96 = 4 ∧ fl f 303 240 = fl x 303 240 := by
  obtain ⟨bad, flits⟩ := launch_flits b n (flitHeader (b.port n) 2 0 0 0 0) (natLE 240 (echoAnswer x b.time >>> 96))
  refine ⟨launch_lanesMoved .., _, flits, fl_type_mkFlit _ _ _ _ _ _ _ (by decide), ?_, ?_⟩
  · rw [fl_mkFlit_link _ _ _ (by decide) (by decide), (echoAnswer_fields ..).1]
  · rw [fl_mkFlit_link _ _ _ (by decide) (by decide), (echoAnswer_fields ..).2]

/-- What a refused DATA flit leaves: one NAK more, and the buffers as they were. -/
theorem refused_flit {s : State} {n : Nat} (hs : Settled s) {c : Instr} {b : Block} {ks : List (Nat × Nat)} (still : b.portState n = 3) (fresh : (b.port n).naking = false)
    (flitted : s.blk.Flitted ks b) (naks : (0x2704, 3) ∉ ks) (buffer : (b.port n).rx = (s.blk.port n).rx)
    (next : (b.port n).rxSeq = (s.blk.port n).rxSeq) (work : exec c s = finish s (b.refuseFlit n)) :
    Gives c s (fun t => (t.blk.port n).rx = (s.blk.port n).rx ∧ (t.blk.port n).rxSeq = (s.blk.port n).rxSeq ∧
      (t.blk.port n).naking = true ∧ t.blk.od' 0x2704 3 = add64 (s.blk.od' 0x2704 3) 1 ∧ t.mem = s.mem ∧ OdOnly s t (ks ++ [(0x2704, 3)])) := by
  obtain ⟨sent, here, counted⟩ := Block.refuseFlit_naks still fresh
  have whole : s.blk.Flitted (ks ++ [(0x2704, 3)]) (b.refuseFlit n) := (flitted.mono (by simp)).trans (sent.mono (by simp))
  refine gives_of_flitted hs work whole fun t ht ports mem od => ?_
  have same := (Port.received_of_offLanes (ports n).1).trans here
  refine ⟨?_, ?_, (congrArg Port.naking same :), ?_, mem, od⟩
  · rw [← buffer]
    exact (congrArg Port.rx same :)
  · rw [← next]
    exact (congrArg Port.rxSeq same :)
  · rw [ht.od _ _ (by decide), counted, flitted.2 _ _ (by decide) naks]

section
variable {s : State} {n : Nat} {x : Flit} (hs : Settled s) (hn : n < 32) (up : s.blk.portState n = 3)
include hs hn up

/-- A DATA flit in order enters the receive buffer of its pool. -/
theorem data_taken (good : flitGood x = true) (type : fl x 3 0 = 1) (seq : fl x 31 16 = (s.blk.port n).rxSeq) (open' : fl x 8 8 = 0) :
    Gives (.data n x) s (fun t => (t.blk.port n).rx = (s.blk.port n).rx ++ [(flitPool x, x)] ∧
      (t.blk.port n).rxSeq = ((s.blk.port n).rxSeq + 1) % 65536 ∧ (t.blk.port n).naking = false ∧ (t.blk.port n).goodAt = s.blk.time ∧
      t.blk.od' 0x2704 2 = add64 (s.blk.od' 0x2704 2) 1 ∧ t.mem = s.mem ∧ OdOnly s t [(0x2704, 1), (0x2704, 2)]) := by
  obtain ⟨sent, header⟩ := Block.takeHeader_up up x
  have still : (s.blk.takeHeader n x).portState n = 3 := (Block.Flitted.of_sends sent).portState hn (by simp) |>.trans up
  have buffer : ((s.blk.takeHeader n x).port n).rx = (s.blk.port n).rx := (congrArg Port.rx header :)
  have next : ((s.blk.takeHeader n x).port n).rxSeq = (s.blk.port n).rxSeq := (congrArg Port.rxSeq header :)
  have heard : ((s.blk.takeHeader n x).port n).goodAt = s.blk.time := (congrArg Port.goodAt header :)
  obtain ⟨taken, counted, here⟩ := Block.takeData_ordered (b := s.blk.takeHeader n x) (seq.trans next.symm) open'
  have work : s.blk.takeTyped n x 1 none = (s.blk.takeHeader n x).takeData n x := by
    have asks : (s.blk.takeHeader n x).actOn n x = (s.blk.takeHeader n x).takeData n x := by
      unfold Block.actOn
      simp [type, Block.portUp_iff.2 still]
    unfold Block.takeTyped
    rw [if_pos (by simp [type]), Block.takeFlit_good hn up good, asks]
  have flitted : s.blk.Flitted [(0x2704, 1), (0x2704, 2)] ((s.blk.takeHeader n x).takeData n x) :=
    ((Block.Flitted.of_sends sent).mono (by simp)).trans (taken.mono (by simp))
  refine gives_of_flitted hs (congrArg (finish s) work) flitted fun t ht ports mem od => ?_
  have same := Port.received_of_offLanes (ports n).1
  rw [here] at same
  refine ⟨?_, ?_, (congrArg Port.naking same :), (congrArg Port.goodAt same :).trans heard, ?_, mem, od⟩
  · rw [← buffer]
    exact (congrArg Port.rx same :)
  · rw [← next]
    exact (congrArg Port.rxSeq same :)
  · rw [ht.od _ _ (by decide), counted, sent.2 _ _ (by decide) (by decide)]

/-- A DATA flit out of order is discarded, and makes one NAK. -/
theorem data_unordered (good : flitGood x = true) (type : fl x 3 0 = 1) (seq : fl x 31 16 ≠ (s.blk.port n).rxSeq)
    (fresh : (s.blk.port n).naking = false) :
    Gives (.data n x) s (fun t => (t.blk.port n).rx = (s.blk.port n).rx ∧ (t.blk.port n).rxSeq = (s.blk.port n).rxSeq ∧
      (t.blk.port n).naking = true ∧ t.blk.od' 0x2704 3 = add64 (s.blk.od' 0x2704 3) 1 ∧ t.mem = s.mem ∧
      OdOnly s t [(0x2704, 1), (0x2704, 3)]) := by
  obtain ⟨sent, header⟩ := Block.takeHeader_up up x
  have still : (s.blk.takeHeader n x).portState n = 3 := (Block.Flitted.of_sends sent).portState hn (by simp) |>.trans up
  have next : ((s.blk.takeHeader n x).port n).rxSeq = (s.blk.port n).rxSeq := (congrArg Port.rxSeq header :)
  have work : s.blk.takeTyped n x 1 none = (s.blk.takeHeader n x).refuseFlit n := by
    have asks : (s.blk.takeHeader n x).actOn n x = (s.blk.takeHeader n x).refuseFlit n := by
      unfold Block.actOn Block.takeData
      simp [type, Block.portUp_iff.2 still, next, seq]
    unfold Block.takeTyped
    rw [if_pos (by simp [type]), Block.takeFlit_good hn up good, asks]
  exact refused_flit hs still ((congrArg Port.naking header :).trans fresh) (Block.Flitted.of_sends sent) (by decide)
    (congrArg Port.rx header :) next (congrArg (finish s) work)

omit hn in
/-- A flit whose CRC fails is discarded, and makes one NAK. -/
theorem data_damaged (bad : flitGood x = false) (type : fl x 3 0 = 1) (fresh : (s.blk.port n).naking = false) :
    Gives (.data n x) s (fun t => (t.blk.port n).rx = (s.blk.port n).rx ∧ (t.blk.port n).rxSeq = (s.blk.port n).rxSeq ∧
      (t.blk.port n).naking = true ∧ t.blk.od' 0x2704 3 = add64 (s.blk.od' 0x2704 3) 1 ∧ t.mem = s.mem ∧
      OdOnly s t [(0x2704, 3)]) := by
  have work : s.blk.takeTyped n x 1 none = s.blk.refuseFlit n := by
    unfold Block.takeTyped Block.takeFlit Block.receives
    simp [type, Block.portUp_iff.2 up, bad]
  exact refused_flit hs up fresh (Block.Flitted.refl [] s.blk) (by decide) rfl rfl (congrArg (finish s) work)

/-- An ECHO is answered with its T1. -/
theorem echo_answered (good : flitGood x = true) (type : fl x 3 0 = 2) (lcmd : fl x 103 96 = 3) (waits : (s.blk.port n).txq = []) :
    Gives (.echo n x) s (fun t => t.mem = s.mem ∧ OdOnly s t [] ∧
      ∃ f idle, t.blk.onLanes n = s.blk.onLanes n ++ f :: idle ∧ (∀ g ∈ idle, fl g 3 0 = 0) ∧ fl f 3 0 = 2 ∧
        fl f 103 96 = 4 ∧ fl f 303 240 = fl x 303 240) := by
  obtain ⟨sent, header⟩ := Block.takeHeader_idle up x waits
  have still : (s.blk.takeHeader n x).portState n = 3 := (Block.Flitted.of_sentFrom sent).portState hn (by simp) |>.trans up
  have work : s.blk.takeTyped n x 2 (some 3) = (s.blk.takeHeader n x).takeEcho n x := by
    have asks : (s.blk.takeHeader n x).actOn n x = (s.blk.takeHeader n x).takeEcho n x := by
      unfold Block.actOn
      simp [type, lcmd, Block.portUp_iff.2 still]
    unfold Block.takeTyped
    rw [if_pos (by simp [type, lcmd]), Block.takeFlit_good hn up good, asks]
  have lanes : ((s.blk.takeHeader n x).port n).flits = (s.blk.port n).flits := by rw [header, (Block.headed_sending ..).2.1]
  obtain ⟨moved, f, flits, ftype, command, time⟩ := Block.takeEcho_sends (s.blk.takeHeader n x) n x
  refine gives_of_flitted hs (congrArg (finish s) work) ((Block.Flitted.of_sentFrom sent).trans (.of_sentFrom moved.1))
    fun t ht ports mem od => ⟨mem, od, ?_⟩
  obtain ⟨-, idle, more, kind⟩ := ports n
  refine ⟨f, idle, more.trans ?_, kind, ftype, command, time⟩
  rw [lanes] at flits
  rw [← List.singleton_append, ← List.append_assoc]
  exact congrArg (· ++ idle) flits

/-- An ECHO_REPLY gives the four times. -/
theorem echoReply_taken (good : flitGood x = true) (type : fl x 3 0 = 2) (lcmd : fl x 103 96 = 4) :
    Gives (.echoReply n x) s (fun t => t.mem = s.mem ∧ OdOnly s t [(0x2704, 1)] ∧
      (t.blk.port n).echo = some (fl x 303 240, fl x 367 304, fl x 431 368, s.blk.time)) := by
  obtain ⟨sent, -⟩ := Block.takeHeader_up up x
  have still : (s.blk.takeHeader n x).portState n = 3 := (Block.Flitted.of_sends sent).portState hn (by simp) |>.trans up
  have time : (s.blk.takeHeader n x).time = s.blk.time := (Block.Flitted.of_sends sent).time
  have work : s.blk.takeTyped n x 2 (some 4) = (s.blk.takeHeader n x).takeEchoReply n x := by
    have asks : (s.blk.takeHeader n x).actOn n x = (s.blk.takeHeader n x).takeEchoReply n x := by
      unfold Block.actOn
      simp [type, lcmd, Block.portUp_iff.2 still]
    unfold Block.takeTyped
    rw [if_pos (by simp [type, lcmd]), Block.takeFlit_good hn up good, asks]
  have flitted : s.blk.Flitted [(0x2704, 1)] ((s.blk.takeHeader n x).takeEchoReply n x) :=
    (Block.Flitted.of_sends sent).trans ((Block.Flitted.modPort ..).mono (by simp))
  refine gives_of_flitted hs (congrArg (finish s) work) flitted fun t ht ports mem od => ⟨mem, od, ?_⟩
  have here : ((s.blk.takeHeader n x).takeEchoReply n x).port n =
      { (s.blk.takeHeader n x).port n with echo := some (fl x 303 240, fl x 367 304, fl x 431 368, (s.blk.takeHeader n x).time) } :=
    Block.port_modPort_self _ (Block.port_number _ n)
  have same := congrArg Port.echo (ports n).1
  rw [here, time] at same
  exact same

/-- An IDLE flit only says that the link lives. -/
theorem idle_taken (good : flitGood x = true) (type : fl x 3 0 = 0) :
    Gives (.idle n x) s (fun t => t.mem = s.mem ∧ OdOnly s t [(0x2704, 1)] ∧ (t.blk.port n).goodAt = s.blk.time ∧
      (t.blk.port n).rx = (s.blk.port n).rx ∧ (t.blk.port n).rxSeq = (s.blk.port n).rxSeq) := by
  obtain ⟨sent, header⟩ := Block.takeHeader_up up x
  have work : s.blk.takeTyped n x 0 none = s.blk.takeHeader n x := by
    have asks : (s.blk.takeHeader n x).actOn n x = s.blk.takeHeader n x := by
      unfold Block.actOn
      simp [type]
    unfold Block.takeTyped
    rw [if_pos (by simp [type]), Block.takeFlit_good hn up good, asks]
  refine gives_of_flitted hs (congrArg (finish s) work) (.of_sends sent) fun t ht ports mem od => ?_
  have same := (Port.received_of_offLanes (ports n).1).trans header
  exact ⟨mem, od, (congrArg Port.goodAt same :), (congrArg Port.rx same :), (congrArg Port.rxSeq same :)⟩

end
end Sys2Proof.Machine

/-! ### Peers and routes: what their changes leave alone (R428 to R430, R441 to R447) -/

namespace Sys2Proof.Machine
namespace Block

/-- Indices of the entries that messages, peers and their events show. -/
def carriedIndices : List Nat := [0x2202, 0x2303, 0x2504, 0x2702, 0x2703, 0x2704, 0x2800]

/-- c is b once messages have gone, and peers with them: what the ports received, the ports' states, the time and the
flows' numbers are as they were. -/
structure Carried (b c : Block) : Prop where
  ports : b.PortsKept c
  od : ∀ i j, j < 256 → i ∉ carriedIndices → c.od' i j = b.od' i j
  time : c.time = b.time
  ids : c.flows.map (·.id) = b.flows.map (·.id)

namespace Carried

variable {b c d : Block}

theorem refl (b : Block) : b.Carried b := ⟨.refl b, fun _ _ _ _ => rfl, rfl, rfl⟩

theorem trans (h : b.Carried c) (h' : c.Carried d) : b.Carried d :=
  ⟨h.ports.trans h'.ports, fun i j hj hi => (h'.od i j hj hi).trans (h.od i j hj hi), h'.time.trans h.time, h'.ids.trans h.ids⟩

theorem foldl {α : Type} {g : Block → α → Block} (hg : ∀ (b : Block) x, b.Carried (g b x)) (l : List α) (b : Block) :
    b.Carried (l.foldl g b) :=
  List.foldlRecOn (motive := b.Carried) _ _ (.refl b) fun c hc x _ => hc.trans (hg c x)

theorem of_sends (h : b.Sends c) (kept : b.PortsKept c) : b.Carried c := by
  obtain ⟨⟨_, _, _, rfl⟩, keep⟩ := h
  exact ⟨kept, fun i j hj hi => keep i j hj fun same => hi (by cases same; decide), rfl, rfl⟩

theorem of_noted (h : b.Noted c) : b.Carried c := by
  obtain ⟨⟨_, _, _, _, _, _, _, _, rfl⟩, keep, -⟩ := h
  refine ⟨.of_ports rfl, fun i j hj hi => keep i j hj fun mem => hi ?_, rfl, rfl⟩
  have indices : ∀ k ∈ eventKeys, k.1 ∈ carriedIndices := by decide
  exact indices _ mem

theorem setOd (b : Block) {i j : Nat} (v : Nat) (hi : i ∈ carriedIndices) (hj : j < 256) : b.Carried (b.setOd i j v) := by
  have apart : ∀ i ∈ carriedIndices, ∀ j < 256, odKey i j ≠ odKey 0x1000 6 ∧ odKey i j ≠ odKey 0x2700 1 := by
    intro i hi j hj
    rw [Ne, Ne, odKey_inj hj (by decide), odKey_inj hj (by decide)]
    fin_cases hi <;> simp
  exact ⟨.of_ports rfl, fun i' j' hj' hi' => setOd_od'_of_ne b v hj' hj (fun same => hi' (by cases same; exact hi))
    (apart i hi j hj).1 (apart i hi j hj).2, rfl, rfl⟩

theorem count (b : Block) {i j : Nat} (n : Nat) (hi : i ∈ carriedIndices) (hj : j < 256) : b.Carried (b.count i j n) := setOd b _ hi hj

theorem portState (h : b.Carried c) {n : Nat} (hn : n < 32) : c.portState n = b.portState n := h.od _ _ (by omega) (by decide)

theorem neighbour (h : b.Carried c) {n : Nat} (hn : n < 32) : c.neighbour n = b.neighbour n := h.od _ _ (by omega) (by decide)

end Carried

theorem sendOn_carried (b : Block) (n cls : Nat) (msg : Bytes) : b.Carried (b.sendOn n cls msg) :=
  .of_sends (sendOn_sends ..) (sendOn_portsKept ..)

theorem modPeer_carried (b : Block) (p : Nat) (g : Peer → Peer) : b.Carried (b.modPeer p g) :=
  .of_sends (modPeer_sends ..) (modPeer_portsKept ..)

theorem event_carried (b : Block) (ty payload : Nat) : b.Carried (b.event ty payload) := .of_noted (event_noted ..)

theorem failRow_id (status : Nat) (f : Flow) (r : RemoteRow) : (failRow status f r).id = f.id := by
  unfold failRow
  split_ifs <;> rfl

theorem failRows_id (hit : RemoteRow → Bool) (status : Nat) (f : Flow) : (failRows hit status f).id = f.id :=
  List.foldlRecOn (motive := fun g : Flow => g.id = f.id) _ _ rfl fun g hg r _ => (failRow_id status g r).trans hg

theorem lostTile_id (f : Flow) (t : Tile) : (lostTile f t).id = f.id := by
  unfold lostTile
  split <;> rfl

/-- Flows changed, each keeping its number. -/
theorem flows_carried (b : Block) {g : Flow → Flow} (hg : ∀ f, (g f).id = f.id) (sy : Seryo) (st : Streams) (hsy : sy.ports = b.seryo.ports) :
    b.Carried { b with flows := b.flows.map g, seryo := sy, streams := st } := by
  refine ⟨.of_ports hsy, fun _ _ _ _ => rfl, rfl, ?_⟩
  rw [List.map_map]
  exact List.map_congr_left fun f _ => hg f

theorem refuseMsg_carried (b : Block) (p : Nat) (s : SentMsg) : b.Carried (b.refuseMsg p s) := by
  unfold refuseMsg
  split
  · exact .refl b
  · dsimp only
    refine .trans ?_ (.count _ _ (by decide) (by decide))
    exact flows_carried b (failRows_id _ 4) _ b.streams rfl

theorem resendOne_carried (b : Block) (p : Nat) (s : SentMsg) : b.Carried (b.resendOne p s) := by
  unfold resendOne
  split
  · exact refuseMsg_carried ..
  · split
    · exact .refl b
    · exact (modPeer_carried b p _).trans ((Carried.count _ _ (by decide) (by decide)).trans (sendOn_carried ..))

theorem resend_carried (b : Block) (lost : Nat → SentMsg → Bool) : b.Carried (b.resend lost) :=
  .foldl (fun c (p : Peer) => .foldl (fun c s => resendOne_carried c p.number s) _ c) _ b

theorem showPeers_carried (b : Block) : b.Carried b.showPeers :=
  (Carried.setOd b _ (by decide) (by decide)).trans ((Carried.setOd _ _ (by decide) (by decide)).trans
    (Carried.setOd _ _ (by decide) (by decide)))

theorem setMismatch_carried (b : Block) (map epoch : Nat) : b.Carried (b.setMismatch map epoch) := by
  unfold setMismatch
  split
  · exact .refl b
  · exact (Carried.setOd b map (by decide) (by decide)).trans (event_carried ..)

theorem sendRoutes_carried (b : Block) (lost found : Nat) : b.Carried (b.sendRoutes lost found) :=
  .foldl (fun c n => sendOn_carried c n 0 _) _ b

theorem depart_carried (b : Block) (p : Nat) : b.Carried (b.depart p) := by
  unfold depart
  split
  · exact .refl b
  · dsimp only
    refine .trans ?_ (showPeers_carried _)
    refine .trans ?_ (setMismatch_carried _ _ _)
    refine .trans ?_ (event_carried _ _ _)
    refine .trans ?_ (Carried.count _ _ (by decide) (by decide))
    refine .trans ?_ (Carried.count _ _ (by decide) (by decide))
    rw [List.map_map]
    refine flows_carried b (fun f => ?_) _ _ rfl
    exact List.foldlRecOn (motive := fun g : Flow => g.id = f.id) _ _ (failRows_id _ 1 f) fun g hg t _ => (lostTile_id g t).trans hg

theorem departLost_carried (b : Block) : b.Carried b.departLost := .foldl (fun c (p : Peer) => depart_carried c p.number) _ b

theorem routesChanged_carried (b : Block) (old : Nat) : b.Carried (b.routesChanged old) := by
  unfold routesChanged
  dsimp only
  refine .trans ?_ ((showPeers_carried _).trans (departLost_carried _))
  split
  · exact .refl b
  · exact sendRoutes_carried ..

theorem TilesMoved.carried {b c : Block} (h : b.TilesMoved c) (kept : b.PortsKept c) : b.Carried c := by
  have ids := h.ids
  obtain ⟨⟨_, _, _, _, _, rfl⟩, -, keep⟩ := h
  exact ⟨kept, fun i j hj hi => keep i j hj fun same => hi (by cases same; decide), rfl, ids⟩

theorem moveAllTiles_carried (b : Block) : b.Carried b.moveAllTiles := (moveAllTiles_tilesMoved b).carried (moveAllTiles_portsKept b)

theorem flap_carried (b : Block) (n : Nat) : b.Carried (b.flap n) := by
  unfold flap
  dsimp only
  split <;> exact ⟨.of_ports rfl, fun _ _ _ _ => rfl, rfl, rfl⟩

/-! ### A port's state changes (R425) -/

theorem setOd_portState_self (b : Block) (n dest : Nat) : (b.setOd 0x2701 (n + 1) dest).portState n = dest := by
  unfold Block.portState
  exact setOd_self ..

/-- Another entry of OD 0x2701. -/
theorem setOd_port_other (b : Block) {j j' v : Nat} (hj : j < 256) (hj' : j' < 256) (h : j' ≠ j) :
    (b.setOd 0x2701 j v).od' 0x2701 j' = b.od' 0x2701 j' :=
  setOd_od'_of_ne b v hj' hj (by simpa using h) (by unfold odKey; omega) (by unfold odKey; omega)

/-- A new state of a port, shown with its event. -/
def stateShown (b : Block) (n dest : Nat) : Block :=
  (b.setOd 0x2701 (n + 1) dest).seryoEvent 0 (if b.neighbour n == 0xFF then 0 else b.neighbour n) n (b.portState n) dest 0 0

theorem stateShown_shows (b : Block) {n : Nat} (dest : Nat) (hn : n < 32) : (b.stateShown n dest).portState n = dest ∧
    (b.stateShown n dest).neighbour n = b.neighbour n ∧ (b.stateShown n dest).time = b.time ∧
    (b.stateShown n dest).seryo = b.seryo := by
  unfold stateShown seryoEvent
  generalize pack _ = payload
  have noted := event_noted (b.setOd 0x2701 (n + 1) dest) 6 payload
  have carried := Carried.of_noted noted
  refine ⟨(carried.portState hn).trans (setOd_portState_self b n dest),
    (carried.neighbour hn).trans (setOd_port_other b (by omega) (by omega) (by omega)), carried.time, ?_⟩
  obtain ⟨⟨_, _, _, _, _, _, _, _, same⟩, -, -⟩ := noted
  rw [same]
  rfl

/-- What a port keeps as it leaves for another state than UP. -/
def unlinked (p : Port) (now : Nat) : Port :=
  { blankPort p.number with sent := p.sent, pairNo := p.pairNo, trainAt := now, goodAt := now }

/-- A port without link, its neighbour forgotten. -/
def unlink (b : Block) (n now : Nat) : Block := (b.setOd 0x2701 (0x21 + n) 0xFF).putPort (unlinked (b.port n) now)

theorem unlink_shows (b : Block) {n : Nat} (now : Nat) (hn : n < 32) : (b.unlink n now).portState n = b.portState n ∧
    (b.unlink n now).time = b.time ∧ (b.unlink n now).port n = unlinked (b.port n) now := by
  have put := port_putPort_self (b.setOd 0x2701 (0x21 + n) 0xFF) (unlinked (b.port n) now)
  rw [show (unlinked (b.port n) now).number = n from port_number b n] at put
  exact ⟨setOd_port_other b (by omega) (by omega) (by omega), rfl, put⟩

theorem setPortState_same {b : Block} {n dest : Nat} (h : b.portState n = dest) : b.setPortState n dest = b := by
  unfold setPortState
  exact if_pos (beq_iff_eq.2 h)

/-- A port's state changes, UP, ISOLATED or else. -/
theorem setPortState_of_ne {b : Block} {n dest : Nat} (h : b.portState n ≠ dest) : b.setPortState n dest =
    if dest = psUp then b.stateShown n dest
    else if dest = psIsolated then (((b.stateShown n dest).unlink n b.time).sendIdle n).idleFill n
    else (b.stateShown n dest).unlink n b.time := by
  have own : unlinked ((b.stateShown n dest).port n) b.time = { blankPort n with
      sent := ((b.stateShown n dest).port n).sent, pairNo := ((b.stateShown n dest).port n).pairNo, trainAt := b.time, goodAt := b.time } := by
    unfold unlinked
    rw [port_number]
  unfold unlink
  rw [own]
  unfold setPortState stateShown
  dsimp only
  simp only [beq_iff_eq, if_neg h]

/-- Whatever the state a port leaves for, it then has it. -/
theorem setPortState_state (b : Block) {n : Nat} (dest : Nat) (hn : n < 32) : (b.setPortState n dest).portState n = dest ∧
    (b.setPortState n dest).time = b.time := by
  by_cases same : b.portState n = dest
  · rw [setPortState_same same]
    exact ⟨same, rfl⟩
  obtain ⟨state, -, time, -⟩ := b.stateShown_shows dest hn
  obtain ⟨state', time', -⟩ := (b.stateShown n dest).unlink_shows b.time hn
  rw [setPortState_of_ne same]
  split_ifs
  · exact ⟨state, time⟩
  · generalize (b.stateShown n dest).unlink n b.time = c at state' time'
    have idled : c.Idled ((c.sendIdle n).idleFill n) := (sendIdle_idled c n).trans (idleOut_idled _ _ n)
    obtain ⟨⟨_, _, filled⟩, -⟩ := idled.moved
    refine ⟨(idled.moved.portState n).trans (state'.trans state), ?_⟩
    rw [filled]
    exact time'.trans time
  · exact ⟨state'.trans state, time'.trans time⟩

/-- A port that leaves its state for another than UP has that state. -/
theorem leavePort_state (b : Block) {n : Nat} (dest : Nat) (hn : n < 32) : (b.leavePort n dest).portState n = dest ∧
    (b.leavePort n dest).time = b.time := by
  unfold leavePort
  split
  · dsimp only
    obtain ⟨state, time⟩ := b.setPortState_state dest hn
    have counted : (b.setPortState n dest).Carried ((b.setPortState n dest).count 0x2704 6 (b2n (dest != psIsolated))) :=
      .count _ _ (by decide) (by decide)
    generalize (b.setPortState n dest).count 0x2704 6 (b2n (dest != psIsolated)) = c at counted
    have flapped : c.Carried (if (dest == psDown) = true then c.flap n else c) := by
      split
      · exact flap_carried c n
      · exact .refl c
    have whole := counted.trans (flapped.trans ((resend_carried _ (fun _ s => s.port == n)).trans (routesChanged_carried _ b.directMap)))
    exact ⟨(whole.portState hn).trans state, whole.time.trans time⟩
  · exact b.setPortState_state dest hn

end Block
end Sys2Proof.Machine

/-! ### NAKs and codeword pairs on an UP port (R418, R419, R422) -/

namespace Sys2Proof.Machine
namespace Block

theorem PortsKept.rx {b c : Block} (h : b.PortsKept c) (m : Nat) : (c.port m).rx = (b.port m).rx := (congrArg Port.rx (h.port m) :)

theorem PortsKept.rxSeq {b c : Block} (h : b.PortsKept c) (m : Nat) : (c.port m).rxSeq = (b.port m).rxSeq :=
  (congrArg Port.rxSeq (h.port m) :)

theorem flitPayload_length (f : Flit) : (flitPayload f).length = 240 := natLE_length ..

theorem fit_of_length {bs : Bytes} {k : Nat} (h : bs.length = k) : fit k bs = bs := by
  unfold fit slice
  simp [zeros, h, List.take_of_length_le h.le]

theorem sendAgain_flit (b : Block) (n : Nat) (e : Nat × Flit) :
    ∃ f, ((b.sendAgain n e).port n).flits = (b.port n).flits ++ [f] ∧ flitPayload f = flitPayload e.2 := by
  obtain ⟨bad, one⟩ := launch_flits b n (flitHeader (b.port n) 1 (flitPool e.2) (fl e.2 7 7) (fl e.2 8 8) e.1) (flitPayload e.2)
  exact ⟨_, one, (flitPayload_mkFlit _ _ bad).trans (fit_of_length (flitPayload_length _))⟩

/-- What is sent again are the payloads of the replay buffer. -/
theorem sendAgain_foldl (n : Nat) (l : List (Nat × Flit)) (b : Block) : b.LanesMoved (l.foldl (fun b x => b.sendAgain n x) b) ∧
    ∃ fs, ((l.foldl (fun b x => b.sendAgain n x) b).port n).flits = (b.port n).flits ++ fs ∧
      fs.map flitPayload = l.map (fun e => flitPayload e.2) := by
  induction l generalizing b with
  | nil => exact ⟨.refl b, [], by simp⟩
  | cons e l ih =>
    obtain ⟨f, one, own⟩ := sendAgain_flit b n e
    obtain ⟨moved, fs, more, same⟩ := ih (b.sendAgain n e)
    refine ⟨(launch_lanesMoved ..).trans moved, f :: fs, more.trans ?_, ?_⟩
    · rw [one, List.append_assoc, List.singleton_append]
    · rw [List.map_cons, List.map_cons, same, own]

/-- The NAK's run that a port has noted. -/
def nakNoted (e run : Nat) (p : Port) : Port := { p with nakSeq := e, nakRun := run }

/-- How often in a row a port has been sent the same NAK, with this one. -/
def nakRunNext (e : Nat) (p : Port) : Nat := if p.nakSeq == e && p.nakRun != 0 then p.nakRun + 1 else 1

theorem takeNak_again {b : Block} {n : Nat} {f : Flit} (few : ¬ ((b.port n).nakSeq = fl f 239 224 ∧ 3 ≤ (b.port n).nakRun)) :
    b.takeNak n f = ((b.port n).replay.dropWhile (fun x => x.1 != fl f 239 224)).foldl (fun b x => b.sendAgain n x)
      (b.modPort n (nakNoted (fl f 239 224) (nakRunNext (fl f 239 224) (b.port n)))) := by
  have low : ¬ 4 ≤ nakRunNext (fl f 239 224) (b.port n) := by
    unfold nakRunNext
    split
    case isTrue h => simp at h; omega
    case isFalse => omega
  exact if_neg low

theorem takeNak_last {b : Block} {n : Nat} {f : Flit} (seq : (b.port n).nakSeq = fl f 239 224) (run : 3 ≤ (b.port n).nakRun) :
    b.takeNak n f = (b.modPort n (nakNoted (fl f 239 224) (nakRunNext (fl f 239 224) (b.port n)))).leavePort n psDown := by
  have high : 4 ≤ nakRunNext (fl f 239 224) (b.port n) := by
    unfold nakRunNext
    rw [if_pos (by simp [seq]; omega)]
    omega
  exact if_pos high

/-- The symbols of a pair, as its port notes them. -/
def symbolsNoted (k sum now : Nat) (anew : Bool) (p : Port) : Port :=
  { p with symbols := min 255 k, symbolSum := sum, symbolAt := if anew then now else p.symbolAt }

theorem countSymbols_noted (b : Block) (n k : Nat) :
    ∃ sum anew, ((b.modPort n (symbolsNoted k sum b.time anew)).count 0x2704 4 k).Noted (b.countSymbols n k) := by
  refine ⟨(if (b.port n).symbolAt + 1000000 ≤ b.time then 0 else (b.port n).symbolSum) + k,
    decide ((b.port n).symbolAt + 1000000 ≤ b.time), ?_⟩
  have told (c : Block) (p : Prop) [Decidable p] (kind peer : Nat) : c.Noted (if p then c.seryoEvent kind peer n 0 0 0 0 else c) := by
    split
    · exact event_noted ..
    · exact .refl c
  unfold countSymbols symbolsNoted
  simp only [decide_eq_true_eq]
  exact told _ _ _ _

/-- A pair's symbols are counted, and nothing that its port has received is touched. -/
theorem countSymbols_counts (b : Block) {n : Nat} (k : Nat) (hn : n < 32) : (b.countSymbols n k).portState n = b.portState n ∧
    (b.countSymbols n k).od' 0x2704 4 = add64 (b.od' 0x2704 4) k ∧ (b.countSymbols n k).od' 0x2704 5 = b.od' 0x2704 5 ∧
    ((b.countSymbols n k).port n).rx = (b.port n).rx ∧ ((b.countSymbols n k).port n).rxSeq = (b.port n).rxSeq := by
  have counted (sum : Nat) (anew : Bool) (c : Block) (noted : ((b.modPort n (symbolsNoted k sum b.time anew)).count 0x2704 4 k).Noted c) :
      c.portState n = b.portState n ∧ c.od' 0x2704 4 = add64 (b.od' 0x2704 4) k ∧ c.od' 0x2704 5 = b.od' 0x2704 5 ∧
        (c.port n).rx = (b.port n).rx ∧ (c.port n).rxSeq = (b.port n).rxSeq := by
    have flitted := (Flitted.modPort b n (symbolsNoted k sum b.time anew)).mono (List.nil_subset _) |>.trans
      (Flitted.count _ (by decide : 4 < 256) k)
    have here : ((b.modPort n (symbolsNoted k sum b.time anew)).count 0x2704 4 k).port n = symbolsNoted k sum b.time anew (b.port n) :=
      port_modPort_self b (port_number b n)
    have received := (Carried.of_noted noted).ports.port n
    rw [here] at received
    refine ⟨((Carried.of_noted noted).portState hn).trans (flitted.portState hn (by simp)), ?_, ?_,
      (congrArg Port.rx received :), (congrArg Port.rxSeq received :)⟩
    · rw [noted.od _ _ (by decide) (by decide), count_self]
      rfl
    · rw [noted.od _ _ (by decide) (by decide), flitted.2 _ _ (by decide) (by decide)]
  obtain ⟨sum, anew, noted⟩ := countSymbols_noted b n k
  exact counted sum anew _ noted

/-- The receiving end of a port is part of what a good flit's header leaves. -/
theorem received_receives {p q : Port} {t : Nat} (h : p.received = { q with goodAt := t }.received) :
    p.rx = q.rx ∧ p.rxSeq = q.rxSeq :=
  ⟨(congrArg Port.rx h :), (congrArg Port.rxSeq h :)⟩

/-- A pair at an UP port. -/
theorem takePair_up {b : Block} {n : Nat} (up : b.portState n = 3) (frame symbols : Nat) (corrected : Bool) (flits : List Flit) :
    b.takePair n frame symbols corrected flits =
      if !corrected then ((b.countSymbols n symbols).count 0x2704 5 1).refuseFlit n
      else if !frameGood frame then (b.countSymbols n symbols).leavePort n psDown
      else flits.foldl (fun b f => b.takeFlit n f) (b.countSymbols n symbols) := by
  have receives : ¬ (!b.receives n) = true := by
    unfold Block.receives
    rw [portUp_iff.2 up]
    simp
  exact if_neg receives

/-- A flit that is discarded leaves the receive buffers. -/
theorem refuseFlit_keeps {b : Block} {n : Nat} (up : b.portState n = 3) : b.Flitted [(0x2704, 3)] (b.refuseFlit n) ∧
    ((b.refuseFlit n).port n).rx = (b.port n).rx ∧ ((b.refuseFlit n).port n).rxSeq = (b.port n).rxSeq := by
  by_cases naks : (b.port n).naking = true
  · have same : b.refuseFlit n = b := by
      unfold refuseFlit
      simp [naks]
    rw [same]
    exact ⟨.refl _ b, rfl, rfl⟩
  · obtain ⟨flitted, received, -⟩ := refuseFlit_naks up (by simpa using naks)
    exact ⟨flitted, (congrArg Port.rx received :), (congrArg Port.rxSeq received :)⟩

end Block

section
variable {s : State} {n : Nat} {x : Flit} (hs : Settled s) (hn : n < 32) (up : s.blk.portState n = 3)

include hn up in
theorem takeTyped_nak (good : flitGood x = true) (type : fl x 3 0 = 2) (lcmd : fl x 103 96 = 2) :
    s.blk.takeTyped n x 2 (some 2) = (s.blk.takeHeader n x).takeNak n x := by
  have still : (s.blk.takeHeader n x).portState n = 3 :=
    (Block.Flitted.of_sends (Block.takeHeader_up up x).1).portState hn (by simp) |>.trans up
  have asks : (s.blk.takeHeader n x).actOn n x = (s.blk.takeHeader n x).takeNak n x := by
    unfold Block.actOn
    simp [type, lcmd, Block.portUp_iff.2 still]
  unfold Block.takeTyped
  rw [if_pos (by simp [type, lcmd]), Block.takeFlit_good hn up good, asks]

include hs hn up in
/-- A NAK has the payloads from its EXPECT_SEQ on sent again. -/
theorem nak_served (good : flitGood x = true) (type : fl x 3 0 = 2) (lcmd : fl x 103 96 = 2) (ack : fl x 48 48 = 0)
    (waits : (s.blk.port n).txq = []) (few : ¬ ((s.blk.port n).nakSeq = fl x 239 224 ∧ 3 ≤ (s.blk.port n).nakRun))
    (stays : s.blk.NoneLeaves) : Gives (.nak n x) s (fun t =>
      (∃ fs idle, t.blk.onLanes n = s.blk.onLanes n ++ fs ++ idle ∧ (∀ f ∈ idle, fl f 3 0 = 0) ∧
        fs.map flitPayload = ((s.blk.port n).replay.dropWhile (fun e => e.1 != fl x 239 224)).map (fun e => flitPayload e.2)) ∧
      (t.blk.port n).replay = (s.blk.port n).replay ∧ (t.blk.port n).nakSeq = fl x 239 224 ∧ t.mem = s.mem ∧ OdOnly s t []) := by
  obtain ⟨sent, header⟩ := Block.takeHeader_idle up x waits
  obtain ⟨-, flits, replay⟩ := Block.headed_sending s.blk.time x (s.blk.port n)
  have received := (Block.headed_received s.blk.time x (s.blk.port n)).1
  rw [← header] at flits replay received
  have buffer := replay (by omega)
  have seq : ((s.blk.takeHeader n x).port n).nakSeq = (s.blk.port n).nakSeq := (congrArg Port.nakSeq received :)
  have again : ((s.blk.takeHeader n x).port n).nakRun = (s.blk.port n).nakRun := (congrArg Port.nakRun received :)
  have taken := Block.takeNak_again (b := s.blk.takeHeader n x) (n := n) (f := x) (by rwa [seq, again])
  generalize Block.nakRunNext (fl x 239 224) ((s.blk.takeHeader n x).port n) = run at taken
  obtain ⟨moved, fs, more, payloads⟩ := Block.sendAgain_foldl n
    (((s.blk.takeHeader n x).port n).replay.dropWhile (fun e => e.1 != fl x 239 224))
    ((s.blk.takeHeader n x).modPort n (Block.nakNoted (fl x 239 224) run))
  rw [← taken] at moved more
  have noted : ((s.blk.takeHeader n x).modPort n (Block.nakNoted (fl x 239 224) run)).port n =
      Block.nakNoted (fl x 239 224) run ((s.blk.takeHeader n x).port n) := Block.port_modPort_self _ (Block.port_number _ n)
  have lanes := moved.2 n
  rw [noted] at more lanes
  have flitted : s.blk.Flitted [] ((s.blk.takeHeader n x).takeNak n x) :=
    (Block.Flitted.of_sentFrom sent).trans ((Block.Flitted.modPort ..).trans (.of_sentFrom moved.1))
  have none : ((s.blk.takeHeader n x).takeNak n x).NoneLeaves := by
    obtain ⟨⟨_, _, _, same⟩, -⟩ := flitted
    rw [same]
    exact stays
  have work : exec (.nak n x) s = finish s ((s.blk.takeHeader n x).takeNak n x) := by
    show finish s (s.blk.takeTyped n x 2 (some 2)).moveAllTiles = _
    rw [takeTyped_nak hn up good type lcmd, Block.moveAllTiles_noneLeaves none]
  refine gives_of_flitted hs work flitted fun t ht ports mem od => ?_
  obtain ⟨same, idle, lanesMore, kind⟩ := ports n
  have whole := same.trans lanes
  refine ⟨⟨fs, idle, lanesMore.trans (congrArg (· ++ idle) (more.trans (congrArg (· ++ fs) flits))), kind, ?_⟩,
    (congrArg Port.replay whole :).trans buffer, (congrArg Port.nakSeq whole :), mem, od⟩
  rw [payloads, buffer]

include hn up in
/-- The fourth NAK in a row for one SEQ takes the port DOWN. -/
theorem nak_fourth (good : flitGood x = true) (type : fl x 3 0 = 2) (lcmd : fl x 103 96 = 2)
    (seq : (s.blk.port n).nakSeq = fl x 239 224) (run : 3 ≤ (s.blk.port n).nakRun) : Works (.nak n x) s (fun b => b.portState n = 1) := by
  obtain ⟨-, received⟩ := Block.takeHeader_up up x
  have taken := Block.takeNak_last (b := s.blk.takeHeader n x) (n := n) (f := x)
    ((congrArg Port.nakSeq received :).trans seq) (run.trans_eq (congrArg Port.nakRun received :).symm)
  have work : exec (.nak n x) s = finish s (((s.blk.takeHeader n x).modPort n (Block.nakNoted (fl x 239 224)
      (Block.nakRunNext (fl x 239 224) ((s.blk.takeHeader n x).port n)))).leavePort n psDown).moveAllTiles := by
    show finish s (s.blk.takeTyped n x 2 (some 2)).moveAllTiles = _
    rw [takeTyped_nak hn up good type lcmd, taken]
  exact works_of_finish work (((Block.moveAllTiles_carried _).portState hn).trans (Block.leavePort_state _ psDown hn).1)

include hn up in
/-- A pair that could not be corrected is counted and discarded. -/
theorem pair_discarded (frame symbols : Nat) (flits : List Flit) : Works (.codewordPair n frame symbols false flits) s (fun b =>
    b.od' 0x2704 5 = add64 (s.blk.od' 0x2704 5) 1 ∧ b.od' 0x2704 4 = add64 (s.blk.od' 0x2704 4) symbols ∧
      (b.port n).rx = (s.blk.port n).rx ∧ (b.port n).rxSeq = (s.blk.port n).rxSeq) := by
  obtain ⟨still, four, five, rx, seq⟩ := s.blk.countSymbols_counts symbols hn
  have work : s.blk.takePair n frame symbols false flits = ((s.blk.countSymbols n symbols).count 0x2704 5 1).refuseFlit n :=
    (Block.takePair_up up ..).trans (if_pos rfl)
  rw [up] at still
  generalize s.blk.countSymbols n symbols = c at still four five rx seq work
  have counted := Block.Flitted.count c (by decide : 5 < 256) 1
  have same : (c.count 0x2704 5 1).port n = c.port n := Block.port_congr (by rw [Block.count_seryo]) n
  have five' := c.count_self 0x2704 5 1
  have up' := (counted.portState hn (by simp)).trans still
  have four' := counted.2 0x2704 4 (by decide) (by decide)
  generalize c.count 0x2704 5 1 = d at work same five' up' four'
  obtain ⟨flitted, rx', seq'⟩ := Block.refuseFlit_keeps up'
  have moved := Block.moveAllTiles_tilesMoved (d.refuseFlit n)
  have kept := Block.moveAllTiles_portsKept (d.refuseFlit n)
  refine works_of_finish (b := (d.refuseFlit n).moveAllTiles) (congrArg (fun b : Block => finish s b.moveAllTiles) work) ⟨?_, ?_, ?_, ?_⟩
  · rw [moved.2.2 _ _ (by decide) (by decide), flitted.2 _ _ (by decide) (by decide), five', five]
  · rw [moved.2.2 _ _ (by decide) (by decide), flitted.2 _ _ (by decide) (by decide), four', four]
  · rw [kept.rx, rx', same, rx]
  · rw [kept.rxSeq, seq', same, seq]

include hn up in
/-- The flits of a pair are taken as it comes. -/
theorem pair_taken {frame : Nat} (symbols : Nat) (sound : frameGood frame = true) (good : flitGood x = true) (type : fl x 3 0 = 1)
    (order : fl x 31 16 = (s.blk.port n).rxSeq) (open' : fl x 8 8 = 0) : Works (.codewordPair n frame symbols true [x]) s (fun b =>
    b.od' 0x2704 4 = add64 (s.blk.od' 0x2704 4) symbols ∧ b.od' 0x2704 5 = s.blk.od' 0x2704 5 ∧
      (b.port n).rx = (s.blk.port n).rx ++ [(flitPool x, x)] ∧ (b.port n).rxSeq = ((s.blk.port n).rxSeq + 1) % 65536) := by
  obtain ⟨still, four, five, rx, seq⟩ := s.blk.countSymbols_counts symbols hn
  have work : s.blk.takePair n frame symbols true [x] = (s.blk.countSymbols n symbols).takeFlit n x := by
    rw [Block.takePair_up up]
    generalize s.blk.countSymbols n symbols = c
    rw [if_neg (by decide), if_neg (by simp [sound]), List.foldl_cons, List.foldl_nil]
  rw [up] at still
  generalize s.blk.countSymbols n symbols = c at still four five rx seq work
  obtain ⟨sent, header⟩ := Block.takeHeader_up still x
  have up' : (c.takeHeader n x).portState n = 3 := (Block.Flitted.of_sends sent).portState hn (by simp) |>.trans still
  obtain ⟨buffer', next'⟩ := Block.received_receives header
  have next := next'.trans seq
  have buffer := buffer'.trans rx
  obtain ⟨taken, -, here⟩ := Block.takeData_ordered (b := c.takeHeader n x) (order.trans next.symm) open'
  have flit : c.takeFlit n x = (c.takeHeader n x).takeData n x := by
    rw [Block.takeFlit_good hn still good]
    unfold Block.actOn
    simp [type, Block.portUp_iff.2 up']
  refine works_of_finish (b := ((c.takeHeader n x).takeData n x).moveAllTiles)
    (congrArg (fun b : Block => finish s b.moveAllTiles) (work.trans flit)) ?_
  have moved := Block.moveAllTiles_tilesMoved ((c.takeHeader n x).takeData n x)
  have kept := Block.moveAllTiles_portsKept ((c.takeHeader n x).takeData n x)
  refine ⟨?_, ?_, ?_, ?_⟩
  · rw [moved.2.2 _ _ (by decide) (by decide), taken.2 _ _ (by decide) (by decide), sent.2 _ _ (by decide) (by decide), four]
  · rw [moved.2.2 _ _ (by decide) (by decide), taken.2 _ _ (by decide) (by decide), sent.2 _ _ (by decide) (by decide), five]
  · rw [kept.rx, here, buffer]
  · rw [kept.rxSeq, here, next]

include hn up in
/-- A frame word that fails is lost alignment. -/
theorem pair_misaligned {frame : Nat} (symbols : Nat) (flits : List Flit) (bad : frameGood frame = false) :
    Works (.codewordPair n frame symbols true flits) s (fun b => b.portState n = 1) := by
  have work : s.blk.takePair n frame symbols true flits = (s.blk.countSymbols n symbols).leavePort n psDown := by
    rw [Block.takePair_up up]
    generalize s.blk.countSymbols n symbols = c
    rw [if_neg (by decide)]
    exact if_pos (by rw [bad]; rfl)
  exact works_of_finish (congrArg (fun b : Block => finish s b.moveAllTiles) work)
    (((Block.moveAllTiles_carried _).portState hn).trans (Block.leavePort_state _ psDown hn).1)

end

/-- Settles O52, each flit by its type and the pair by its frame word. -/
theorem flitsAreTakenInOrder : Obligations.FlitsAreTakenInOrder := by
  intro s n x hs hn up
  refine ⟨fun good => ⟨fun type seq last => data_taken hs hn up good type seq last,
    fun type seq fresh => data_unordered hs hn up good type seq fresh, fun type lcmd ack waits =>
      ⟨fun few stays => nak_served hs hn up good type lcmd ack waits few stays,
        fun seq run => nak_fourth hn up good type lcmd seq run⟩,
    fun type lcmd waits => echo_answered hs hn up good type lcmd waits,
    fun type lcmd => echoReply_taken hs hn up good type lcmd, fun type => idle_taken hs hn up good type⟩,
    fun bad type fresh => data_damaged hs up bad type fresh, fun frame symbols flits => ⟨pair_discarded hn up frame symbols flits,
      fun sound good type seq last => pair_taken hn up symbols sound good type seq last,
      fun bad => pair_misaligned hn up symbols flits bad⟩⟩

end Sys2Proof.Machine

/-! ### Ports that come up and go down (R424, R425, R440) -/

namespace Sys2Proof.Machine

/-- The payload of a HELLO (R424). -/
def helloOf (b : Block) (n : Nat) : Nat := pack [(96, 1), (104, b.package), (112, n), (128, b.od' 0x2700 4), (160, b.od' 0x1000 7)]

theorem helloOf_fields (b : Block) (n : Nat) : bits (helloOf b n) 103 96 = 1 ∧ bits (helloOf b n) 109 104 = b.package % 64 := by
  unfold helloOf
  generalize b.package = p, b.od' 0x2700 4 = x, b.od' 0x1000 7 = y
  simp only [bits_eq, pack_cons, pack_nil]
  constructor <;> omega

namespace Block

theorem PortsKept.helloOk {b c : Block} (h : b.PortsKept c) (m : Nat) : (c.port m).helloOk = (b.port m).helloOk :=
  (congrArg Port.helloOk (h.port m) :)

/-- A HELLO is sent. -/
theorem sendHello_sends (b : Block) (n : Nat) : b.LanesMoved (b.sendHello n) ∧ ∃ bad, (b.sendHello n).port n =
    closePair { b.port n with lane := (b.port n).lane ++ [mkFlit (flitHeader (b.port n) 2 0 0 0 0) (natLE 240 (helloOf b n >>> 96)) bad],
                              owed := owedAfter (b.port n), told := (b.port n).rxSeq } :=
  ⟨launch_lanesMoved .., launch_port ..⟩

theorem fl_hello (b : Block) (n : Nat) (p : Port) (bad : Bool) (f : Flit)
    (h : f = mkFlit (flitHeader p 2 0 0 0 0) (natLE 240 (helloOf b n >>> 96)) bad) :
    fl f 3 0 = 2 ∧ fl f 103 96 = 1 ∧ fl f 109 104 = b.package % 64 := by
  subst h
  refine ⟨fl_type_mkFlit _ _ _ _ _ _ _ (by decide), ?_, ?_⟩
  · rw [fl_mkFlit_link _ _ _ (by decide) (by decide), (helloOf_fields b n).1]
  · rw [fl_mkFlit_link _ _ _ (by decide) (by decide), (helloOf_fields b n).2]

/-- Entries that neither a port's state nor its event shows. -/
theorem stateShown_od (b : Block) {n : Nat} (dest : Nat) (hn : n < 32) {i j : Nat} (hj : j < 256) (hi : i ≠ 0x2701)
    (hc : i ∉ carriedIndices) : (b.stateShown n dest).od' i j = b.od' i j := by
  unfold stateShown seryoEvent
  rw [(event_carried _ _ _).od i j hj hc, setOd_od'_of_ne b dest hj (by omega) (by simp [hi]) (by unfold odKey; omega) (by unfold odKey; omega)]

theorem unlink_od (b : Block) {n : Nat} (now : Nat) (hn : n < 32) {i j : Nat} (hj : j < 256) (hi : i ≠ 0x2701) :
    (b.unlink n now).od' i j = b.od' i j :=
  setOd_od'_of_ne b 0xFF hj (by omega) (by simp [hi]) (by unfold odKey; omega) (by unfold odKey; omega)

/-- A DOWN port with lane lock sends its HELLO. -/
theorem laneLock_trains {b : Block} {n : Nat} (hn : n < 32) (may : b.mayTrain = true) (down : b.portState n = 1) :
    (b.laneLock n).portState n = 2 ∧ ((b.laneLock n).port n).sent = (b.port n).sent ∧ ∃ f, ((b.laneLock n).port n).lane = [f] ∧
      fl f 3 0 = 2 ∧ fl f 103 96 = 1 ∧ fl f 109 104 = b.package % 64 := by
  have work : b.laneLock n = ((b.stateShown n psTraining).unlink n b.time).sendHello n := by
    unfold laneLock
    rw [if_pos (by rw [may, down]; rfl), setPortState_of_ne (by rw [down]; decide)]
    rfl
  obtain ⟨state, -, -, same⟩ := b.stateShown_shows psTraining hn
  obtain ⟨state', -, here⟩ := (b.stateShown n psTraining).unlink_shows b.time hn
  have package : ((b.stateShown n psTraining).unlink n b.time).package = b.package :=
    (unlink_od _ _ hn (by decide) (by decide)).trans (stateShown_od b _ hn (by decide) (by decide) (by decide))
  rw [port_congr (congrArg Seryo.ports same)] at here
  rw [work]
  generalize (b.stateShown n psTraining).unlink n b.time = c at state' here package
  obtain ⟨moved, bad, sent⟩ := sendHello_sends c n
  have short : (c.sendHello n).port n = { c.port n with
      lane := (c.port n).lane ++ [mkFlit (flitHeader (c.port n) 2 0 0 0 0) (natLE 240 (helloOf c n >>> 96)) bad],
      owed := owedAfter (c.port n), told := (c.port n).rxSeq } := by
    rw [sent]
    unfold closePair
    rw [if_pos]
    have empty : (c.port n).lane = [] := by rw [here]; rfl
    simp [empty]
  obtain ⟨type, command, own⟩ := fl_hello c n (c.port n) bad _ rfl
  refine ⟨(moved.portState n).trans (state'.trans state), ?_, _, ?_, type, command, own.trans (congrArg (· % 64) package)⟩
  · rw [short, here]
    rfl
  · rw [short]
    show (c.port n).lane ++ _ = _
    rw [here]
    rfl

end Block

section
variable {s : State} {n : Nat} {x : Flit} (hn : n < 32)

/-- The header of a good flit in TRAINING. -/
def Block.trained (b : Block) (n : Nat) (x : Flit) : Block :=
  b.modPort n (fun p => { p with goodAt := b.time, acked := p.acked || fl x 48 48 == 1 })

/-- The block once a HELLO has named the neighbour of a port in TRAINING. -/
def Block.named (b : Block) (n : Nat) (x : Flit) : Block :=
  ((b.trained n x).modPort n (fun p => { p with helloOk := true })).setOd 0x2701 (0x21 + n) (fl x 109 104)

/-- The block once that port has sent its own HELLO again. -/
def Block.greeted (b : Block) (n : Nat) (x : Flit) : Block := (b.named n x).sendHello n

/-- A HELLO in TRAINING, before any other. -/
theorem hello_first (training : s.blk.portState n = 2) (first : (s.blk.port n).helloOk = false) (good : flitGood x = true)
    (type : fl x 3 0 = 2) (lcmd : fl x 103 96 = 1) : s.blk.takeTyped n x 2 (some 1) = (s.blk.trained n x).takeHello n x := by
  have down : s.blk.portUp n = false := by
    rw [← Bool.not_eq_true, Block.portUp_iff, training]
    decide
  have here : (s.blk.trained n x).port n = { s.blk.port n with goodAt := s.blk.time, acked := (s.blk.port n).acked || fl x 48 48 == 1 } :=
    Block.port_modPort_self s.blk (Block.port_number s.blk n)
  have still : (s.blk.trained n x).tryUp n = s.blk.trained n x := by
    unfold Block.tryUp
    rw [here]
    simp [first]
  have header : s.blk.takeHeader n x = s.blk.trained n x := by
    unfold Block.takeHeader
    rw [if_neg (by simp [down])]
    exact still
  have state : (s.blk.trained n x).portState n = 2 := training
  unfold Block.takeTyped Block.takeFlit
  simp only [header]
  unfold Block.receives Block.actOn
  simp [type, lcmd, good, training, state, psTraining]

include hn

/-- A port in TRAINING once a HELLO has named its neighbour. -/
theorem named_shows {b : Block} (training : b.portState n = 2) : (b.named n x).portState n = 2 ∧
    (b.named n x).neighbour n = fl x 109 104 ∧ ((b.named n x).port n).helloOk = true ∧
    ((b.named n x).port n).acked = ((b.port n).acked || fl x 48 48 == 1) := by
  have here : (b.trained n x).port n = { b.port n with goodAt := b.time, acked := (b.port n).acked || fl x 48 48 == 1 } :=
    Block.port_modPort_self b (Block.port_number b n)
  have greeted : (b.named n x).port n = { (b.trained n x).port n with helloOk := true } :=
    Block.port_modPort_self (b.trained n x) (g := fun p => { p with helloOk := true }) (Block.port_number _ n)
  rw [greeted, here]
  exact ⟨(Block.setOd_port_other _ (by omega) (by omega) (by omega)).trans training, Block.setOd_self .., rfl, rfl⟩

theorem greeted_shows {b : Block} (training : b.portState n = 2) : (b.greeted n x).portState n = 2 ∧
    (b.greeted n x).neighbour n = fl x 109 104 ∧ ((b.greeted n x).port n).helloOk = true ∧
    ((b.greeted n x).port n).acked = ((b.port n).acked || fl x 48 48 == 1) := by
  obtain ⟨state, neighbour, ok, acked⟩ := named_shows hn (x := x) training
  obtain ⟨moved, -⟩ := Block.sendHello_sends (b.named n x) n
  have received := moved.2 n
  refine ⟨(moved.portState n).trans state, ?_, (congrArg Port.helloOk received :).trans ok, (congrArg Port.acked received :).trans acked⟩
  obtain ⟨⟨_, _, same⟩, -⟩ := moved
  unfold Block.greeted
  rw [same]
  exact neighbour

/-- A HELLO that names this package isolates its port. -/
theorem hello_isolates (training : s.blk.portState n = 2) (first : (s.blk.port n).helloOk = false) (good : flitGood x = true)
    (type : fl x 3 0 = 2) (lcmd : fl x 103 96 = 1) (own : fl x 109 104 = s.blk.package) :
    Works (.hello n x) s (fun b => b.portState n = 4) := by
  have work : s.blk.takeTyped n x 2 (some 1) = (s.blk.trained n x).isolate n (fl x 109 104) := by
    rw [hello_first training first good type lcmd]
    unfold Block.takeHello
    exact if_pos (beq_iff_eq.2 own)
  refine works_of_finish (congrArg (fun b : Block => finish s b.moveAllTiles) work) ?_
  refine ((Block.moveAllTiles_carried _).portState hn).trans ?_
  unfold Block.isolate Block.seryoEvent
  exact ((Block.event_carried _ _ _).portState hn).trans (Block.leavePort_state _ psIsolated hn).1

/-- A port in TRAINING with both HELLOs exchanged enters UP; else it stays. -/
theorem tryUp_state {b : Block} (training : b.portState n = 2) (greeted : (b.port n).helloOk = true) :
    (b.tryUp n).neighbour n = b.neighbour n ∧ ((b.tryUp n).port n).helloOk = true ∧
      (b.tryUp n).portState n = if (b.port n).acked = true then 3 else 2 := by
  by_cases acked : (b.port n).acked = true
  · have up : b.tryUp n = (((b.stateShown n psUp).sendEcho n).sendBeacon n).routesChanged b.directMap := by
      unfold Block.tryUp
      rw [Block.setPortState_of_ne (by rw [training]; decide)]
      simp [training, greeted, acked, psTraining]
    obtain ⟨state, neighbour, -, same⟩ := b.stateShown_shows psUp hn
    have moved : (b.stateShown n psUp).LanesMoved ((b.stateShown n psUp).sendEcho n) := Block.launch_lanesMoved ..
    have beacon : ((b.stateShown n psUp).sendEcho n).Carried (((b.stateShown n psUp).sendEcho n).sendBeacon n) := Block.sendOn_carried ..
    have carried := ((Block.Carried.of_sends moved.1.sends moved.portsKept).trans beacon).trans (Block.routesChanged_carried _ b.directMap)
    rw [up, if_pos acked]
    refine ⟨(carried.neighbour hn).trans neighbour, (carried.ports.helloOk n).trans ?_, (carried.portState hn).trans state⟩
    show ((b.stateShown n psUp).port n).helloOk = true
    rw [Block.port_congr (congrArg Seryo.ports same), greeted]
  · have stays : b.tryUp n = b := by
      unfold Block.tryUp
      simp [acked]
    rw [stays, if_neg acked]
    exact ⟨rfl, greeted, training⟩

/-- A HELLO of a package not yet present names the neighbour. -/
theorem hello_greets (training : s.blk.portState n = 2) (first : (s.blk.port n).helloOk = false) (good : flitGood x = true)
    (type : fl x 3 0 = 2) (lcmd : fl x 103 96 = 1) (other : fl x 109 104 ≠ s.blk.package) (absent : s.blk.peer? (fl x 109 104) = none) :
    Works (.hello n x) s (fun b => b.neighbour n = fl x 109 104 ∧ (b.port n).helloOk = true ∧
      b.portState n = if (s.blk.port n).acked = true ∨ fl x 48 48 = 1 then 3 else 2) := by
  have work : s.blk.takeTyped n x 2 (some 1) = (s.blk.greeted n x).tryUp n := by
    rw [hello_first training first good type lcmd]
    unfold Block.takeHello Block.greet
    have training' : (s.blk.trained n x).portState n = 2 := training
    have absent' : (s.blk.trained n x).peer? (fl x 109 104) = none := absent
    have other' : fl x 109 104 ≠ (s.blk.trained n x).package := other
    rw [if_neg (by simpa using other'), absent', if_pos (by rw [training']; rfl)]
    rfl
  obtain ⟨state, neighbour, ok, acked⟩ := greeted_shows hn (x := x) training
  obtain ⟨named, kept, up⟩ := tryUp_state hn state ok
  refine works_of_finish (congrArg (fun b : Block => finish s b.moveAllTiles) work) ?_
  have moved := Block.moveAllTiles_carried ((s.blk.greeted n x).tryUp n)
  refine ⟨(moved.neighbour hn).trans (named.trans neighbour), (moved.ports.helloOk n).trans kept,
    (moved.portState hn).trans (up.trans ?_)⟩
  rw [acked]
  simp

/-- Lost lock takes a port that receives DOWN. -/
theorem lockLost_down (receives : s.blk.portState n = 2 ∨ s.blk.portState n = 3) : Works (.lockLost n) s (fun b => b.portState n = 1) := by
  have work : s.blk.lockLost n = s.blk.leavePort n psDown := by
    unfold Block.lockLost Block.receives Block.portUp
    exact if_pos (by rcases receives with h | h <;> rw [h] <;> rfl)
  exact works_of_finish (congrArg (fun b : Block => finish s b.moveAllTiles) work)
    (((Block.moveAllTiles_carried _).portState hn).trans (Block.leavePort_state _ psDown hn).1)

/-- A timer that takes a port DOWN moves the timebase to its end (log 2). -/
theorem works_of_downAt {c : Instr} {d : Block} {now : Nat} (hexec : exec c s = finish s d.moveAllTiles) (work : d = s.blk.downAt n now) :
    Works c s (fun b => b.portState n = 1 ∧ b.time = max s.blk.time now) := by
  subst work
  obtain ⟨state, time⟩ := Block.leavePort_state { s.blk with time := max s.blk.time now } psDown hn
  have moved := Block.moveAllTiles_carried (s.blk.downAt n now)
  exact works_of_finish hexec ⟨(moved.portState hn).trans state, moved.time.trans time⟩

/-- A GOODBYE takes an UP port DOWN. -/
theorem goodbye_down (up : s.blk.portState n = 3) (good : flitGood x = true) (type : fl x 3 0 = 2) (lcmd : fl x 103 96 = 5) :
    Works (.goodbye n x) s (fun b => b.portState n = 1) := by
  have still : (s.blk.takeHeader n x).portState n = 3 :=
    (Block.Flitted.of_sends (Block.takeHeader_up up x).1).portState hn (by simp) |>.trans up
  have work : s.blk.takeTyped n x 2 (some 5) = (s.blk.takeHeader n x).leavePort n psDown := by
    have asks : (s.blk.takeHeader n x).actOn n x = (s.blk.takeHeader n x).leavePort n psDown := by
      unfold Block.actOn
      simp [type, lcmd, Block.portUp_iff.2 still]
    unfold Block.takeTyped
    rw [if_pos (by simp [type, lcmd]), Block.takeFlit_good hn up good, asks]
  exact works_of_finish (congrArg (fun b : Block => finish s b.moveAllTiles) work)
    (((Block.moveAllTiles_carried _).portState hn).trans (Block.leavePort_state _ psDown hn).1)

end

/-- Settles O51, by the port's state and what comes to it. -/
theorem portsComeUpAndGoDown : Obligations.PortsComeUpAndGoDown := by
  intro s n x hs hn
  refine ⟨fun may down => works_of_finish rfl (Block.laneLock_trains hn may down), fun stays => ends_of_same hs ?_,
    fun training first good type lcmd => ⟨fun own => hello_isolates hn training first good type lcmd own,
      fun other absent => hello_greets hn training first good type lcmd other absent⟩,
    fun receives => lockLost_down hn receives, fun training first => works_of_downAt hn rfl ?_,
    fun up => ⟨works_of_downAt hn rfl ?_, fun waits => works_of_downAt hn rfl ?_,
      fun good type lcmd => goodbye_down hn up good type lcmd⟩⟩
  · have work : s.blk.laneLock n = s.blk := by
      unfold Block.laneLock
      exact if_neg (by rcases stays with h | h <;> simp [h, psDown])
    exact congrArg (finish s) work
  · unfold Block.helloTimeout
    exact if_pos (by rw [training, first]; rfl)
  · unfold Block.silence
    exact if_pos (Block.portUp_iff.2 up)
  · unfold Block.ackTimeout
    exact if_pos (by simp [Block.portUp_iff.2 up, waits])

end Sys2Proof.Machine

/-! ### The transaction engine leaves the receive buffers to the pops (R423, R426 to R437) -/

namespace Sys2Proof.Machine
namespace Block

theorem Reads.portsKept {b c : Block} (h : b.Reads c) : b.PortsKept c := .of_ports (congrArg Seryo.ports h.seryo)

theorem releaseBacklog_carried (fuel : Nat) (b : Block) (p : Nat) : b.Carried (releaseBacklog fuel b p) := by
  induction fuel generalizing b with
  | zero => exact .refl b
  | succ fuel ih =>
    unfold releaseBacklog
    split
    · exact .refl b
    split
    · exact .refl b
    next s rest _ =>
      split
      · exact .refl b
      · dsimp only
        have popped := modPeer_carried b p (fun q => { q with backlog := rest })
        generalize b.modPeer p (fun q => { q with backlog := rest }) = c at popped
        split
        · exact popped.trans ((refuseMsg_carried ..).trans (ih _))
        · split
          · exact .refl b
          · exact popped.trans ((Carried.of_sends (sendTo_sends ..) (sendTo_portsKept ..)).trans (ih _))

theorem answeredAll_carried (b : Block) (p : Nat) (hit : SentMsg → Bool) : b.Carried (b.answeredAll p hit) :=
  (modPeer_carried b p _).trans (releaseBacklog_carried ..)

theorem answered_carried (b : Block) (p txn : Nat) : b.Carried (b.answered p txn) := answeredAll_carried ..

theorem reply_portsKept (b : Block) (n p mtype status txn : Nat) (body : Bytes) : b.PortsKept (b.reply n p mtype status txn body) := by
  unfold reply
  dsimp only
  split
  · exact (modPeer_portsKept b p _).trans (sendOn_portsKept ..)
  · exact modPeer_portsKept ..

theorem noteAnswer_portsKept (b : Block) (id : Nat) (r : RemoteRow) (status : Nat) (data : Bytes) :
    b.PortsKept (b.noteAnswer id r status data) := .of_ports rfl

theorem noteStatus_portsKept (b : Block) (id status : Nat) : b.PortsKept (b.noteStatus id status) := by
  unfold noteStatus
  split_ifs <;> exact .of_ports rfl

theorem unperformed_portsKept (b : Block) (flow : Option Nat) (n : Nat) : b.PortsKept (b.unperformed flow n) := by
  unfold unperformed
  split
  · exact .refl b
  · dsimp only
    split <;> exact .of_ports rfl

theorem missed_portsKept (b : Block) (flow : Option Nat) (n : Nat) : b.PortsKept (b.missed flow n) := by
  unfold missed
  split <;> exact .of_ports rfl

/-- An answer noted at what a flow asked, with its status. -/
theorem answerNoted_portsKept (b : Block) (id : Nat) (r : RemoteRow) (status seen : Nat) (data : Bytes) :
    b.PortsKept ((b.noteAnswer id r status data).noteStatus id seen) :=
  (noteAnswer_portsKept ..).trans (noteStatus_portsKept ..)

theorem refreshRemote_portsKept (b : Block) (table row : Nat) (data : Option Bytes) : b.PortsKept (b.refreshRemote table row data) := by
  unfold refreshRemote
  split <;> exact .of_ports rfl

theorem takeRowdata_portsKept (b : Block) (src : Nat) (msg : Bytes) : b.PortsKept (b.takeRowdata src msg) := by
  have answered := (answered_carried b src (mg msg 63 32)).ports
  unfold takeRowdata
  dsimp only
  split
  · exact answered
  · split
    · exact (answered.trans (answerNoted_portsKept ..)).trans ((refreshRemote_portsKept ..).trans (.of_ports rfl))
    · exact answered.trans (answerNoted_portsKept ..)

theorem takeRack_portsKept (b : Block) (src : Nat) (msg : Bytes) : b.PortsKept (b.takeRack src msg) := by
  have answered := (answered_carried b src (mg msg 63 32)).ports
  unfold takeRack
  dsimp only
  split
  · exact answered.trans (unperformed_portsKept ..)
  · split_ifs
    · exact answered.trans (answerNoted_portsKept ..)
    · exact (answered.trans (answerNoted_portsKept ..)).trans (missed_portsKept ..)
    · exact (answered.trans (answerNoted_portsKept ..)).trans (unperformed_portsKept ..)

theorem onceOnly_portsKept (b : Block) (port src : Nat) (msg : Bytes) {act : Block → Block} (h : b.PortsKept (act b)) :
    b.PortsKept (b.onceOnly port src msg act) := by
  unfold onceOnly
  dsimp only
  split
  · exact h
  · split
    · exact .of_ports rfl
    · refine .trans ?_ (sendOn_portsKept ..)
      exact .of_ports rfl

theorem addClaim_portsKept (b : Block) (c : GrantClaim) : b.PortsKept (b.addClaim c) := by
  unfold addClaim
  split <;> exact .of_ports rfl

theorem performed_portsKept (b : Block) (n p txn : Nat) : b.PortsKept (b.performed n p txn) := modPeer_portsKept ..

theorem takeGrantReq_portsKept (b : Block) (port src : Nat) (msg : Bytes) : b.PortsKept (b.takeGrantReq port src msg) := by
  unfold takeGrantReq
  refine onceOnly_portsKept b port src msg ?_
  split_ifs
  · exact reply_portsKept ..
  · exact reply_portsKept ..
  · exact (performed_portsKept ..).trans (addClaim_portsKept ..)

theorem takeGrant_portsKept (b : Block) (src : Nat) (msg : Bytes) : b.PortsKept (b.takeGrant src msg) := by
  have answered := (answered_carried b src (mg msg 63 32)).ports
  unfold takeGrant
  dsimp only
  split
  · split
    · exact answered.trans (returnGrant_portsKept ..)
    · exact answered
  · exact (answered.trans (answerNoted_portsKept ..)).trans (moveTiles_portsKept ..)

theorem freeGranted_portsKept (b : Block) (q k : Nat) : b.PortsKept (b.freeGranted q k) := .of_ports rfl

theorem tileErrs_portsKept (b : Block) (w : Wing) (rows : Nat) : b.PortsKept (b.tileErrs w rows).2 := by
  have access (c : Block) (unit checker : Nat) : c.PortsKept (c.injected unit checker).2 := ⟨fun m => by rw [injected_port]⟩
  unfold tileErrs
  refine List.foldlRecOn (motive := fun x : List Nat × Block => b.PortsKept x.2) _ _ (.refl b) fun x kept i _ => ?_
  dsimp only
  split
  · exact kept.trans (access ..)
  · exact kept.trans ((access ..).trans (access ..))

theorem recordAck_portsKept (b : Block) (t : TileIn) : b.PortsKept (b.recordAck t) := modPeer_portsKept ..

theorem arriveTile_portsKept (b : Block) (t : TileIn) : b.PortsKept (b.arriveTile t) := by
  unfold arriveTile
  dsimp only
  refine .trans ?_ (recordAck_portsKept ..)
  refine .trans ?_ (reply_portsKept ..)
  have kept := tileErrs_portsKept b (if ((b.queue? t.queue).map SatQueue.south).getD false then .south else .north) t.tile.rows
  generalize b.tileErrs _ t.tile.rows = x at kept ⊢
  exact kept.trans (.of_ports rfl)

theorem arriveTiles_portsKept (fuel : Nat) (b : Block) : b.PortsKept (arriveTiles fuel b) := by
  induction fuel generalizing b with
  | zero => exact .refl b
  | succ fuel ih =>
    unfold arriveTiles
    split
    · exact .refl b
    · exact (arriveTile_portsKept ..).trans (ih _)

theorem writePart_portsKept (b : Block) (port src : Nat) (msg : Bytes) : b.PortsKept (b.writePart port src msg) := .of_ports rfl

theorem refuseTile_portsKept (b : Block) (port src : Nat) (msg : Bytes) (st : Nat) : b.PortsKept (b.refuseTile port src msg st) := by
  have freed (p : Prop) [Decidable p] (q k : Nat) : b.PortsKept (if p then b.freeGranted q k else b) := by
    split
    · exact freeGranted_portsKept ..
    · exact .refl b
  unfold refuseTile
  dsimp only
  split
  · exact freed _ _ _
  · exact (freed _ _ _).trans (reply_portsKept ..)

theorem takePart_portsKept (b : Block) (port src : Nat) (msg : Bytes) : b.PortsKept (b.takePart port src msg) := by
  unfold takePart
  dsimp only
  refine onceOnly_portsKept b port src msg ?_
  split_ifs
  · exact reply_portsKept ..
  · exact (performed_portsKept ..).trans (freeGranted_portsKept ..)
  · exact performed_portsKept ..
  · exact refuseTile_portsKept ..
  · exact refuseTile_portsKept ..
  · exact (performed_portsKept ..).trans ((writePart_portsKept ..).trans (arriveTiles_portsKept ..))

theorem takeTileAck_portsKept (b : Block) (src : Nat) (msg : Bytes) : b.PortsKept (b.takeTileAck src msg) := by
  have answered (hit : SentMsg → Bool) := (answeredAll_carried b src hit).ports
  unfold takeTileAck
  dsimp only
  split
  · exact answered _
  · exact (answered _).trans ((noteAnswer_portsKept ..).trans ((noteStatus_portsKept ..).trans (.of_ports rfl)))

theorem takeRoute_portsKept (b : Block) (src : Nat) (msg : Bytes) : b.PortsKept (b.takeRoute src msg) :=
  ((modPeer_carried b src _).trans ((resend_carried ..).trans ((showPeers_carried _).trans (departLost_carried _)))).ports

end Block
end Sys2Proof.Machine

/-! ### Rows that another package asks for (R396, R430 to R434) -/

namespace Sys2Proof.Machine
namespace Block

theorem tableBeat_reads (m : Memory) (b : Block) (id t : Nat) (acquire : Bool) : b.Reads (tableBeat m b id t acquire).2.2 := by
  unfold tableBeat
  split_ifs
  · exact .refl b
  · exact .refl b
  · exact .refl b
  · exact cachedRead_reads ..

theorem shardEntry_reads (m : Memory) (b : Block) (id d i : Nat) (acquire : Bool) : b.Reads (shardEntry m b id d i acquire).2.2 := by
  unfold shardEntry
  split
  · exact .refl b
  · exact cachedRead_reads ..

theorem shardSearch_reads (m : Memory) (id d row : Nat) (acquire : Bool) (fuel lo hi : Nat) (bad : Bool) (b : Block) :
    b.Reads (shardSearch m id d row acquire fuel lo hi bad b).2.2 := by
  induction fuel generalizing lo hi bad b with
  | zero => exact .refl b
  | succ fuel ih =>
    unfold shardSearch
    dsimp only
    split_ifs
    · exact (shardEntry_reads ..).trans (ih ..)
    · exact (shardEntry_reads ..).trans (ih ..)
    · exact .refl b

/-- A neighbouring entry is read where there is one. -/
theorem neighbourEntry_reads (m : Memory) (b : Block) (id d i : Nat) (acquire : Bool) (p : Prop) [Decidable p] :
    b.Reads (((if p then some (shardEntry m b id d i acquire) else none).map (fun x : Nat × Bool × Block => x.2.2)).getD b) := by
  split
  · exact shardEntry_reads ..
  · exact .refl b

theorem neighbourEntry_reads' (m : Memory) (b : Block) (id d i : Nat) (acquire : Bool) (p : Prop) [Decidable p] :
    b.Reads (((if p then none else some (shardEntry m b id d i acquire)).map (fun x : Nat × Bool × Block => x.2.2)).getD b) := by
  split
  · exact .refl b
  · exact shardEntry_reads ..

theorem resolve_reads (m : Memory) (b : Block) (id d row : Nat) (acquire : Bool) : b.Reads (resolve m b id d row acquire).2 := by
  have search := shardSearch_reads m id d row acquire 13 0 (tdShards d - 1) false b
  unfold resolve
  split
  · exact .refl b
  · dsimp only
    generalize shardSearch m id d row acquire 13 0 (tdShards d - 1) false b = s at search ⊢
    have entry := search.trans (shardEntry_reads m s.2.2 id d s.1 acquire)
    generalize shardEntry m s.2.2 id d s.1 acquire = e at entry ⊢
    have before := entry.trans (neighbourEntry_reads' m e.2.2 id d (s.1 - 1) acquire ((s.1 == 0) = true))
    generalize ((if (s.1 == 0) = true then none else some (shardEntry m e.2.2 id d (s.1 - 1) acquire)).map
      (fun x : Nat × Bool × Block => x.2.2)).getD e.2.2 = c at before ⊢
    have after := before.trans (neighbourEntry_reads m c id d (s.1 + 1) acquire (s.1 + 1 < tdShards d))
    rw [apply_ite Prod.snd, apply_ite Prod.snd, ite_self, ite_self]
    exact after

theorem holderRow_reads (m : Memory) (b : Block) (src table row version : Nat) : b.Reads (holderRow m b src table row version).2 := by
  have beat := tableBeat_reads m b b.nextFlow table false
  unfold holderRow
  split
  · exact .refl b
  · dsimp only
    split
    · exact beat
    · split_ifs
      · exact beat
      · exact beat
      · split <;> exact beat.trans (resolve_reads ..)

theorem rowLines_reads (m : Memory) (b : Block) (a len hint : Nat) (flow : Option Nat) (acquire : Bool) :
    b.Reads (rowLines m b a len hint flow acquire).2.2 := by
  unfold rowLines
  split
  · exact tierRead_reads ..
  · exact lookupSpan_reads ..

theorem takeRgather_portsKept (m : Memory) (b : Block) (port src : Nat) (msg : Bytes) : b.PortsKept (takeRgather m b port src msg) := by
  have held := (holderRow_reads m b src (mg msg 143 128) (mg msg 183 144) (mg msg 223 192)).portsKept
  unfold takeRgather
  dsimp only
  split
  · exact held.trans (reply_portsKept ..)
  · exact held.trans ((rowLines_reads ..).portsKept.trans (reply_portsKept ..))

theorem takeRadd_portsKept (m : Memory) (b : Block) (port src : Nat) (msg : Bytes) : b.PortsKept (takeRadd m b port src msg) := by
  unfold takeRadd
  dsimp only
  refine onceOnly_portsKept b port src msg ?_
  have held := (holderRow_reads m b src (mg msg 143 128) (mg msg 183 144) (mg msg 223 192)).portsKept
  split
  · exact held.trans (reply_portsKept ..)
  · split
    · exact held.trans (reply_portsKept ..)
    · split
      · exact held.trans (reply_portsKept ..)
      split
      · refine held.trans (.trans (.trans ?_ (unperformed_portsKept ..)) (reply_portsKept ..))
        exact .of_ports rfl
      · exact held.trans ((performed_portsKept ..).trans (request_reads _ _).portsKept)

end Block
end Sys2Proof.Machine

/-! ### A message leaves its receive buffer (R423, R426, R438) -/

namespace Sys2Proof.Machine

section
variable {b : Block} {n pool mtype : Nat} {fs : List Flit} {act : Block → Nat → Bytes → Block} (up : b.portUp n = true)
  (whole : firstMsg (b.port n) pool = some fs) (type : mg (msgBytes fs) 5 0 = mtype) (own : mg (msgBytes fs) 21 16 = b.package)

/-- The block once the message has been popped. -/
def Block.popped (b : Block) (n pool : Nat) (fs : List Flit) : Block := b.popMsg n pool fs.length

theorem Block.popped_rx (b : Block) (n pool : Nat) (fs : List Flit) :
    ((b.popped n pool fs).port n).rx = dropPool pool fs.length (b.port n).rx := by
  have here : (b.popped n pool fs).port n =
      { b.port n with rx := dropPool pool fs.length (b.port n).rx, owed := updAt (b.port n).owed pool (· + fs.length) } :=
    port_modPort_self b (port_number b n)
  rw [here]

include up whole type own

/-- A whole message of the row's type for this package is popped, and acted on within its session. -/
theorem onMsg_takes : b.onMsg n pool mtype act = if b.admitted (msgBytes fs) then
    act ((b.popped n pool fs).heard (mg (msgBytes fs) 13 8)) (mg (msgBytes fs) 13 8) (msgBytes fs)
    else (b.popped n pool fs).count 0x2704 8 1 := by
  unfold Block.onMsg
  rw [if_neg (by simp [up]), whole]
  dsimp only
  rw [if_neg (by simp [type, own])]
  rfl

theorem onMsg_rx (kept : ∀ c : Block, c.PortsKept (act c (mg (msgBytes fs) 13 8) (msgBytes fs))) :
    ((b.onMsg n pool mtype act).port n).rx = dropPool pool fs.length (b.port n).rx := by
  rw [onMsg_takes up whole type own, ← b.popped_rx n pool fs]
  split
  · exact ((Block.modPeer_portsKept (b.popped n pool fs) _ _).trans (kept _)).rx n
  · rfl

theorem onMsg_dropped (outside : b.admitted (msgBytes fs) = false) : b.Flitted [(0x2704, 8)] (b.onMsg n pool mtype act) ∧
    (b.onMsg n pool mtype act).od' 0x2704 8 = add64 (b.od' 0x2704 8) 1 := by
  rw [onMsg_takes up whole type own, if_neg (by simp [outside])]
  refine ⟨((Block.Flitted.modPort b n _).mono (by simp)).trans (Block.Flitted.count _ (by decide) 1), ?_⟩
  rw [Block.count_self]
  rfl

end

/-- What a step that pops a message leaves of its receive buffer, and of the count of dropped messages. -/
def Pops (c : Instr) (s : State) (n pool : Nat) (fs : List Flit) : Prop :=
  Works c s (fun b => (b.port n).rx = dropPool pool fs.length (s.blk.port n).rx) ∧
    (s.blk.admitted (msgBytes fs) = false → Gives c s (fun t => (t.blk.port n).rx = dropPool pool fs.length (s.blk.port n).rx ∧
      t.blk.od' 0x2704 8 = add64 (s.blk.od' 0x2704 8) 1 ∧ t.mem = s.mem ∧ OdOnly s t [(0x2704, 8)]))

section
variable {s : State} {n pool mtype : Nat} {fs : List Flit} {act : Block → Nat → Bytes → Block} (hs : Settled s) (up : s.blk.portUp n = true)
  (whole : firstMsg (s.blk.port n) pool = some fs) (own : mg (msgBytes fs) 21 16 = s.blk.package)
include hs up whole own

/-- A message from outside the sender's session is dropped and counted. -/
theorem gives_of_dropped {c : Instr} (work : exec c s = finish s (s.blk.onMsg n pool mtype act)) (type : mg (msgBytes fs) 5 0 = mtype)
    (kept : ∀ c : Block, c.PortsKept (act c (mg (msgBytes fs) 13 8) (msgBytes fs))) (outside : s.blk.admitted (msgBytes fs) = false) :
    Gives c s (fun t => (t.blk.port n).rx = dropPool pool fs.length (s.blk.port n).rx ∧
      t.blk.od' 0x2704 8 = add64 (s.blk.od' 0x2704 8) 1 ∧ t.mem = s.mem ∧ OdOnly s t [(0x2704, 8)]) := by
  obtain ⟨flitted, counted⟩ := onMsg_dropped (act := act) up whole type own outside
  refine gives_of_flitted hs work flitted fun t ht ports mem od => ⟨?_, (ht.od _ _ (by decide)).trans counted, mem, od⟩
  rw [← onMsg_rx up whole type own kept]
  exact (congrArg Port.rx (ports n).1 :)

theorem pops_of_finish {c : Instr} (work : exec c s = finish s (s.blk.onMsg n pool mtype act)) (type : mg (msgBytes fs) 5 0 = mtype)
    (kept : ∀ c : Block, c.PortsKept (act c (mg (msgBytes fs) 13 8) (msgBytes fs))) : Pops c s n pool fs :=
  ⟨works_of_finish work (onMsg_rx up whole type own kept), gives_of_dropped hs up whole own work type kept⟩

/-- A step whose read does not wait. -/
theorem pops_of_read {c : Instr} (work : exec c s = finishRead s (s.blk.onMsg n pool mtype act)) (type : mg (msgBytes fs) 5 0 = mtype)
    (kept : ∀ c : Block, c.PortsKept (act c (mg (msgBytes fs) 13 8) (msgBytes fs)))
    (done : (s.blk.onMsg n pool mtype act).blocked = false) : Pops c s n pool fs :=
  pops_of_finish hs up whole own (work.trans (by simp [finishRead, done])) type kept

/-- A ROUTE, at whose end the tiles that wait go on. -/
theorem route_pops (type : mg (msgBytes fs) 5 0 = mtRoute) :
    Works (.route n pool) s (fun b => (b.port n).rx = dropPool pool fs.length (s.blk.port n).rx) ∧
    (s.blk.admitted (msgBytes fs) = false → s.blk.NoneLeaves → Gives (.route n pool) s (fun t =>
      (t.blk.port n).rx = dropPool pool fs.length (s.blk.port n).rx ∧ t.blk.od' 0x2704 8 = add64 (s.blk.od' 0x2704 8) 1 ∧
        t.mem = s.mem ∧ OdOnly s t [(0x2704, 8)])) := by
  have kept (c : Block) := c.takeRoute_portsKept (mg (msgBytes fs) 13 8) (msgBytes fs)
  refine ⟨works_of_finish rfl ?_, fun outside stays => ?_⟩
  · exact ((Block.moveAllTiles_portsKept _).rx n).trans (onMsg_rx up whole type own kept)
  · have flitted := (onMsg_dropped (act := fun b src msg => b.takeRoute src msg) up whole type own outside).1
    have none : (s.blk.onMsg n pool mtRoute (fun b src msg => b.takeRoute src msg)).NoneLeaves := by
      obtain ⟨⟨_, _, _, same⟩, -⟩ := flitted
      rw [same]
      exact stays
    exact gives_of_dropped hs up whole own (congrArg (finish s) (Block.moveAllTiles_noneLeaves none)) type kept outside

end

/-- A row, with its type, that pops a message without the end of a link's step; a read that it makes does not wait. -/
def PopsType (s : State) (n pool mtype : Nat) (c : Instr) : Prop :=
  (c = .rowdata n pool ∧ mtype = 2) ∨ (c = .rack n pool ∧ mtype = 4) ∨ (c = .grantReq n pool ∧ mtype = 5) ∨
    (c = .grant n pool ∧ mtype = 6) ∨ (c = .tile n pool ∧ mtype = 7) ∨ (c = .tileAck n pool ∧ mtype = 8) ∨
    (c = .rgather n pool ∧ mtype = 1 ∧ (s.blk.onMsg n pool mtRgather (fun b src msg => Block.takeRgather s.mem b n src msg)).blocked = false) ∨
    (c = .radd n pool ∧ mtype = 3 ∧ (s.blk.onMsg n pool mtRadd (fun b src msg => Block.takeRadd s.mem b n src msg)).blocked = false)

/-- Each row pops its message. -/
theorem message_pops {s : State} {n pool : Nat} {fs : List Flit} (hs : Settled s) (up : s.blk.portUp n = true)
    (whole : firstMsg (s.blk.port n) pool = some fs) (own : mg (msgBytes fs) 21 16 = s.blk.package) {c : Instr}
    (row : PopsType s n pool (mg (msgBytes fs) 5 0) c) : Pops c s n pool fs := by
  obtain ⟨rfl, type⟩ | ⟨rfl, type⟩ | ⟨rfl, type⟩ | ⟨rfl, type⟩ | ⟨rfl, type⟩ | ⟨rfl, type⟩ | ⟨rfl, type, done⟩ | ⟨rfl, type, done⟩ := row
  · exact pops_of_finish hs up whole own rfl type fun b => b.takeRowdata_portsKept _ _
  · exact pops_of_finish hs up whole own rfl type fun b => b.takeRack_portsKept _ _
  · exact pops_of_finish hs up whole own rfl type fun b => b.takeGrantReq_portsKept _ _ _
  · exact pops_of_finish hs up whole own rfl type fun b => b.takeGrant_portsKept _ _
  · exact pops_of_finish hs up whole own rfl type fun b => b.takePart_portsKept _ _ _
  · exact pops_of_finish hs up whole own rfl type fun b => b.takeTileAck_portsKept _ _
  · exact pops_of_read hs up whole own rfl type (fun b => Block.takeRgather_portsKept _ b _ _ _) done
  · exact pops_of_read hs up whole own rfl type (fun b => Block.takeRadd_portsKept _ b _ _ _) done

end Sys2Proof.Machine

/-! ### Answers reach the flows that asked (R430 to R437) -/

namespace Sys2Proof.Machine

/-- What a flow asked of a peer, and what stands for it once answered. -/
def RemoteRow.Answers (r x : RemoteRow) : Prop := x.peer = r.peer ∧ x.txn = r.txn ∧ x.kind = r.kind ∧ x.answered = true

/-- Flow g holds what f asked, as it was or answered. -/
def Flow.KeepsRows (f g : Flow) : Prop := g.id = f.id ∧ ∀ r ∈ f.remote, ∃ x ∈ g.remote, x = r ∨ r.Answers x

theorem Flow.KeepsRows.of_eq {f g : Flow} (id : g.id = f.id) (h : g.remote = f.remote) : f.KeepsRows g :=
  ⟨id, fun r hr => ⟨r, h ▸ hr, .inl rfl⟩⟩

theorem Flow.KeepsRows.trans {f g h : Flow} (first : f.KeepsRows g) (second : g.KeepsRows h) : f.KeepsRows h := by
  refine ⟨second.1.trans first.1, fun r hr => ?_⟩
  obtain ⟨x, hx, same | ⟨peer, txn, kind, answered⟩⟩ := first.2 r hr
  · exact same ▸ second.2 x hx
  · obtain ⟨y, hy, rfl | ⟨peer', txn', kind', answered'⟩⟩ := second.2 x hx
    · exact ⟨y, hy, .inr ⟨peer, txn, kind, answered⟩⟩
    · exact ⟨y, hy, .inr ⟨peer'.trans peer, txn'.trans txn, kind'.trans kind, answered'⟩⟩

namespace Block

/-- The flows of b are in flight in c, and hold what they asked. -/
structure KeepsRows (b c : Block) : Prop where
  flow : ∀ id f, b.flow? id = some f → ∃ g, c.flow? id = some g ∧ Flow.KeepsRows f g

theorem KeepsRows.of_flows {b c : Block} (h : c.flows = b.flows) : b.KeepsRows c := by
  refine ⟨fun id f here => ⟨f, ?_, .of_eq rfl rfl⟩⟩
  unfold flow?
  rwa [h]

theorem KeepsRows.refl (b : Block) : b.KeepsRows b := .of_flows rfl

theorem KeepsRows.trans {b c d : Block} (h : b.KeepsRows c) (h' : c.KeepsRows d) : b.KeepsRows d := by
  refine ⟨fun id f here => ?_⟩
  obtain ⟨g, there, first⟩ := h.flow id f here
  obtain ⟨k, last, second⟩ := h'.flow id g there
  exact ⟨k, last, first.trans second⟩

theorem Sends.keepsRows {b c : Block} (h : b.Sends c) : b.KeepsRows c := by
  obtain ⟨⟨_, _, _, rfl⟩, -⟩ := h
  exact .of_flows rfl

theorem modFlow_keepsRows (b : Block) (id : Nat) {g : Flow → Flow} (hg : ∀ f, Flow.KeepsRows f (g f)) : b.KeepsRows (b.modFlow id g) := by
  refine ⟨fun k f here => ?_⟩
  by_cases same : k = id
  · subst same
    exact ⟨g f, by rw [flow?_modFlow_self (fun f => (hg f).1), here]; rfl, hg f⟩
  · exact ⟨f, by rw [flow?_modFlow_other (fun f => (hg f).1) b same, here], .of_eq rfl rfl⟩

theorem mapFlows_keepsRows {b c : Block} {g : Flow → Flow} (hg : ∀ f, Flow.KeepsRows f (g f)) (h : c.flows = b.flows.map g) : b.KeepsRows c := by
  refine ⟨fun k f here => ⟨g f, ?_, hg f⟩⟩
  have ids : (fun x : Flow => x.id == k) ∘ g = fun x => x.id == k := funext fun x => by rw [Function.comp, (hg x).1]
  unfold flow? at here ⊢
  rw [h, List.find?_map, ids, here]
  rfl

theorem failRows_keepsRows (hit : RemoteRow → Bool) (status : Nat) (f : Flow) : f.KeepsRows (failRows hit status f) := by
  refine ⟨failRows_id .., fun r hr => ?_⟩
  refine ⟨if hit r && !r.answered then { r with answered := true, status := status } else r, List.mem_map_of_mem hr, ?_⟩
  split
  · exact .inr ⟨rfl, rfl, rfl, rfl⟩
  · exact .inl rfl

theorem refuseMsg_keepsRows (b : Block) (p : Nat) (s : SentMsg) : b.KeepsRows (b.refuseMsg p s) := by
  unfold refuseMsg
  split
  · exact .refl b
  · exact mapFlows_keepsRows (failRows_keepsRows _ 4) rfl

theorem releaseBacklog_keepsRows (fuel : Nat) (b : Block) (p : Nat) : b.KeepsRows (releaseBacklog fuel b p) := by
  induction fuel generalizing b with
  | zero => exact .refl b
  | succ fuel ih =>
    unfold releaseBacklog
    split
    · exact .refl b
    split
    · exact .refl b
    next s rest _ =>
      split
      · exact .refl b
      · dsimp only
        have popped := (modPeer_sends b p (fun q => { q with backlog := rest })).keepsRows
        generalize b.modPeer p (fun q => { q with backlog := rest }) = c at popped
        split
        · exact popped.trans ((refuseMsg_keepsRows ..).trans (ih _))
        · split
          · exact .refl b
          · exact popped.trans ((sendTo_sends ..).keepsRows.trans (ih _))

/-- Where the peer's roll call does not refuse, the messages kept back only go. -/
theorem releaseBacklog_sends (fuel : Nat) {b : Block} {p : Nat} (h : b.rollRefuses p = false) : b.Sends (releaseBacklog fuel b p) := by
  induction fuel generalizing b with
  | zero => exact .refl b
  | succ fuel ih =>
    unfold releaseBacklog
    split
    · exact .refl b
    split
    · exact .refl b
    next s rest _ =>
      split
      · exact .refl b
      · dsimp only
        rw [if_neg (by simp [h])]
        have popped := modPeer_sends b p (fun q => { q with backlog := rest })
        generalize b.modPeer p (fun q => { q with backlog := rest }) = c at popped
        split
        · exact .refl b
        next n t _ =>
          have sent := popped.trans (sendTo_sends c p { s with port := n, transit := t })
          refine sent.trans (ih ?_)
          rw [← h]
          unfold rollRefuses mismatched
          rw [sent.2 _ _ (by decide) (by decide), sent.2 _ _ (by decide) (by decide)]

theorem answeredAll_keepsRows (b : Block) (p : Nat) (hit : SentMsg → Bool) : b.KeepsRows (b.answeredAll p hit) :=
  (modPeer_sends b p _).keepsRows.trans (releaseBacklog_keepsRows ..)

theorem noteStatus_keepsRows (b : Block) (id status : Nat) : b.KeepsRows (b.noteStatus id status) := by
  have noted (st : Nat) : b.KeepsRows (b.note id st) := modFlow_keepsRows b id fun f => by
    split
    · exact .of_eq rfl rfl
    · exact .of_eq rfl rfl
  unfold noteStatus
  split_ifs
  · exact noted _
  · exact noted _
  · exact .refl b

/-- Something that a flow asked has its answer. -/
def Heard (b : Block) (id : Nat) (r : RemoteRow) : Prop := ∃ g, b.flow? id = some g ∧ ∃ x ∈ g.remote, r.Answers x

theorem Heard.of_keepsRows {b c : Block} {id : Nat} {r : RemoteRow} (h : b.Heard id r) (keeps : b.KeepsRows c) : c.Heard id r := by
  obtain ⟨g, here, x, hx, peer, txn, kind, answered⟩ := h
  obtain ⟨k, there, -, rows⟩ := keeps.flow id g here
  obtain ⟨y, hy, rfl | ⟨peer', txn', kind', answered'⟩⟩ := rows x hx
  · exact ⟨k, there, y, hy, peer, txn, kind, answered⟩
  · exact ⟨k, there, y, hy, peer'.trans peer, txn'.trans txn, kind'.trans kind, answered'⟩

/-- An element that is not the one changed stays. -/
theorem mem_updFirst_of_not {α : Type} {p : α → Bool} {f : α → α} {x : α} {l : List α} (hx : x ∈ l) (h : p x = false) :
    x ∈ updFirst p f l := by
  induction l with
  | nil => cases hx
  | cons y ys ih =>
    unfold updFirst
    rcases List.mem_cons.1 hx with rfl | rest
    · rw [if_neg (by simp [h])]
      exact List.mem_cons_self ..
    · split
      · exact List.mem_cons_of_mem _ rest
      · exact List.mem_cons_of_mem _ (ih rest)

/-- An answer noted at what a flow asked is heard, and so is one that had its end before. -/
theorem noteAnswer_heard {b : Block} {g : Flow} {r : RemoteRow} {id : Nat} (here : b.flow? id = some g)
    (asks : ∃ x ∈ g.remote, x = r ∨ r.Answers x) (status : Nat) (data : Bytes) : (b.noteAnswer id r status data).Heard id r := by
  unfold noteAnswer Heard
  rw [flow?_modFlow_self (fun _ => by exact rfl), here]
  refine ⟨_, rfl, ?_⟩
  obtain ⟨x, hx, old⟩ := asks
  by_cases same : x = r
  · subst same
    have any : g.remote.any (fun y => y == x) = true := List.any_eq_true.2 ⟨x, hx, by simp⟩
    obtain ⟨y, hy, mem⟩ := exists_mem_updFirst (fun y : RemoteRow => { y with answered := true, status := status, data := data }) any
    have own : y = x := by simpa using hy
    exact ⟨_, mem, by rw [own]; exact ⟨rfl, rfl, rfl, rfl⟩⟩
  · have answered := old.resolve_left same
    exact ⟨x, mem_updFirst_of_not hx (beq_eq_false_iff_ne.2 same), answered⟩

end Block
end Sys2Proof.Machine

/-! ### The flows after an answer (R430 to R437) -/

namespace Sys2Proof.Machine
namespace Block

/-- What a flow waits for is among what it asked. -/
theorem asker_asks {b : Block} {p txn kind : Nat} {f : Flow} {r : RemoteRow} (h : b.asker p txn kind = some (f, r)) : r ∈ f.remote := by
  unfold asker at h
  obtain ⟨g, -, found⟩ := List.exists_of_findSome?_eq_some h
  obtain ⟨x, here, same⟩ := Option.map_eq_some_iff.1 found
  obtain ⟨rfl, rfl⟩ := Prod.mk.inj same
  exact List.mem_of_find?_eq_some here

theorem asker_congr {b c : Block} (h : c.flows = b.flows) (p txn kind : Nat) : c.asker p txn kind = b.asker p txn kind := by
  unfold asker
  rw [h]

theorem flow?_congr {b c : Block} (h : c.flows = b.flows) (id : Nat) : c.flow? id = b.flow? id := by
  unfold flow?
  rw [h]

/-- An answer noted at the flow that asked, where it is still in flight. -/
theorem KeepsRows.heard {b c : Block} (keeps : b.KeepsRows c) {f : Flow} {r : RemoteRow} (here : b.flow? f.id = some f) (asks : r ∈ f.remote)
    (status : Nat) (data : Bytes) : (c.noteAnswer f.id r status data).Heard f.id r := by
  obtain ⟨g, there, -, rows⟩ := keeps.flow f.id f here
  exact noteAnswer_heard there (rows r asks) status data

theorem unperformed_keepsRows (b : Block) (id n : Nat) : b.KeepsRows (b.unperformed (some id) n) := by
  unfold unperformed
  split
  · exact .refl b
  · exact (KeepsRows.of_flows (Block.count_flows ..)).trans (modFlow_keepsRows _ id fun f => .of_eq rfl rfl)

theorem missed_keepsRows (b : Block) (id n : Nat) : b.KeepsRows (b.missed (some id) n) :=
  (KeepsRows.of_flows (Block.count_flows ..)).trans (modFlow_keepsRows _ id fun _ => .of_eq rfl rfl)

theorem countBoard_keepsRows (b : Block) : b.KeepsRows b.countBoard := .of_flows (Block.setOd_flows ..)

theorem refreshRemote_keepsRows (b : Block) (table row : Nat) (data : Option Bytes) : b.KeepsRows (b.refreshRemote table row data) := by
  unfold refreshRemote
  dsimp only
  split
  · refine .trans ?_ (countBoard_keepsRows _)
    exact .of_flows rfl
  · exact .of_flows rfl

section
variable {b : Block} {src : Nat} {msg : Bytes} {f : Flow} {r : RemoteRow} (here : b.flow? f.id = some f)
include here

/-- A ROWDATA reaches the flow that asked for its row. -/
theorem takeRowdata_heard (asks : b.asker src (mg msg 63 32) 1 = some (f, r)) : (b.takeRowdata src msg).Heard f.id r := by
  have noted (status seen : Nat) (data : Bytes) :
      (((b.answered src (mg msg 63 32)).noteAnswer f.id r status data).noteStatus f.id seen).Heard f.id r :=
    ((answeredAll_keepsRows b src _).heard here (asker_asks asks) status data).of_keepsRows (noteStatus_keepsRows ..)
  unfold takeRowdata
  dsimp only
  rw [show b.asker src (mg msg 63 32) mtRgather = some (f, r) from asks]
  dsimp only
  split
  · exact (noted ..).of_keepsRows ((refreshRemote_keepsRows ..).trans (countBoard_keepsRows _))
  · exact noted ..

/-- A RACK reaches the flow that asked for its add. -/
theorem takeRack_heard (asks : b.asker src (mg msg 63 32) 3 = some (f, r)) : (b.takeRack src msg).Heard f.id r := by
  have noted (status seen : Nat) :
      (((b.answered src (mg msg 63 32)).noteAnswer f.id r status []).noteStatus f.id seen).Heard f.id r :=
    ((answeredAll_keepsRows b src _).heard here (asker_asks asks) status []).of_keepsRows (noteStatus_keepsRows ..)
  unfold takeRack
  dsimp only
  rw [show b.asker src (mg msg 63 32) mtRadd = some (f, r) from asks]
  dsimp only
  split_ifs
  · exact noted ..
  · exact (noted ..).of_keepsRows (missed_keepsRows ..)
  · exact (noted ..).of_keepsRows (unperformed_keepsRows ..)

end

/-- Flow `id` has delivered n tiles. -/
def Delivered (b : Block) (id n : Nat) : Prop := ∃ g, b.flow? id = some g ∧ g.tilesDone = n

theorem Delivered.modFlow {b : Block} {id n m : Nat} (h : b.Delivered id n) {g : Flow → Flow} (hg : ∀ f, (g f).id = f.id)
    (tiles : ∀ f, f.tilesDone = n → (g f).tilesDone = m) : (b.modFlow id g).Delivered id m := by
  obtain ⟨f, here, done⟩ := h
  exact ⟨g f, by rw [flow?_modFlow_self hg, here]; rfl, tiles f done⟩

theorem Delivered.noteStatus {b : Block} {id n : Nat} (h : b.Delivered id n) (status : Nat) : (b.noteStatus id status).Delivered id n := by
  have noted (st : Nat) : (b.note id st).Delivered id n := h.modFlow (fun f => by split <;> rfl) fun f done => by
    split
    · exact done
    · exact done
  unfold Block.noteStatus
  split_ifs
  · exact noted _
  · exact noted _
  · exact h

/-- A TILE_ACK, taken: one tile more, poisoned or not. -/
def tileAcked (st rows : Nat) (g : Flow) : Flow :=
  if st == 0 then { g with tilesDone := g.tilesDone + 1 }
  else { g with poisonSeen := true, poisonCount := g.poisonCount + rows, tilesDone := g.tilesDone + 1 }

theorem tileAcked_keepsRows (st rows : Nat) (g : Flow) : g.KeepsRows (tileAcked st rows g) := by
  unfold tileAcked
  split <;> exact .of_eq rfl rfl

theorem tileAcked_tiles (st rows : Nat) (g : Flow) : (tileAcked st rows g).tilesDone = g.tilesDone + 1 := by
  unfold tileAcked
  split <;> rfl

theorem takeTileAck_asked {b : Block} {src : Nat} {msg : Bytes} {f : Flow} {r : RemoteRow} (asks : b.asker src (mg msg 63 32) 7 = some (f, r)) :
    b.takeTileAck src msg = ((((b.answeredAll src (fun s => s.txn == mg msg 63 32 || sameTile msg s.bytes)).noteAnswer f.id r (mg msg 31 24) []).noteStatus
      f.id (mg msg 31 24)).modFlow f.id (tileAcked (mg msg 31 24) r.row)) := by
  unfold takeTileAck
  dsimp only
  rw [show b.asker src (mg msg 63 32) mtTile = some (f, r) from asks]
  rfl

/-- A TILE_ACK reaches the flow that sent its tile, which has delivered one more. -/
theorem takeTileAck_heard {b : Block} {src : Nat} {msg : Bytes} {f : Flow} {r : RemoteRow} (here : b.flow? f.id = some f)
    (asks : b.asker src (mg msg 63 32) 7 = some (f, r)) (calls : b.rollRefuses src = false) :
    (b.takeTileAck src msg).Heard f.id r ∧ (b.takeTileAck src msg).Delivered f.id (f.tilesDone + 1) := by
  rw [takeTileAck_asked asks]
  have keeps := answeredAll_keepsRows b src (fun s => s.txn == mg msg 63 32 || sameTile msg s.bytes)
  have sent : b.Sends (b.answeredAll src (fun s => s.txn == mg msg 63 32 || sameTile msg s.bytes)) := by
    have dropped := modPeer_sends b src (fun q => { q with awaiting := q.awaiting.filter (fun s => !(s.txn == mg msg 63 32 || sameTile msg s.bytes)) })
    refine dropped.trans (releaseBacklog_sends _ ?_)
    rw [← calls]
    unfold rollRefuses mismatched
    rw [dropped.2 _ _ (by decide) (by decide), dropped.2 _ _ (by decide) (by decide)]
  have flows : (b.answeredAll src (fun s => s.txn == mg msg 63 32 || sameTile msg s.bytes)).flows = b.flows := by
    obtain ⟨⟨_, _, _, same⟩, -⟩ := sent
    rw [same]
  generalize b.answeredAll src (fun s => s.txn == mg msg 63 32 || sameTile msg s.bytes) = c at keeps flows
  have first : (c.noteAnswer f.id r (mg msg 31 24) []).Delivered f.id f.tilesDone :=
    Delivered.modFlow ⟨f, by rw [flow?_congr flows, here], rfl⟩ (fun _ => rfl) fun g done => done
  refine ⟨?_, ?_⟩
  · exact ((keeps.heard here (asker_asks asks) _ _).of_keepsRows (noteStatus_keepsRows ..)).of_keepsRows
      (modFlow_keepsRows _ _ (tileAcked_keepsRows _ _))
  · exact (first.noteStatus _).modFlow (fun g => (tileAcked_keepsRows _ _ g).1) fun g done => by rw [tileAcked_tiles, done]

end Block
end Sys2Proof.Machine

/-! ### Grants asked for and given back (R371, R428, R436, R437) -/

namespace Sys2Proof.Machine
namespace Block

/-- A message whose TXN is new to its source's record is acted on. -/
theorem onceOnly_new {b : Block} {port src : Nat} {msg : Bytes} {act : Block → Block}
    (new : ∀ q, b.peer? src = some q → q.performed.find? (fun e => e.txn == mg msg 63 32) = none) : b.onceOnly port src msg act = act b := by
  have none : ((b.peer? src).bind (fun q => q.performed.find? (fun e => e.txn == mg msg 63 32))) = none := by
    cases here : b.peer? src with
    | none => rfl
    | some q => exact new q here
  unfold onceOnly
  dsimp only
  rw [none]

/-- What popping a message and noting its source change is of the fabric alone; the source's record stands. -/
theorem popped_heard (b : Block) (n pool : Nat) (fs : List Flit) (p : Nat) : ∃ x : Seryo,
    (b.popped n pool fs).heard p = { b with seryo := x } ∧
      x.peers.find? (fun q => q.number == p) = (b.peer? p).map (fun q => { q with heardAt := b.time }) :=
  ⟨_, rfl, find?_updFirst_same (p := fun q : Peer => q.number == p) (g := fun q => { q with heardAt := b.time }) (fun _ hq => hq) b.seryo.peers⟩

/-- A GRANT_REQ that is granted a wait joins the claims. -/
theorem takeGrantReq_claims {b : Block} {port src : Nat} {msg : Bytes}
    (new : ∀ q, b.peer? src = some q → q.performed.find? (fun e => e.txn == mg msg 63 32) = none) (calls : b.rollRefuses src = false)
    (may : b.grantRefused (mg msg 151 128) (mg msg 159 152) (mg msg 178 160) = false) :
    (b.takeGrantReq port src msg).streams.claims = b.streams.claims ++
      [{ queue := mg msg 151 128, tile := none, remote := some (src, mg msg 63 32, port, mg msg 207 192), since := b.time }] := by
  unfold takeGrantReq
  rw [onceOnly_new new, if_neg (by simp [calls]), if_neg (by simp [may])]
  unfold addClaim
  rw [count_streams]
  rfl

/-- A satchel that is granted to a flow is one of its queue's. -/
theorem grantedTo_queue {b : Block} {q k src flow : Nat} (h : b.grantedTo q k src flow = true) :
    ∃ x, b.queue? q = some x ∧ k < x.sats.length := by
  unfold grantedTo at h
  cases here : b.queue? q with
  | none => simp [here] at h
  | some x =>
    refine ⟨x, rfl, ?_⟩
    by_contra beyond
    simp [here, List.getElem?_eq_none (Nat.le_of_not_lt beyond)] at h

theorem freeGranted_empty {b : Block} {q k : Nat} {x : SatQueue} (here : b.queue? q = some x) (within : k < x.sats.length) :
    ∃ y, (b.freeGranted q k).queue? q = some y ∧ y.sats[k]? = some Satchel.empty := by
  refine ⟨{ x with sats := x.sats.set k Satchel.empty }, ?_, List.getElem?_set_self within⟩
  unfold freeGranted
  dsimp only
  rw [queue?_modQueue _ q (g := fun x => { x with sats := x.sats.set k Satchel.empty }) (fun _ => rfl)]
  exact congrArg (Option.map _) here

/-- A TILE with RETURN frees its satchel. -/
theorem takePart_returned {b : Block} {port src : Nat} {msg : Bytes}
    (new : ∀ q, b.peer? src = some q → q.performed.find? (fun e => e.txn == mg msg 63 32) = none) (calls : b.rollRefuses src = false)
    (type : mg msg 5 0 = 7) (ret : mg msg 159 159 = 1)
    (granted : b.grantedTo (mg msg 151 128) (mg msg 157 152) src (mg msg 175 160) = true) :
    ∃ x, (b.takePart port src msg).queue? (mg msg 151 128) = some x ∧ x.sats[mg msg 157 152]? = some Satchel.empty := by
  obtain ⟨x, here, within⟩ := grantedTo_queue granted
  have returns : isReturn msg = true := by
    unfold isReturn
    rw [type, ret]
    rfl
  have taken : b.takePart port src msg = (b.performed port src (mg msg 63 32)).freeGranted (mg msg 151 128) (mg msg 157 152) := by
    unfold takePart
    dsimp only
    rw [onceOnly_new new, if_pos returns, if_neg (by simp [calls]), if_pos granted]
  rw [taken]
  exact freeGranted_empty (b := b.performed port src (mg msg 63 32)) here within

end Block

section
variable {s : State} {n pool mtype : Nat} {fs : List Flit} {act : Block → Nat → Bytes → Block} (up : s.blk.portUp n = true)
  (whole : firstMsg (s.blk.port n) pool = some fs) (own : mg (msgBytes fs) 21 16 = s.blk.package) (admitted : s.blk.admitted (msgBytes fs) = true)
include up whole own admitted

/-- A step that takes a message of a session does what the row asks, on the block that has popped it. -/
theorem works_of_taken {c : Instr} {P : Block → Prop} (work : exec c s = finish s (s.blk.onMsg n pool mtype act))
    (type : mg (msgBytes fs) 5 0 = mtype)
    (h : ∀ x : Seryo, x.peers.find? (fun q => q.number == mg (msgBytes fs) 13 8) =
        (s.blk.peer? (mg (msgBytes fs) 13 8)).map (fun q => { q with heardAt := s.blk.time }) →
      P (act { s.blk with seryo := x } (mg (msgBytes fs) 13 8) (msgBytes fs))) : Works c s P := by
  obtain ⟨x, popped, peers⟩ := s.blk.popped_heard n pool fs (mg (msgBytes fs) 13 8)
  refine works_of_finish work ?_
  rw [onMsg_takes up whole type own, if_pos admitted, popped]
  exact h x peers

/-- A step that takes a message new to its source's record. -/
theorem works_of_new {c : Instr} {P : Block → Prop} (work : exec c s = finish s (s.blk.onMsg n pool mtype act))
    (type : mg (msgBytes fs) 5 0 = mtype) {q : Peer} (peer : s.blk.peer? (mg (msgBytes fs) 13 8) = some q)
    (new : q.performed.find? (fun e => e.txn == mg (msgBytes fs) 63 32) = none)
    (h : ∀ x : Seryo, (∀ p, ({ s.blk with seryo := x } : Block).peer? (mg (msgBytes fs) 13 8) = some p →
        p.performed.find? (fun e => e.txn == mg (msgBytes fs) 63 32) = none) →
      P (act { s.blk with seryo := x } (mg (msgBytes fs) 13 8) (msgBytes fs))) : Works c s P := by
  refine works_of_taken up whole own admitted work type fun x peers => h x fun p here => ?_
  rw [peer] at peers
  have same : some p = some { q with heardAt := s.blk.time } := here.symm.trans peers
  rw [Option.some.inj same]
  exact new

end

/-- Settles O53, each message by what its type asks of the block that has popped it. -/
theorem messagesAreTaken : Obligations.MessagesAreTaken := by
  intro s n pool fs hs up whole
  dsimp only
  intro own
  refine ⟨fun c row => ?_, fun admitted f r here => ⟨fun type asks => ?_, fun type asks => ?_, fun type asks calls => ?_⟩,
    fun admitted q peer new calls => ⟨fun type may => ?_, fun type ret granted => ?_⟩⟩
  · by_cases route : c = .route n pool
    · subst route
      have type : mg (msgBytes fs) 5 0 = 0x11 := by simpa using row
      obtain ⟨popped, dropped⟩ := route_pops hs up whole own type
      exact ⟨popped, fun outside stays => dropped outside (stays rfl)⟩
    · obtain ⟨popped, dropped⟩ := message_pops hs up whole own (c := c) (by simpa [PopsType, route] using row)
      exact ⟨popped, fun outside _ => dropped outside⟩
  · exact works_of_taken up whole own admitted rfl type fun x _ =>
      Block.takeRowdata_heard (b := { s.blk with seryo := x }) here ((Block.asker_congr rfl ..).trans asks)
  · exact works_of_taken up whole own admitted rfl type fun x _ =>
      Block.takeRack_heard (b := { s.blk with seryo := x }) here ((Block.asker_congr rfl ..).trans asks)
  · exact works_of_taken up whole own admitted rfl type fun x _ =>
      Block.takeTileAck_heard (b := { s.blk with seryo := x }) here ((Block.asker_congr rfl ..).trans asks) calls
  · exact works_of_new up whole own admitted rfl type peer new fun x new =>
      Block.takeGrantReq_claims (b := { s.blk with seryo := x }) new calls may
  · exact works_of_new up whole own admitted rfl type peer new fun x new =>
      Block.takePart_returned (b := { s.blk with seryo := x }) new calls type ret granted

end Sys2Proof.Machine

/-! ### Free choices are made once

A step that ends, whatever faults it found, takes no free choice back; and of the writes that its agents then hold, one
that is neither a record nor an event's interrupt was there before, or follows a request that an agent's detention has
dropped. -/

namespace Sys2Proof.Machine

/-- A write of five bytes that nothing follows: no record has that size, and no interrupt of an event, which has four. -/
def AgentReq.Alien (r : AgentReq) : Prop := ∃ a d, r.op = .blockWrite a d none ∧ d.length = 5 ∧ r.after = []

namespace Block

/-- c has made the free choices of b, and perhaps more. -/
structure Draws (b c : Block) : Prop where
  le : b.freeCount ≤ c.freeCount

theorem Draws.of_eq {b c : Block} (h : c.freeCount = b.freeCount) : b.Draws c := ⟨h.ge⟩
theorem Draws.refl (b : Block) : b.Draws b := ⟨le_refl _⟩
theorem Draws.trans {b c d : Block} (h : b.Draws c) (h' : c.Draws d) : b.Draws d := ⟨le_trans h.le h'.le⟩

/-- c has made the free choices of b, holds no alien write that b did not, and has the same stacks in retrain. -/
structure Spares (b c : Block) : Prop extends b.Draws c where
  queue : ∀ r ∈ c.agents.queue, r.Alien → r ∈ b.agents.queue
  retrains : c.agents.retrains = b.agents.retrains

theorem Spares.of_queue {b c : Block} (free : c.freeCount = b.freeCount) (queue : c.agents.queue = b.agents.queue)
    (retrains : c.agents.retrains = b.agents.retrains) : b.Spares c := ⟨.of_eq free, fun _ hr _ => queue ▸ hr, retrains⟩

theorem Spares.of_eq {b c : Block} (free : c.freeCount = b.freeCount) (agents : c.agents = b.agents) : b.Spares c :=
  .of_queue free (congrArg Agents.queue agents) (congrArg Agents.retrains agents)

theorem Spares.refl (b : Block) : b.Spares b := .of_eq rfl rfl

theorem Spares.trans {b c d : Block} (h : b.Spares c) (h' : c.Spares d) : b.Spares d :=
  ⟨h.toDraws.trans h'.toDraws, fun r hr alien => h.queue r (h'.queue r hr alien) alien, h'.retrains.trans h.retrains⟩

theorem foldl_draws {α : Type} {f : Block → α → Block} (xs : List α) (b : Block) (h : ∀ (c : Block) x, c.Draws (f c x)) :
    b.Draws (xs.foldl f b) :=
  List.foldlRecOn (motive := b.Draws) _ _ (.refl b) fun c draws x _ => draws.trans (h c x)

theorem foldl_spares {α : Type} {f : Block → α → Block} (xs : List α) (b : Block) (h : ∀ (c : Block), ∀ x ∈ xs, c.Spares (f c x)) :
    b.Spares (xs.foldl f b) :=
  List.foldlRecOn (motive := b.Spares) _ _ (.refl b) fun c spares x hx => spares.trans (h c x hx)

theorem Sends.spares {b c : Block} (h : b.Sends c) : b.Spares c := by
  obtain ⟨⟨_, _, _, rfl⟩, -⟩ := h
  exact .of_eq rfl rfl

theorem FlowsEnd.spares {b c : Block} (h : b.FlowsEnd c) : b.Spares c := by
  obtain ⟨_, _, _, _, _, _, _, rfl⟩ := h
  exact .of_eq rfl rfl

theorem Powers.spares {b c : Block} (h : b.Powers c) : b.Spares c := by
  obtain ⟨_, _, rfl⟩ := h
  exact .of_eq rfl rfl

theorem fresh_spares (b : Block) : b.Spares b.fresh.2 := ⟨⟨Nat.le_succ _⟩, fun _ hr _ => hr, rfl⟩
theorem setOd_spares (b : Block) (i j v : Nat) : b.Spares (b.setOd i j v) := .of_eq (setOd_freeCount ..) (setOd_agents ..)
theorem count_spares (b : Block) (i j n : Nat) : b.Spares (b.count i j n) := .of_eq (count_freeCount ..) (count_agents ..)

/-! Records and events -/

theorem enqueue_spares (b : Block) (r : AgentReq) (h : ¬ r.Alien) : b.Spares (b.enqueue r) := by
  have added (c : Block) : c.Spares { c with agents := { c.agents with queue := c.agents.queue ++ [r] } } := by
    refine ⟨.of_eq rfl, fun x hx alien => ?_, rfl⟩
    rcases List.mem_append.1 hx with old | new
    · exact old
    · exact absurd (List.mem_singleton.1 new ▸ alien) h
  unfold enqueue
  dsimp only
  split
  · exact (added b).trans (setOd_spares ..)
  · exact added b

theorem request_spares (b : Block) (r : AgentReq) (h : ¬ r.Alien) : b.Spares (b.request r) := by
  unfold request
  split
  · exact .of_eq rfl rfl
  · exact enqueue_spares b r h

theorem tierWrite_spares (b : Block) (a : Nat) (d : Bytes) : b.Spares (b.tierWrite a d) := by
  have charged (c : Block) (x cost : Nat) : c.Spares (c.charge x cost) := by
    unfold charge
    split
    · exact .of_queue rfl rfl rfl
    · exact .refl c
  have cleared (c : Block) (n : Nat) : c.Spares (c.clearPoison a n) := .of_queue rfl rfl rfl
  have reported : b.Spares (b.reported a d.length).2 := by
    unfold reported
    dsimp only
    split
    · exact .refl b
    · exact fresh_spares b
  have stored (us : List Nat) (c : Block) : c.Spares (us.foldl (fun b u => (b.uncorrectable u).storePoisoned u) c) :=
    foldl_spares _ c fun _ _ _ => .of_queue rfl rfl rfl
  unfold tierWrite
  dsimp only
  split_ifs
  · exact .refl b
  · exact count_spares ..
  · refine .trans ?_ (charged _ _ _)
    refine .trans ?_ (cleared _ _)
    exact (reported.trans (stored ..)).trans (.of_eq rfl rfl)

theorem ownPut_spares (b : Block) (a : Nat) (d : Bytes) (after : List After) (h : d.length ≠ 5) : b.Spares (b.ownPut a d after).1 := by
  have asked : b.Spares (b.request { port := agentOf a, flow := none, op := .blockWrite a d none, remote := none, after := after }) := by
    refine request_spares b _ fun ⟨_, _, op, five, _⟩ => ?_
    obtain ⟨-, rfl, -⟩ := AgentOp.blockWrite.inj op
    exact h five
  unfold ownPut
  dsimp only
  split_ifs
  · exact .of_eq rfl rfl
  · exact asked
  · exact count_spares b _ _ _
  · exact asked
  · exact tierWrite_spares ..

theorem runAfter_draws (b : Block) (x : After) : b.Draws (b.runAfter x) := by
  have put (a : Nat) (d : Bytes) (after : List After) : b.Draws (b.ownPut a d after).1 := by
    unfold ownPut
    dsimp only
    split_ifs
    · exact .of_eq rfl
    · exact .of_eq (request_freeCount ..)
    · exact (count_spares b _ _ _).toDraws
    · exact .of_eq (request_freeCount ..)
    · exact (tierWrite_spares ..).toDraws
  cases x with
  | interrupt ring len a d =>
    show b.Draws (b.interrupt ring len a d)
    unfold interrupt
    split
    · exact .of_eq rfl
    · exact put ..
  | eventIndex => exact (setOd_spares ..).toDraws
  | orphanIndex => exact (setOd_spares ..).toDraws

/-- What is attached to a request follows it. -/
theorem attach_follows {p : AgentReq → Bool} {x : After} {l q : List AgentReq} (h : attach p x l = some q) :
    q ≠ [] ∧ ∀ r ∈ q, r.Alien → r ∈ l := by
  induction l generalizing q with
  | nil => cases h
  | cons y ys ih =>
    unfold attach at h
    split at h
    · next rest found =>
      obtain rfl := Option.some.inj h
      refine ⟨List.cons_ne_nil _ _, fun r hr alien => ?_⟩
      rcases List.mem_cons.1 hr with rfl | old
      · exact List.mem_cons_self ..
      · exact List.mem_cons_of_mem _ ((ih found).2 r old alien)
    · split at h
      · obtain rfl := Option.some.inj h
        refine ⟨List.cons_ne_nil _ _, fun r hr alien => ?_⟩
        rcases List.mem_cons.1 hr with rfl | old
        · obtain ⟨_, _, _, _, none⟩ := alien
          cases none
        · exact List.mem_cons_of_mem _ old
      · cases h

theorem interrupt_spares (b : Block) (ring len a : Nat) (d : Bytes) (h : d.length ≠ 5) : b.Spares (b.interrupt ring len a d) := by
  unfold interrupt
  split
  next q found => exact ⟨.of_eq rfl, (attach_follows found).2, rfl⟩
  · exact ownPut_spares _ _ _ _ h

theorem eventAfter_spares (b c : Block) : ∀ x ∈ b.eventAfter, c.Spares (c.runAfter x) := by
  intro x hx
  unfold eventAfter at hx
  rcases List.mem_cons.1 hx with rfl | rest
  · exact setOd_spares ..
  · split at rest
    · cases rest
    · obtain rfl := List.mem_singleton.1 rest
      exact interrupt_spares _ _ _ _ _ (by rw [natLE_length]; decide)

theorem eventWritten_spares (b : Block) (ty payload : Nat) : b.Spares (b.eventWritten ty payload) := by
  have counters (c : Block) (next : Nat) (phase : Bool) :
      c.Spares { c with faults := { c.faults with eventNext := next, eventPhase := phase } } := .of_eq rfl rfl
  have written (c : Block) (a n : Nat) : c.Spares (c.ownWrite a (natLE 64 n) b.eventAfter) := by
    have put := ownPut_spares c a (natLE 64 n) b.eventAfter (by rw [natLE_length]; decide)
    unfold ownWrite
    dsimp only
    split
    · exact put.trans (foldl_spares _ _ fun e x hx => eventAfter_spares b e x hx)
    · exact put
  unfold eventWritten
  exact (counters ..).trans (written ..)

theorem event_spares (b : Block) (ty payload : Nat) : b.Spares (b.event ty payload) := by
  have counted (c : Block) (seq : Nat) : c.Spares { c with faults := { c.faults with eventSeq := seq } } := .of_eq rfl rfl
  unfold event
  dsimp only
  split
  · exact (count_spares b ..).trans (counted ..)
  · exact (eventWritten_spares ..).trans (counted ..)

theorem tokenEvent_spares (b : Block) (cause : Nat) : b.Spares (b.tokenEvent cause) := (fresh_spares b).trans (event_spares ..)

end Block
end Sys2Proof.Machine

/-! ### What a fault does takes no free choice back -/

namespace Sys2Proof.Machine
namespace Block

/-! Ports -/

theorem setPortState_spares (b : Block) (n dest : Nat) : b.Spares (b.setPortState n dest) := by
  have shown : b.Spares (b.stateShown n dest) := (setOd_spares ..).trans (event_spares ..)
  have cut (now : Nat) : b.Spares ((b.stateShown n dest).unlink n now) := shown.trans ((setOd_spares ..).trans (.of_eq (putPort_freeCount ..) (putPort_agents ..)))
  by_cases same : b.portState n = dest
  · rw [setPortState_same same]
    exact .refl b
  · rw [setPortState_of_ne same]
    split_ifs
    · exact shown
    · exact (cut _).trans ((launch_sentFrom ..).sends.spares.trans (idleOut_sentFrom ..).sends.spares)
    · exact cut _

theorem flap_spares (b : Block) (n : Nat) : b.Spares (b.flap n) := by
  unfold flap
  dsimp only
  split
  · exact .of_eq rfl rfl
  · exact .of_eq rfl rfl

theorem refuseMsg_spares (b : Block) (p : Nat) (s : SentMsg) : b.Spares (b.refuseMsg p s) := by
  unfold refuseMsg
  split
  · exact .refl b
  · refine .trans ?_ (count_spares ..)
    exact .of_eq rfl rfl

theorem resendOne_spares (b : Block) (p : Nat) (s : SentMsg) : b.Spares (b.resendOne p s) := by
  unfold resendOne
  split
  · exact refuseMsg_spares ..
  · split
    · exact .refl b
    · exact (modPeer_sends b p _).spares.trans ((count_spares ..).trans (sendOn_sends ..).spares)

theorem resend_spares (b : Block) (lost : Nat → SentMsg → Bool) : b.Spares (b.resend lost) :=
  foldl_spares _ b fun c p _ => foldl_spares _ c fun d s _ => resendOne_spares d p.number s

theorem showPeers_spares (b : Block) : b.Spares b.showPeers :=
  (setOd_spares b _ _ _).trans ((setOd_spares ..).trans (setOd_spares ..))

theorem setMismatch_spares (b : Block) (map epoch : Nat) : b.Spares (b.setMismatch map epoch) := by
  unfold setMismatch
  split
  · exact .refl b
  · exact (setOd_spares ..).trans (event_spares ..)

theorem depart_spares (b : Block) (p : Nat) : b.Spares (b.depart p) := by
  unfold depart
  split
  · exact .refl b
  · dsimp only
    refine .trans ?_ ((setMismatch_spares _ _ _).trans (showPeers_spares _))
    refine .trans ?_ (event_spares _ _ _)
    refine .trans ?_ ((count_spares _ _ _ _).trans (count_spares _ _ _ _))
    exact .of_eq rfl rfl

theorem routesChanged_spares (b : Block) (old : Nat) : b.Spares (b.routesChanged old) := by
  have lost (c : Block) : c.Spares c.departLost := foldl_spares _ c fun d p _ => depart_spares d p.number
  have told (x y : Nat) : b.Spares (b.sendRoutes x y) := foldl_spares _ b fun d n _ => (sendOn_sends ..).spares
  unfold routesChanged
  dsimp only
  refine .trans ?_ ((showPeers_spares _).trans (lost _))
  split
  · exact .refl b
  · exact told ..

theorem leavePort_spares (b : Block) (n dest : Nat) : b.Spares (b.leavePort n dest) := by
  unfold leavePort
  split
  · dsimp only
    refine .trans ?_ ((resend_spares _ _).trans (routesChanged_spares _ _))
    split
    · exact (setPortState_spares ..).trans ((count_spares ..).trans (flap_spares ..))
    · exact (setPortState_spares ..).trans (count_spares ..)
  · exact setPortState_spares ..

theorem goodbyePort_spares (b : Block) (n dest : Nat) : b.Spares (b.goodbyePort n dest) := by
  unfold goodbyePort
  split
  · exact ((launch_sentFrom ..).sends.spares.trans (idleOut_sentFrom ..).sends.spares).trans
      ((leavePort_spares ..).trans (leavePort_spares ..))
  · exact leavePort_spares ..

theorem goodbyeAll_spares (b : Block) : b.Spares b.goodbyeAll := foldl_spares _ b fun c n _ => by
  split
  · exact goodbyePort_spares ..
  · exact .refl c

/-! Units in detention -/

theorem setBit_spares (b : Block) (index sub i : Nat) (v : Bool) : b.Spares (b.setBit index sub i v) := by
  unfold setBit
  dsimp only
  split
  · exact .refl b
  · exact setOd_spares ..

theorem fenceSu_spares (b : Block) (su : Nat) : b.Spares (b.fenceSu su) := by
  have ended (c : Block) : c.Spares (c.endSuFlows su) :=
    (foldl_spares _ c fun d n _ => (endGen_flowsEnd ..).spares.trans (dropPending_flowsEnd ..).spares).trans
      (foldl_spares _ _ fun d f _ => (endFlow_flowsEnd ..).spares)
  exact (setBit_spares ..).trans (ended _)

theorem dropRequest_draws (b : Block) (r : AgentReq) : b.Draws (b.dropRequest r) := by
  unfold dropRequest
  split
  · dsimp only
    split
    · exact (count_spares ..).toDraws
    · exact (count_spares b 0x2303 6 1).toDraws.trans (.of_eq rfl)
  · exact (count_spares ..).toDraws.trans (foldl_draws _ _ runAfter_draws)
  · dsimp only
    have counted := (count_spares b 0x2303 6 1).toDraws
    generalize b.count 0x2303 6 1 = c at counted ⊢
    have poisoned (id : Nat) : c.Draws (c.addPoison id 1) := .of_eq rfl
    split
    · split
      · exact counted
      · exact counted.trans (poisoned _)
    · split
      · exact counted.trans (reply_sends ..).spares.toDraws
      · exact counted.trans ((poisoned _).trans (reply_sends ..).spares.toDraws)

theorem fenceAgent_draws (b : Block) (a : Nat) : b.Draws (b.fenceAgent a) := by
  have dropped (c : Block) (p : AgentReq → Bool) : c.Draws (c.dropRequests p) := by
    unfold dropRequests
    refine .trans ?_ (foldl_draws _ _ dropRequest_draws)
    exact .of_eq rfl
  exact ((setBit_spares ..).toDraws.trans (dropped ..)).trans (.of_eq rfl)

theorem evict_spares (b : Block) (l : Line) : b.Spares (b.evict l) := by
  have dropped (c : Block) : c.Spares (c.dropLine l) := by
    unfold dropLine
    dsimp only
    split
    · exact .of_eq rfl rfl
    · exact .of_eq rfl rfl
  have read : b.Spares (b.dirtyRead l) := by
    unfold dirtyRead
    split_ifs
    · exact (count_spares b 0x2504 6 1).trans (.of_eq rfl rfl)
    · exact count_spares ..
    · exact .refl b
  have asked (c : Block) : c.Spares (c.request
      { port := agentOf l.addr, flow := none, op := .writeBack l.addr l.data (l.err == 2), remote := none }) :=
    request_spares c _ fun ⟨_, _, op, _⟩ => by cases op
  unfold evict
  split
  · refine .trans ?_ (dropped _)
    exact (read.trans (asked _)).trans (.of_eq rfl rfl)
  · exact dropped b

theorem dropHalf_spares (b : Block) (south : Bool) : b.Spares (b.dropHalf south) := by
  have gone (c : Block) : c.Spares { c.countBoard with cache := { c.countBoard.cache with gone := some south } } := .of_eq rfl rfl
  exact (foldl_spares _ b fun c l _ => evict_spares c l).trans (gone _)

theorem fenceWay_spares (b : Block) (south : Bool) (way : Nat) : b.Spares (b.fenceWay south way) :=
  (foldl_spares _ b fun c l _ => evict_spares c l).trans (.of_eq rfl rfl)

theorem fenceQueues_spares (b : Block) (w : Wing) : b.Spares (b.fenceQueues w) := by
  unfold fenceQueues
  dsimp only
  refine .trans (foldl_spares _ b fun c f _ => ?_) (.of_eq rfl rfl)
  split
  · exact (endGen_flowsEnd ..).spares
  · split
    · exact .refl c
    · exact (endFlow_flowsEnd ..).spares

theorem setEngine_spares (b : Block) (w : Wing) (e : WingEngine) : b.Spares (b.setEngine w e) := by
  cases w <;> exact .of_eq rfl rfl

theorem giveToken_spares (b : Block) (w : Wing) (cause : Nat) : b.Spares (b.giveToken w cause) := by
  have taken (c : Block) : c.Spares (c.takeEpoch w) := by cases w <;> exact .of_eq rfl rfl
  unfold giveToken
  dsimp only
  refine .trans ?_ (tokenEvent_spares ..)
  exact ((setOd_spares ..).trans ((count_spares ..).trans ((count_spares ..).trans (taken _)))).trans (.of_eq rfl rfl)

theorem fenceWing_spares (b : Block) (w : Wing) (bridge : Bool) : b.Spares (b.fenceWing w bridge) := by
  have units (c : Block) (l : List Nat) : c.Spares (l.foldl (fun b su => if b.suFenced su then b else b.fenceSu su) c) :=
    foldl_spares _ c fun d su _ => by
      split
      · exact .refl d
      · exact fenceSu_spares ..
  unfold fenceWing
  dsimp only
  have out := ((setBit_spares b 0x2802 4 (wingNo w) true).trans (units _ ((List.range 16).map (· + 16 * wingNo w)))).trans
    ((fenceQueues_spares _ w).trans ((setEngine_spares _ w WingEngine.empty).trans (returnPass_powers _ w).spares))
  generalize Block.returnPass _ w = c at out
  have dropped : c.Spares (if bridge then c.dropHalf (w == .south) else c) := by
    split
    · exact dropHalf_spares ..
    · exact .refl c
  have ended (d : Block) : d.Spares (if d.holderWing == w then d.giveToken (otherWing w) 2 else d) := by
    split
    · exact giveToken_spares ..
    · exact .refl d
  exact out.trans (dropped.trans (ended _))

theorem fenceBridge_spares (b : Block) : b.Spares b.fenceBridge := by
  have down : b.Spares { b with faults := { b.faults with bridgeFenced := true } } := .of_eq rfl rfl
  unfold fenceBridge
  dsimp only
  split
  · exact down.trans (fenceWing_spares ..)
  · split
    · exact down.trans (dropHalf_spares ..)
    · exact down

theorem fenceUnit_spares (b : Block) {u : Nat} (h : isAgent u = false) : b.Spares (b.fenceUnit u) := by
  have own (c : Block) (l : List Nat) : c.Spares { c with faults := { c.faults with ownFence := l } } := .of_eq rfl rfl
  unfold fenceUnit
  rw [h]
  split_ifs
  · exact (own ..).trans (fenceSu_spares ..)
  · exact fenceWing_spares ..
  · next agent => exact absurd agent (by decide)
  · exact (setBit_spares ..).trans (goodbyePort_spares ..)
  · exact (setBit_spares ..).trans (fenceWay_spares ..)
  · exact fenceBridge_spares b
  · exact setBit_spares ..
  · exact setOd_spares ..
  · exact .refl b

/-- An agent's detention. -/
theorem fenceUnit_agent (b : Block) {u : Nat} (h : isAgent u = true) : b.fenceUnit u = b.fenceAgent (u - 0x100) := by
  have range : 0x100 ≤ u := by
    unfold isAgent at h
    simp only [Bool.and_eq_true, decide_eq_true_eq] at h
    exact h.1
  unfold fenceUnit
  rw [if_neg (by simp [isSu]; omega), if_neg (by simp [isWing]; omega), if_pos h]

theorem putSlot_spares (b : Block) (x : StreamSlot) : b.Spares (b.putSlot x) := by
  unfold putSlot
  refine .trans ?_ (setOd_spares ..)
  exact .of_eq rfl rfl

theorem blockStop_spares (b : Block) : b.Spares b.blockStop := by
  have emptied (c : Block) : c.Spares c.abandon := by
    unfold abandon
    dsimp only
    refine .trans (foldl_spares c.streams.slots c fun d x _ => d.putSlot_spares { x with
      gen := none, pendingGen := none, ringing := false, part := [], partPoison := [] }) ?_
    generalize List.foldl _ c c.streams.slots = d
    exact .of_queue rfl rfl rfl
  have dropped (c : Block) : c.Spares c.dropStagings := by
    unfold dropStagings
    refine .trans ?_ (foldl_spares _ _ fun _ _ _ => setOd_spares ..)
    exact .of_eq rfl rfl
  have lost (c : Block) : c.Spares (c.loseRequests isWriteBack) := by
    unfold loseRequests
    refine .trans ?_ (count_spares ..)
    exact ⟨.of_eq rfl, fun _ hr _ => (List.mem_filter.1 hr).1, rfl⟩
  unfold blockStop
  split
  · exact .refl b
  · exact ((setOd_spares ..).trans ((emptied _).trans ((dropped _).trans ((lost _).trans (goodbyeAll_spares _))))).trans
      ((returnPass_powers _ _).spares.trans (returnPass_powers _ _).spares)

/-- What the collector does at a level, unless it puts an agent into detention. -/
theorem react_spares (b : Block) {cls unit lvl : Nat} (h : ¬ (lvl = 1 ∧ isAgent unit = true)) : b.Spares (b.react cls unit lvl) := by
  unfold react
  split
  · exact .refl b
  split
  · next one => exact fenceUnit_spares b (Bool.eq_false_iff.2 fun agent => h ⟨beq_iff_eq.1 one, agent⟩)
  split
  · split
    · exact fenceBridge_spares b
    · split
      · exact .refl b
      · split
        · exact fenceBridge_spares b
        · exact fenceWing_spares ..
  · exact blockStop_spares b

theorem react_agent (b : Block) (cls : Nat) {unit : Nat} (h : isAgent unit = true) : b.react cls unit 1 = b.fenceAgent (unit - 0x100) :=
  fenceUnit_agent b h

theorem react_draws (b : Block) (cls unit lvl : Nat) : b.Draws (b.react cls unit lvl) := by
  by_cases agent : lvl = 1 ∧ isAgent unit = true
  · obtain ⟨rfl, agent⟩ := agent
    rw [react_agent b cls agent]
    exact fenceAgent_draws ..
  · exact (react_spares b agent).toDraws

theorem openRecord_spares (b : Block) (word : Nat) : b.Spares (b.openRecord word) := by
  unfold openRecord
  split
  · exact .refl b
  next k _ =>
    dsimp only
    have written := setOd_spares b 0x2810 k (word + 2 ^ 44)
    generalize b.setOd 0x2810 k (word + 2 ^ 44) = c at written
    refine .trans (.trans written ?_) (setOd_spares _ 0x2801 1 _)
    exact .of_eq rfl rfl

/-- A fault recorded: counted, numbered, and its record opened where a slot is free. -/
def recorded (b : Block) (cls unit : Nat) (inj : Bool) : Block :=
  let esc := b2n (defaultLevel cls unit < b.faultLevel cls unit)
  let full := b.openRecs.length == 64
  let b1 := ((b.count 0x2801 5 1).count 0x2801 6 (b2n full)).count 0x2801 7 esc
  let b2 : Block := { b1 with faults := { b1.faults with lastNo := b.faults.lastNo + 1 } }
  if full then b2 else b2.openRecord (pack
    [(0, b.faults.lastNo + 1), (32, cls), (40, b.faultLevel cls unit), (42, esc), (43, b2n inj), (48, unit)])

/-- A fault that is not a fenced unit's is recorded, reacted to, and its event written. -/
theorem raiseFault_steps {b : Block} {cls unit : Nat} (h : (b.fenced unit && !noticeClass cls) = false) (addr detail : Nat) (inj : Bool) :
    ∃ payload, b.raiseFault cls unit addr detail inj =
      ((b.recorded cls unit inj).react cls unit (b.faultLevel cls unit)).event 1 payload := by
  unfold raiseFault
  rw [if_neg (by simp [h])]
  exact ⟨_, rfl⟩

theorem recorded_spares (b : Block) (cls unit : Nat) (inj : Bool) : b.Spares (b.recorded cls unit inj) := by
  have numbered (c : Block) (no : Nat) : c.Spares { c with faults := { c.faults with lastNo := no } } := .of_eq rfl rfl
  have counted (full esc : Nat) : b.Spares (((b.count 0x2801 5 1).count 0x2801 6 full).count 0x2801 7 esc) :=
    (count_spares ..).trans ((count_spares ..).trans (count_spares ..))
  unfold recorded
  dsimp only
  split
  · exact (counted ..).trans (numbered ..)
  · exact (counted ..).trans ((numbered ..).trans (openRecord_spares ..))

theorem raiseFault_draws (b : Block) (cls unit addr detail : Nat) (inj : Bool) : b.Draws (b.raiseFault cls unit addr detail inj) := by
  by_cases silent : (b.fenced unit && !noticeClass cls) = true
  · unfold raiseFault
    rw [if_pos silent]
    exact .refl b
  · obtain ⟨payload, same⟩ := raiseFault_steps (Bool.eq_false_iff.2 silent) addr detail inj
    rw [same]
    exact (recorded_spares ..).toDraws.trans ((react_draws ..).trans (event_spares ..).toDraws)

/-- A found fault graded, with a free DETAIL. -/
def gradeFound (b : Block) (e : Nat × Nat × Nat × Bool) : Block :=
  b.fresh.2.raiseFault e.1 e.2.1 e.2.2.1 (Config.freeFaultDetail b.fresh.1).toNat e.2.2.2

/-- A step's found faults graded. -/
def graded (b : Block) : Block := b.raised.foldl gradeFound { b with raised := [] }

theorem settle_eq (b : Block) : b.settle = { b.graded.releaseBack.showOld.idleAll with blocked := false } := rfl

theorem releaseBack_freeCount (b : Block) : b.releaseBack.freeCount = b.freeCount := by
  unfold releaseBack
  split
  · rfl
  · exact List.foldlRecOn (motive := fun c : Block => c.freeCount = b.freeCount) _ _ rfl fun c same r _ =>
      (enqueue_freeCount c r).trans same

/-- Each fault graded makes a free choice. -/
theorem foldl_gradeFound_freeCount (b : Block) (es : List (Nat × Nat × Nat × Bool)) :
    b.freeCount + es.length ≤ (es.foldl gradeFound b).freeCount := by
  induction es generalizing b with
  | nil => exact le_refl _
  | cons e es ih =>
    have one : b.freeCount + 1 ≤ (b.gradeFound e).freeCount := (raiseFault_draws b.fresh.2 ..).le
    have rest := ih (b.gradeFound e)
    rw [List.length_cons, List.foldl_cons]
    omega

/-- A step that ends makes as many free choices as it found faults, and perhaps more. -/
theorem settle_freeCount (b : Block) : b.freeCount + b.raised.length ≤ b.settle.freeCount := by
  have ended : b.graded.Draws b.settle := by
    rw [settle_eq]
    generalize b.graded = c
    have back : c.Draws c.releaseBack := .of_eq (releaseBack_freeCount c)
    refine .trans (back.trans ((setOd_spares ..).trans (idleAll_sentFrom c.releaseBack.showOld).sends.spares).toDraws) ?_
    exact .of_eq rfl
  exact le_trans (foldl_gradeFound_freeCount { b with raised := [] } b.raised) ended.le

/-- Where a step has ended without a free choice, it found no fault. -/
theorem raised_of_settle {b : Block} (h : b.settle.freeCount = 0) : b.raised = [] :=
  List.eq_nil_of_length_eq_zero (by have := b.settle_freeCount; omega)

end Block
end Sys2Proof.Machine

/-! ### A block stop that writes over the engine's state (R469, R500, R517) -/

namespace Sys2Proof.Machine
namespace Block

/-- A request that waits shows in OD 0x2303.08 alone. -/
theorem enqueue_engineState (b : Block) (r : AgentReq) : (b.enqueue r).engineState = b.engineState := by
  unfold enqueue engineState
  dsimp only
  split
  · exact setOd_od'_of_ne _ _ (by decide) (by decide) (by decide) (by decide) (by decide)
  · rfl

/-- The end of a step that found no fault leaves the engine's state. -/
theorem settle_engineState {b : Block} (h : b.raised = []) : b.settle.engineState = b.engineState := by
  have none : b.graded = { b with raised := [] } := by
    unfold graded
    rw [h]
    rfl
  have back : b.graded.releaseBack.engineState = b.engineState := by
    rw [none]
    unfold releaseBack
    split
    · rfl
    · exact List.foldlRecOn (motive := fun c : Block => c.engineState = b.engineState) _ _ rfl fun c same r _ =>
        (enqueue_engineState c r).trans same
  rw [settle_eq]
  have idle := (idleAll_sentFrom b.graded.releaseBack.showOld).sends.2 0x2000 4 (by decide) (by decide)
  exact (idle.trans (setOd_od'_of_ne _ _ (by decide) (by decide) (by decide) (by decide) (by decide))).trans back

end Block

/-- What a command that works and makes no free choice shows of the engine's state is what its work left. -/
theorem works_engineState {c : Instr} {s : State} {P : Block → Prop} {x : Nat} (h : Works c s P)
    (shown : shows (exec c s) (fun t => (t.blk.freeCount, t.blk.engineState)) = some (0, x)) : ∃ b, b.engineState = x ∧ P b := by
  obtain ⟨b, ran, holds⟩ := h
  rw [ran] at shown
  obtain ⟨free, state⟩ := Prod.mk.inj (Option.some.inj shown)
  exact ⟨b, (Block.settle_engineState (Block.raised_of_settle free)).symm.trans state, holds⟩

set_option maxRecDepth 100000 in
/-- Refutes O55: a fault of level 3 while a commit set is staged whose number, 65508, gives its state word the key of OD
0x2000.04. The block stop shows that set IDLE, and with it the engine at 0, not STOPPED. -/
theorem not_faultsAreGradedAndRecorded : ¬ Obligations.FaultsAreGradedAndRecorded := by
  intro h
  let s : State := { State.reset with blk := { Block.reset with
    startUp := { Block.reset.startUp with step := 2 }
    dict := { Block.reset.dict with staging := [{ set := 65508, owner := 0, copy := [], committing := false }] } } }
  obtain ⟨-, graded, -⟩ := h s (by decide)
  obtain ⟨-, -, stops, -⟩ := graded 7 0x100 0 0 (by decide) (by decide) (by decide) (by decide)
  obtain ⟨b, state, stopped, -⟩ := works_engineState (x := 0) (stops (by decide) (by decide)) (by decide)
  rw [state] at stopped
  exact absurd stopped (by decide)

end Sys2Proof.Machine

/-! ### The end of a step, once its faults are graded -/

namespace Sys2Proof.Machine
namespace Block

/-- c is b once requests have been released to their agents, old flows shown and IDLE flits sent. -/
structure Closed (b c : Block) : Prop where
  raised : c.raised = b.raised
  queue : ∃ more, c.agents.queue = b.agents.queue ++ more
  retrains : c.agents.retrains = b.agents.retrains
  next : c.faults.eventNext = b.faults.eventNext
  od : ∀ i j, 0x2800 ≤ i → j < 256 → c.od' i j = b.od' i j

namespace Closed
variable {b c d : Block}

theorem refl (b : Block) : b.Closed b := ⟨rfl, ⟨[], (List.append_nil _).symm⟩, rfl, rfl, fun _ _ _ _ => rfl⟩

theorem trans (h : b.Closed c) (h' : c.Closed d) : b.Closed d := by
  obtain ⟨more, queue⟩ := h.queue
  obtain ⟨more', queue'⟩ := h'.queue
  exact ⟨h'.raised.trans h.raised, ⟨more ++ more', by rw [queue', queue, List.append_assoc]⟩, h'.retrains.trans h.retrains,
    h'.next.trans h.next, fun i j hi hj => (h'.od i j hi hj).trans (h.od i j hi hj)⟩

theorem setOd (b : Block) {i j : Nat} (v : Nat) (hi : i < 0x2700) (hj : j < 256) (apart : odKey i j ≠ odKey 0x1000 6) :
    b.Closed (b.setOd i j v) := by
  refine ⟨rfl, ⟨[], (List.append_nil _).symm⟩, rfl, rfl, fun i' j' hi' hj' => ?_⟩
  exact setOd_od'_of_ne b v hj' hj (fun same => by injection same; omega) apart (by unfold odKey; omega)

theorem of_sends (h : b.Sends c) : b.Closed c := by
  obtain ⟨⟨_, _, _, rfl⟩, keep⟩ := h
  exact ⟨rfl, ⟨[], (List.append_nil _).symm⟩, rfl, rfl, fun i j hi hj => keep i j hj fun same => by injection same; omega⟩

end Closed

theorem enqueue_closed (b : Block) (r : AgentReq) : b.Closed (b.enqueue r) := by
  have added (c : Block) : c.Closed { c with agents := { c.agents with queue := c.agents.queue ++ [r] } } :=
    ⟨rfl, ⟨[r], rfl⟩, rfl, rfl, fun _ _ _ _ => rfl⟩
  unfold enqueue
  dsimp only
  split
  · exact (added b).trans (.setOd _ _ (by decide) (by decide) (by decide))
  · exact added b

theorem releaseBack_closed (b : Block) : b.Closed b.releaseBack := by
  unfold releaseBack
  split
  · exact .refl b
  · have kept (held : List AgentReq) : b.Closed { b with heldBack := held } :=
      ⟨rfl, ⟨[], (List.append_nil _).symm⟩, rfl, rfl, fun _ _ _ _ => rfl⟩
    exact List.foldlRecOn (motive := b.Closed) _ _ (kept _) fun c closed r _ => closed.trans (enqueue_closed c r)

theorem graded_closed (b : Block) : b.graded.Closed b.settle := by
  have open' (c : Block) : c.Closed { c with blocked := false } := ⟨rfl, ⟨[], (List.append_nil _).symm⟩, rfl, rfl, fun _ _ _ _ => rfl⟩
  have old (c : Block) : c.Closed c.showOld := .setOd c _ (by decide) (by decide) (by decide)
  rw [settle_eq]
  exact (releaseBack_closed _).trans ((old _).trans ((Closed.of_sends (idleAll_sentFrom _).sends).trans (open' _)))

/-! ### An event whose interrupt must wait (R349, R519, R523) -/

/-- The event ring has room, its places are no host memory, and interrupts go to a stack in retrain. -/
structure EventWaits (b : Block) : Prop where
  room : b.eventFull = false
  place : ∀ k < 2 ^ b.od' 0x2800 2, isHost (b.od' 0x2800 1 + 64 * k) = false
  address : b.od' 0x2800 6 ≠ 0
  fast : inFast (b.od' 0x2800 6) = true
  held : b.agents.retrains.any (fun r => r.1 == stackOf (b.od' 0x2800 6) && r.2.isSome) = true

theorem request_queue (b : Block) {r : AgentReq} (h : r.flow = none) : (b.request r).agents.queue ≠ [] := by
  unfold request
  rw [if_neg (by simp [h])]
  unfold enqueue
  dsimp only
  split
  · simp
  · simp

/-- An interrupt to a stack in retrain waits, at its agent or behind a write of its ring. -/
theorem interrupt_queue {b : Block} {a : Nat} (fast : inFast a = true)
    (held : b.agents.retrains.any (fun r => r.1 == stackOf a && r.2.isSome) = true) (ring len : Nat) (d : Bytes) :
    (b.interrupt ring len a d).agents.queue ≠ [] := by
  have waits : b.ownWaits a d.length = true := by simp [ownWaits, stackHeld, fast, held]
  unfold interrupt
  split
  next q found => exact (attach_follows found).1
  · unfold ownPut
    rw [if_neg (by simp [isHost, fast]), if_pos waits]
    exact request_queue b rfl

/-- Such an event leaves something waiting: its record or its interrupt. -/
theorem event_queue {b : Block} (h : b.EventWaits) (ty payload : Nat) : (b.event ty payload).agents.queue ≠ [] := by
  obtain ⟨room, place, address, fast, held⟩ := h
  have following : b.eventAfter = [.eventIndex,
      .interrupt (b.od' 0x2800 1) (64 * 2 ^ b.od' 0x2800 2) (b.od' 0x2800 6) (natLE 4 (b.od' 0x2800 7))] := by
    unfold eventAfter
    rw [if_neg (by simp [address])]
  have written (c : Block) (k : Nat) (hk : k < 2 ^ b.od' 0x2800 2) (d : Bytes) (same : c.agents.retrains = b.agents.retrains) :
      (c.ownWrite (b.od' 0x2800 1 + 64 * k) d b.eventAfter).agents.queue ≠ [] := by
    have host : ¬ isHost (b.od' 0x2800 1 + 64 * k) = true := by simp [place k hk]
    by_cases busy : c.ownWaits (b.od' 0x2800 1 + 64 * k) d.length = true
    · unfold ownWrite ownPut
      simp only [host, busy, if_false, if_true, Bool.false_eq_true]
      exact request_queue c rfl
    · have put : c.ownPut (b.od' 0x2800 1 + 64 * k) d b.eventAfter = (c.tierWrite (b.od' 0x2800 1 + 64 * k) d, true) := by
        unfold ownPut
        rw [if_neg host, if_neg busy]
      unfold ownWrite
      rw [put, following]
      refine interrupt_queue fast ?_ _ _ _
      rw [← held, ← same, ← (tierWrite_spares c (b.od' 0x2800 1 + 64 * k) d).retrains]
      rfl
  unfold event
  dsimp only
  rw [if_neg (by simp [room])]
  exact written _ _ (Nat.mod_lt _ (Nat.two_pow_pos _)) _ rfl

end Block
end Sys2Proof.Machine

/-! ### Where an alien write at the head of the queues comes from -/

namespace Sys2Proof.Machine
namespace Block

/-! An agent in detention stays so for the rest of the step. -/

theorem setBit_set (b : Block) (index sub i : Nat) : (b.setBit index sub i true).od' index sub ≠ 0 := by
  unfold setBit
  dsimp only
  split
  · next set =>
    intro none
    rw [none] at set
    simp [bit] at set
  · rw [if_pos rfl, setOd_self]
    have := Nat.two_pow_pos i
    omega

/-- Dropped requests count, and are answered; units in detention stay so. -/
theorem dropRequest_fences (b : Block) (r : AgentReq) {j : Nat} (hj : j < 256) : (b.dropRequest r).od' 0x2802 j = b.od' 0x2802 j := by
  have counted (i k n : Nat) (hi : i ∈ carriedIndices) (hk : k < 256) : (b.count i k n).od' 0x2802 j = b.od' 0x2802 j :=
    (Carried.count b n hi hk).od _ _ hj (by decide)
  have after (c : Block) (x : After) : (c.runAfter x).od' 0x2802 j = c.od' 0x2802 j :=
    (Carried.of_noted (runAfter_noted c x)).od _ _ hj (by decide)
  have replied (c : Block) (n p mtype status txn : Nat) (body : Bytes) : (c.reply n p mtype status txn body).od' 0x2802 j = c.od' 0x2802 j :=
    (reply_sends ..).2 _ _ hj (by simp)
  unfold dropRequest
  split
  · dsimp only
    split
    · exact counted 0x2303 6 1 (by decide) (by decide)
    · exact counted 0x2303 6 1 (by decide) (by decide)
  · exact (List.foldlRecOn (motive := fun c : Block => c.od' 0x2802 j = (b.count 0x2504 0x0C 1).od' 0x2802 j) _ _ rfl
      fun c same x _ => (after c x).trans same).trans (counted 0x2504 0x0C 1 (by decide) (by decide))
  · dsimp only
    have one := counted 0x2303 6 1 (by decide) (by decide)
    generalize b.count 0x2303 6 1 = c at one ⊢
    split
    · split
      · exact one
      · exact one
    · split
      · exact (replied ..).trans one
      · exact (replied ..).trans one

theorem fenceAgent_fenced (b : Block) {a : Nat} (ha : a < 280) : (b.fenceAgent a).od' 0x2802 (0x10 + a / 64) ≠ 0 := by
  have dropped (c : Block) (p : AgentReq → Bool) (j : Nat) (hj : j < 256) : (c.dropRequests p).od' 0x2802 j = c.od' 0x2802 j :=
    List.foldlRecOn (motive := fun x : Block => x.od' 0x2802 j = c.od' 0x2802 j) _ _ rfl
      fun x same r _ => (dropRequest_fences x r hj).trans same
  have kept : (b.fenceAgent a).od' 0x2802 (0x10 + a / 64) = (b.setBit 0x2802 (0x10 + a / 64) (a % 64) true).od' 0x2802 (0x10 + a / 64) :=
    dropped _ _ _ (by omega)
  rw [kept]
  exact setBit_set _ _ _ _

/-- What an event leaves of its own ring's entries. -/
theorem eventWaits_before {b : Block} {ty payload : Nat} (h : (b.event ty payload).EventWaits)
    (retrains : (b.event ty payload).agents.retrains = b.agents.retrains) : b.EventWaits := by
  have keep := (event_noted b ty payload).od
  obtain ⟨room, place, address, fast, held⟩ := h
  have shown (j : Nat) (hj : j < 256) (other : (0x2800, j) ∉ eventKeys) : (b.event ty payload).od' 0x2800 j = b.od' 0x2800 j :=
    keep _ _ hj other
  rw [shown 1 (by decide) (by decide), shown 2 (by decide) (by decide)] at place
  rw [shown 6 (by decide) (by decide)] at address fast held
  rw [retrains] at held
  refine ⟨?_, place, address, fast, held⟩
  by_contra full
  have still : (b.event ty payload).faults.eventNext = b.faults.eventNext := by
    unfold event
    rw [if_pos (by simpa using full)]
    rfl
  unfold eventFull at room full
  rw [shown 2 (by decide) (by decide), shown 4 (by decide) (by decide), still] at room
  exact full room

/-- What shows that an event of the next step waits was so before the step closed. -/
theorem EventWaits.of_closed {b c : Block} (h : c.EventWaits) (closed : b.Closed c) : b.EventWaits := by
  obtain ⟨room, place, address, fast, held⟩ := h
  unfold eventFull at room
  rw [closed.od _ _ (by decide) (by decide), closed.od _ _ (by decide) (by decide), closed.next] at room
  rw [closed.od _ _ (by decide) (by decide), closed.od _ _ (by decide) (by decide)] at place
  rw [closed.od _ _ (by decide) (by decide)] at address fast held
  rw [closed.retrains] at held
  exact ⟨room, place, address, fast, held⟩

/-- A fault graded that leaves another found, with an event whose interrupt waits and no agent in detention: something is
left waiting, and an alien write among it waited before. -/
theorem raiseFault_alien {b c : Block} {cls unit addr detail : Nat} {inj : Bool} (fault : b.raiseFault cls unit addr detail inj = c)
    (none : b.raised = []) (left : c.raised ≠ []) (waits : c.EventWaits) (agents : ∀ a < 280, c.od' 0x2802 (0x10 + a / 64) = 0) :
    c.agents.queue ≠ [] ∧ ∀ r ∈ c.agents.queue, r.Alien → r ∈ b.agents.queue := by
  by_cases silent : (b.fenced unit && !noticeClass cls) = true
  · unfold raiseFault at fault
    rw [if_pos silent] at fault
    exact absurd (fault ▸ none) left
  · obtain ⟨payload, steps⟩ := raiseFault_steps (Bool.eq_false_iff.2 silent) addr detail inj
    rw [steps] at fault
    by_cases agent : b.faultLevel cls unit = 1 ∧ isAgent unit = true
    · obtain ⟨level, agent⟩ := agent
      rw [level, react_agent _ _ agent] at fault
      have range : unit - 0x100 < 280 := by
        unfold isAgent at agent
        simp only [Bool.and_eq_true, decide_eq_true_eq] at agent
        omega
      refine absurd ?_ (fenceAgent_fenced (b.recorded cls unit inj) range)
      rw [← agents _ range, ← fault]
      exact ((Carried.of_noted (event_noted _ 1 payload)).od _ _ (by omega) (by decide)).symm
    · have reacted := (recorded_spares b cls unit inj).trans (react_spares (cls := cls) _ agent)
      generalize Block.react _ cls unit (b.faultLevel cls unit) = d at reacted fault
      subst fault
      have shown := event_spares d 1 payload
      refine ⟨event_queue (eventWaits_before waits shown.retrains) 1 payload, fun r hr alien => ?_⟩
      exact reacted.queue r (shown.queue r hr alien) alien

/-- A step ends with one free choice made, a fault left for the next step, an event ring whose interrupts wait and no agent
in detention. An alien write then at the head of the queues was there before the step's faults were graded. -/
theorem alien_before {b : Block} {x : AgentReq} {rest : List AgentReq} (one : b.settle.freeCount = 1) (left : b.settle.raised ≠ [])
    (waits : b.settle.EventWaits) (agents : ∀ a < 280, b.settle.od' 0x2802 (0x10 + a / 64) = 0)
    (head : b.settle.agents.queue = x :: rest) (alien : x.Alien) : x ∈ b.agents.queue := by
  have closed := b.graded_closed
  have few := b.settle_freeCount
  obtain ⟨more, queue⟩ := closed.queue
  rw [closed.raised] at left
  cases found : b.raised with
  | nil =>
    refine absurd ?_ left
    unfold graded
    rw [found]
    rfl
  | cons e es =>
    obtain rfl : es = [] := List.eq_nil_of_length_eq_zero (by rw [found, List.length_cons] at few; omega)
    have fault : ({ b with raised := [] } : Block).fresh.2.raiseFault e.1 e.2.1 e.2.2.1
        (Config.freeFaultDetail ({ b with raised := [] } : Block).fresh.1).toNat e.2.2.2 = b.graded := by
      unfold graded
      rw [found]
      rfl
    obtain ⟨some, before⟩ := raiseFault_alien fault rfl left (waits.of_closed closed) fun a ha =>
      (closed.od _ _ (by decide) (by omega)).symm.trans (agents a ha)
    refine before x ?_ alien
    obtain ⟨y, ys, same⟩ := List.exists_cons_of_ne_nil some
    rw [queue, same] at head
    rw [same]
    exact (List.cons.inj head).1 ▸ List.mem_cons_self ..

end Block
end Sys2Proof.Machine

/-! ### A hold that expires at a stack with a second retrain -/

namespace Sys2Proof.Machine

/-- A write in the hold of stack 0, with two interrupts to follow it: one to a poisoned unit of stack 1, one of five bytes
to stack 0. -/
def heldRecord : AgentReq :=
  { port := 0, flow := none, op := .blockWrite Config.fastStart [] none, remote := none, after :=
    [.interrupt 0 0 (Config.fastStart + Config.stackBytes) [1], .interrupt 0 0 Config.fastStart [1, 2, 3, 4, 5]] }

/-- Its second interrupt, as it waits at the agent. -/
def heldInterrupt : AgentReq :=
  { port := 0, flow := none, op := .blockWrite Config.fastStart [1, 2, 3, 4, 5] none, remote := none }

/-- Stack 0 holds that write, twice in retrain; events go to the poisoned unit, and their interrupts to stack 0. -/
def heldTwice : State := { State.reset with blk := { Block.reset with
  od := [(odKey 0x1000 0x10, 2 ^ 64 - 1), (odKey 0x2800 1, Config.fastStart + Config.stackBytes), (odKey 0x2800 2, 2),
    (odKey 0x2800 6, Config.fastStart + 256)]
  agents := { Block.reset.agents with
    queue := [heldRecord], poisoned := [Config.fastStart + Config.stackBytes], retrains := [(0, some 0), (0, some 0)] } } }

/-- What is seen of a block at whose queues' head that interrupt waits: its free choices and found faults, the event ring, the
agents in detention. -/
def headShown (b : Block) : Bool × List Nat :=
  (b.agents.queue.head? == some heldInterrupt && b.agents.retrains.any (fun r => r.1 == 0 && r.2.isSome),
    [b.freeCount, b.raised.length, b.faults.eventNext] ++ [1, 2, 4, 6].map (b.od' 0x2800) ++
      (List.range 5).map (fun j => b.od' 0x2802 (0x10 + j)))

set_option maxRecDepth 100000 in
/-- What the end of that hold leaves: one free choice made, another fault found, the interrupt at the head of the queues. -/
theorem heldTwice_expires : shows (exec (.stackHoldExpiry 0) heldTwice) (fun t => headShown t.blk) =
    some (true, [1, 1, 1, Config.fastStart + Config.stackBytes, 2, 0, Config.fastStart + 256, 0, 0, 0, 0, 0]) := by decide

/-- A block seen so held that interrupt before the step's faults were graded. -/
theorem heldInterrupt_before {b : Block} (h : headShown b.settle =
    (true, [1, 1, 1, Config.fastStart + Config.stackBytes, 2, 0, Config.fastStart + 256, 0, 0, 0, 0, 0])) :
    heldInterrupt ∈ b.agents.queue := by
  obtain ⟨held, numbers⟩ := Prod.mk.inj h
  obtain ⟨head, retrains⟩ := Bool.and_eq_true_iff.1 held
  simp only [List.map, List.range, List.range.loop, List.cons_append, List.nil_append, List.cons.injEq, and_true] at numbers
  obtain ⟨one, left, next, base, size, read, address, a0, a1, a2, a3, a4⟩ := numbers
  obtain ⟨rest, queue⟩ : ∃ rest, b.settle.agents.queue = heldInterrupt :: rest := List.head?_eq_some_iff.1 (beq_iff_eq.1 head)
  refine Block.alien_before one (by intro none; rw [none] at left; cases left) ⟨?_, ?_, ?_, ?_, ?_⟩ (fun a ha => ?_) queue
    ⟨Config.fastStart, [1, 2, 3, 4, 5], rfl, rfl, rfl⟩
  · unfold Block.eventFull
    rw [next, size, read]
    decide
  · rw [size, base]
    decide
  · rw [address]
    decide
  · rw [address]
    decide
  · rw [address]
    exact retrains
  · have few : a / 64 < 5 := by omega
    generalize a / 64 = j at few ⊢
    interval_cases j
    · exact a0
    · exact a1
    · exact a2
    · exact a3
    · exact a4

/-- Refutes O59: stack 0 is twice in retrain, and the hold of the first expires. The write that it drops is followed by an
interrupt to the same stack, which the second retrain holds; another interrupt finds a poisoned unit, whose fault, with an
event that meets the same unit, is graded only after that. So no work that the step could have done leaves nothing there. -/
theorem not_startUpReachesReady : ¬ Obligations.StartUpReachesReady := by
  intro h
  obtain ⟨-, -, -, -, -, -, -, -, expires⟩ := h heldTwice (by decide)
  obtain ⟨b, ran, holds⟩ := expires 0 0 (by decide)
  obtain ⟨-, -, gone⟩ := holds (by decide)
  have shown := heldTwice_expires
  rw [ran] at shown
  have here := heldInterrupt_before (b := b) (Option.some.inj shown)
  exact gone heldInterrupt here (by decide) (by decide)

end Sys2Proof.Machine
